-- ==== Sys2Proof/Word.lean ====
section
/-! DEFINITION. The word types of the 6240 and the text type. Nothing here computes a rule of the spec. -/

namespace Sys2Proof

/-- A byte on a lane, in a frame, in FRAM or in the Peony configuration space. -/
abbrev Byte := BitVec 8

/-- A 16-bit word: CRC values, sequence numbers of the host, Umbigan cycle numbers. -/
abbrev W16 := BitVec 16

/-- A 32-bit word: tick numbers (R51, R53), OTP data, schedule words. -/
abbrev W32 := BitVec 32

/-- A 48-bit microsecond count: ETIME (R51). -/
abbrev W48 := BitVec 48

/-- A line or a token of a Forul line: printable ASCII characters (R128). -/
abbrev Text := List Char

end Sys2Proof
end

