-- ==== Sys2Proof/Syntax.lean ====
section
/-! DEFINITION. The commands of the block: one constructor of Instr per row of spec/opcode_table.json, with the
operands of the row. The table gives no row any bits; operands carry what the row's event brings from outside the
state (an argument of a line, a received byte, the bytes of a frame, a converted code, the cause of a restart). -/

namespace Sys2Proof

/-- The five Forul sessions (R127): H is the host UART, T1-T4 are the tunnel sessions. -/
inductive Sess where
  | h | t1 | t2 | t3 | t4
  deriving DecidableEq, Repr

/-- The two axes (R15). -/
inductive Axis where
  | a | b
  deriving DecidableEq, Repr

/-- An axis argument of stop, disarm and clear, which also accept `all` (R152). -/
inductive AxisSel where
  | one (x : Axis)
  | all
  deriving DecidableEq, Repr

/-- The three phases of an axis (Table 3-5). -/
inductive Phase where
  | u | v | w
  deriving DecidableEq, Repr

/-- The shunts with comparators (R285): a leg of an axis, or the bus. -/
inductive Shunt where
  | leg (x : Axis) (p : Phase)
  | bus
  deriving DecidableEq, Repr

/-- The two sides of a half-bridge (Table 8-1). -/
inductive Side where
  | high | low
  deriving DecidableEq, Repr

/-- A gate output: one of the twelve bridge gates or the brake chopper (R243, R268). -/
inductive GateOut where
  | bridge (x : Axis) (p : Phase) (d : Side)
  | brk
  deriving DecidableEq, Repr

/-- How a line names a parameter (R143): by dotted name or by `@0x` and four digits; `eff` marks the `.eff` twin. -/
inductive ParRef where
  | name (n : Text) (eff : Bool)
  | id (n : Nat) (eff : Bool)
  deriving DecidableEq, Repr

/-- The locks of Table 4-6, in acquisition order. -/
inductive Lock where
  | otp | sec | param | fram | linkcfg | bustx
  deriving DecidableEq, Repr

/-- What restarts the host core (R229). -/
inductive RestartCause where
  | exception | parity | watchdog
  deriving DecidableEq, Repr

/-- The segments of the link that take a verdict (Table 3-2). -/
inductive Seg where
  | ut | uc | down
  deriving DecidableEq, Repr

/-- The eight temperature sensors of Table 13-1 are numbered; this is a wake source of Table 15-6. -/
inductive WakeSrc where
  | wake0 | wake1 | rxd | bus | timer | pushA | pushB | vm
  deriving DecidableEq, Repr

/-- What abandons a STOP entry (R484, R515): a wake source, a latched fault or a host-core restart. -/
inductive AbortSrc where
  | wake (w : WakeSrc)
  | fault
  | restart
  deriving DecidableEq, Repr

/-- The outcome of a PMBus request (R502): a passing readback in mV, or failure after its retries. -/
inductive PmbusResult where
  | pass (mv : Nat)
  | fail (mv : Nat)
  deriving DecidableEq, Repr

/-- Who drives FLT_L low in an assertion (R23). -/
inductive Die where
  | aster | peony
  deriving DecidableEq, Repr

/-- Which condition stops the charger buck in hardware (R459). -/
inductive ChgStop where
  | headroom | clamp | zch | gap
  deriving DecidableEq, Repr

/-- The charger timers of Tables 14-4 and 14-5. -/
inductive ChgTimer where
  | pre | safety | absorb | restart | clampTime | ret | vin | backup | nimhClamp
  deriving DecidableEq, Repr

/-- The three read passes of a burned word (R562): raw 39-bit reads at normal, program-margin and blank-margin
reference. -/
structure OtpReads where
  normal : BitVec 39
  prog   : BitVec 39
  blank  : BitVec 39
  deriving DecidableEq, Repr

/-- The reads of the three wired-row copies after a pulse (R567): their levels at the normal reference, and the bits of
which some copy fails a margin read. -/
structure RowReads where
  c0   : BitVec 16
  c1   : BitVec 16
  c2   : BitVec 16
  weak : BitVec 16
  deriving DecidableEq, Repr

/-- What the lanes do to an answer and to its frame: the noise on the frame, and the bits flipped in the token (R72, R74). -/
structure Lane where
  noise : List Byte
  hit   : Byte
  deriving DecidableEq, Repr

/-- The raw level of a pin and for how many clocks it has stood (R317). -/
structure RawPin where
  level : Bool
  run   : Nat
  deriving DecidableEq, Repr

/-- The raw code of the Hall pins HW × 4 + HV × 2 + HU (R319) and for how many clocks each pin has stood (R317). -/
structure RawHall where
  code : BitVec 3
  runU : Nat
  runV : Nat
  runW : Nat
  deriving DecidableEq, Repr

/-- An edge of a pin: the level after it, for how many clocks it has stood, and the clock of the tick (R317, R338). -/
structure RawEdge where
  level : Bool
  run   : Nat
  clk   : Nat
  deriving DecidableEq, Repr

/-- The commands. A comment names the rule the table cites for the row. -/
inductive Instr where
  -- Forul lines (the line of session x starts to run)
  | help (x : Sess) (cmd : Option Text)                       -- R152
  | modeTyped (x : Sess)                                      -- R137
  | modeMachine (x : Sess)                                    -- R137
  | echo (x : Sess) (on : Bool)                               -- R133
  | sub (x : Sess) (classes : List Text)                      -- R157
  | unsub (x : Sess) (classes : List Text)                    -- R157
  | get (x : Sess) (p : ParRef)                               -- R183
  | set (x : Sess) (p : ParRef) (v : Text)                    -- R187
  | stage (x : Sess) (p : ParRef) (v : Text)                  -- R185
  | staged (x : Sess)                                         -- R188
  | discard (x : Sess)                                        -- R186
  | commit (x : Sess)                                         -- R189
  | auto (x : Sess) (on : Bool)                               -- R153
  | info (x : Sess) (p : ParRef)                              -- R726
  | list (x : Sess) (pre : Text)                              -- R727
  | save (x : Sess)                                           -- R203
  | defaults (x : Sess)                                       -- R204
  | arm (x : Sess) (ax : Axis)                                -- R363
  | disarm (x : Sess) (sel : AxisSel)                         -- R368
  | move (x : Sess) (ax : Axis) (prof : Nat)                  -- R400
  | stop (x : Sess) (sel : AxisSel)                           -- R399
  | diag (x : Sess) (ax : Axis)                               -- R306
  | calOffset (x : Sess) (ax : Axis)                          -- R377
  | calAlign (x : Sess) (ax : Axis)                           -- R378
  | calLearn (x : Sess) (ax : Axis)                           -- R412
  | clear (x : Sess) (ax : Axis)                              -- R301
  | clearAll (x : Sess)                                       -- R304
  | sleepStop (x : Sess) (banks : List Text)                  -- R480
  | sleepWatch (x : Sess) (args : List Text)                  -- R486
  | reset (x : Sess)                                          -- R156
  | logDump (x : Sess) (seq : Option Nat) (count : Option Nat) -- R654
  | vlogDump (x : Sess)                                       -- R220
  | otpStatus (x : Sess) (region : Option Text)               -- R585
  | otpRead (x : Sess) (word : Nat)                           -- R585
  | otpBurn (x : Sess) (word : Nat) (value : W32)             -- R572
  | wiredRowBurn (x : Sess) (value : W32)                     -- R567
  | otpFinalise (x : Sess) (region : Text)                    -- R574
  | otpGenCommit (x : Sess)                                   -- R583
  | authChallenge (x : Sess) (level : Text)                   -- R597
  | authResponse (x : Sess) (level : Text) (resp : Text)      -- R600
  | logout (x : Sess)                                         -- R602
  | bundleBegin (x : Sess)                                    -- R603
  | bundleAdd (x : Sess) (hex : List Text)                    -- R603
  | bundleEnd (x : Sess)                                      -- R605
  | at (x : Sess) (node : Nat) (line : Text)                  -- R545
  | tmuxA (x : Sess) (src : Text)                             -- R668
  | tmuxD (x : Sess) (src : Text)                             -- R670
  -- effects of parameter writes and of snapshot reads
  | posLoad (ax : Axis)                                       -- R322
  | latchArm (ax : Axis) (n : Fin 2)                          -- R339
  | chargerRetry                                              -- R466
  | stickyLockWrite (x : Sess) (mask : BitVec 6)              -- R571
  | logPinRelease (n : W32)                                   -- R650
  | txBufferWrite (k : Fin 4) (words : List (Fin 8 × W32))    -- R531
  | latchSnapshotRead (x : Sess) (ax : Axis) (n : Fin 2)      -- R340
  | rxBufferSnapshot (x : Sess) (k : Fin 8)                   -- R534
  | motionRecordSnapshot (x : Sess) (ax : Axis)               -- R731
  -- reception, turns and host core
  | rxCharacter (x : Sess) (c : Byte)                         -- R133
  | partialLineTimeout                                        -- R142
  | brk                                                       -- R166
  | sessionTurn                                               -- R107
  | turnQuantumExpiry                                         -- R107
  | replyResume (x : Sess)                                    -- R108
  | lostNotice (x : Sess)                                     -- R162
  | faultRecordWaitExpiry                                     -- R161
  | remoteTimeout                                             -- R110
  | tunnelIdleTimeout (x : Sess)                              -- R235
  | levelIdleTimeout (x : Sess)                               -- R602
  | authLockoutEnd                                            -- R601
  | hostCoreRestart (c : RestartCause)                        -- R230
  | restartComplete                                           -- R234
  | restartTimeout                                            -- R239
  | lockGrant (l : Lock)                                      -- R111
  | paramPieceEnd                                             -- R114
  -- the tick and the link
  | tickReload (aux : List (BitVec 12))                       -- R28, R99
  | msTick                                                    -- R46
  | centreSample (phases : List (BitVec 12)) (bus : BitVec 12) (sincos : BitVec 12 × BitVec 12) (cmps : BitVec 4) -- R29
  | utSegment (noise : List Byte)                             -- R65
  | ucSegment (noise : List Byte)                             -- R68
  | verdictToken (seg : Seg) (lane : Lane)                    -- R72
  | loopEngineRun                                             -- R357
  | overrun                                                   -- R48
  | eOverrun                                                  -- R50
  | cmdOff (ax : Axis)                                        -- R70
  | cmdRun (ax : Axis) (du dv dw : BitVec 12)                 -- R70
  | cmdHeld (ax : Axis)                                       -- R70
  | cmdLows (ax : Axis)                                       -- R70
  | cmdRelease (ax : Axis)                                    -- R296
  | cmdRest (ax : Axis)                                       -- R297
  | cmdClear (ax : Axis)                                      -- R302
  | cmdDirect (ax : Axis)                                     -- R263
  | cmdReserved (ax : Axis) (code : BitVec 4)                 -- R70
  | deltaBlock (blk : Byte) (entries : List Byte)             -- R82
  | deltaRun (blk : Byte) (addr : BitVec 16) (data : List Byte) -- R71
  | deltaSwitch (s : W32) (lastBlk : Byte)                    -- R83
  | deltaAbort                                                -- R82
  | deltaTime (hi : BitVec 24)                                -- R85
  | deltaControl (entries : List Byte)                        -- R85
  | bandCodeWrite (ax : Axis) (code : Byte)                   -- R256
  | diagStart (ax : Axis) (v : Byte)                          -- R305
  | chargerSetpoint (addr : BitVec 12) (data : List Byte)     -- R460
  | powerDown (v : Byte)                                      -- R481
  | tickTrim (t : BitVec 16)                                  -- R538
  | tmuxAEntry (v : Byte)                                     -- R668
  | configSwap                                                -- R83
  | commitBuildComplete (u : Unit)                            -- R190
  | commitWindowClose                                         -- R196
  | journalFold (u : Unit)                                    -- R202
  | linkGapLimit                                              -- R76
  | eLinkGap                                                  -- R77
  | telemetryTimeout                                          -- R78
  | nckLoss                                                   -- R80
  | fltLStuck                                                 -- R81
  | fltLAssert (d : Die)                                      -- R23
  | retrain                                                   -- R90
  | trainingAttempt (ok : Bool)                               -- R86
  | trainingHeader (noise : List Byte)                        -- R87
  | trainingReply (noise : List Byte)                         -- R88
  -- FRAM and log
  | framTransactionDone (ok : Bool)                           -- R103
  | framRequestAged                                           -- R106
  | logHoldTimeout                                            -- R221
  | fltPeonyPlaceholder                                       -- R223
  -- gate drive
  | vgdLow (code : BitVec 12)                                 -- R245
  | vgdRecover (code : BitVec 12)                             -- R245
  | btLow (ax : Axis) (p : Phase)                             -- R260
  | btRecover (ax : Axis) (p : Phase)                         -- R260
  | holdOffClamp (g : GateOut)                                -- R248
  | directPinChange (ax : Axis) (p : Phase) (en pls : Bool)   -- R263
  | brakeOn (vm : BitVec 12)                                  -- R268
  | brakeOff (vm : BitVec 12)                                 -- R268
  -- power-stage protection
  | blankingEnd (sh : Shunt) (above : Bool)                   -- R287
  | sScLeg (sh : Shunt)                                       -- R289
  | sScHard (sh : Shunt)                                      -- R288
  | eOv (vm : BitVec 12)                                      -- R290
  | vmUvlo (vm : BitVec 12)                                   -- R291
  | vmUvloEnd (vm : BitVec 12)                                -- R291
  | softTurnOffEnd (ax : Axis)                                -- R295
  | releaseEEnd (ax : Axis)                                   -- R296
  | diagComplete (ax : Axis) (moved : Bool)                     -- R306
  | clearWindowExpiry (x : Sess) (ax : Axis)                  -- R154
  -- position and speed
  | quadEdge (ax : Axis) (qa qb : RawPin) (clk : Nat)         -- R318
  | hallChange (ax : Axis) (hs : RawHall) (clk : Nat)         -- R319
  | indexEdge (ax : Axis) (e : RawEdge)                       -- R327
  | eEncIdx (ax : Axis)                                       -- R328
  | pcntCount (up : Bool)                                     -- R331
  | eSincosAmp                                                -- R334
  | latchEvent (ax : Axis) (n : Fin 2) (e : RawEdge)          -- R338
  | speedWindowClose (ax : Axis)                              -- R324
  -- motor control
  | prechargeEnd (ax : Axis)                                  -- R261
  | startAngleSet (ax : Axis)                                 -- R365
  | stillTimeout (ax : Axis)                                  -- R364
  | catchTimeout (ax : Axis)                                  -- R366
  | openLoopHandover (ax : Axis)                              -- R367
  | eStall (ax : Axis)                                        -- R369
  | disarmTimeout (ax : Axis)                                 -- R368
  | senseFailure (ax : Axis)                                  -- R370
  | phaseOpen (ax : Axis) (p : Phase)                         -- R372
  | degradedTimeout (ax : Axis)                               -- R373
  | calOffsetDone (ax : Axis)                                 -- R377
  | calAlignDone (ax : Axis)                                  -- R379
  -- motion and force
  | obstruction (ax : Axis)                                   -- R406
  | endStop (ax : Axis)                                       -- R407
  | learnPassComplete (ax : Axis)                             -- R415
  | pushDetect (ax : Axis)                                    -- R417
  | pushEnd (ax : Axis)                                       -- R418
  -- temperature
  | tsGateCount (n : Fin 8) (count : W16)                     -- R429
  | eOt (n : Fin 8)                                           -- R435
  | tsSuspect (n : Fin 8)                                     -- R440
  -- charger
  | chargerHwStop (c : ChgStop)                               -- R459
  | chargerTimeout (t : ChgTimer)                             -- R466
  | batfetOn (bat vm : BitVec 12)                             -- R471
  | batfetOff (bat vm : BitVec 12)                            -- R471
  -- power states
  | lowPowerEnter                                             -- R482
  | sleepAbort (src : AbortSrc)                               -- R484
  | wake (src : WakeSrc)                                      -- R499
  | stopTimerExpiry                                           -- R497
  | exitRun (count : Nat)                                       -- R500
  | crocusPass (hallA hallB : List (BitVec 3)) (quadA quadB : List (BitVec 2)) (wrsp : List Byte) -- R491
  | pmbusRequestDone (r : PmbusResult)                        -- R502
  | lpoMeasure (centihz : Nat)                                -- R506
  -- Umbigan bus
  | cycleStart                                                -- R520
  | cycleStartFrame (bytes : List Byte) (off : Int) (interval : Nat) -- R527
  | csfMiss                                                   -- R527
  | slotBoundary (slot : Fin 64)                              -- R532
  | slotFrame (bytes : List Byte) (slot : Fin 64) (off : Int) (damaged : Bool) -- R530
  | actionInstant (phase : Int)                               -- R535
  | groupMove                                                 -- R541
  | groupStop                                                 -- R541
  | busCollision                                              -- R543
  | unexpectedStartBit                                        -- R543
  | tunnelNone (peer : Fin 32) (tack : Byte)                  -- R547
  | tunnelLine (peer : Fin 32) (idx : BitVec 4) (last : Bool) (tseq tack : Byte) (txt : List Byte) -- R548
  | tunnelData (peer : Fin 32) (idx : BitVec 4) (last : Bool) (tseq tack : Byte) (txt : List Byte) -- R548
  | tunnelFinal (peer : Fin 32) (idx : BitVec 4) (last : Bool) (tseq tack : Byte) (txt : List Byte) -- R548
  | tunnelClose (peer : Fin 32) (tseq tack : Byte)            -- R545
  | tunnelRefuse (peer : Fin 32) (tseq tack : Byte)           -- R548
  -- OTP
  | otpPulseStart                                             -- R573
  | otpPulseEnd (r : OtpReads) (row : RowReads)               -- R572
  | shadowParityCheck (bad : List Nat)                        -- R570
  -- startup
  | powerOnReset                                              -- R618
  | vioFall                                                   -- R618
  | rstPin                                                    -- R622
  | vcoreBrownout                                             -- R622
  | internalResetRelease (mode : Bool) (strap : BitVec 3)     -- R625
  | peonyCoreReset                                            -- R623
  | xtalStartTimeout                                          -- R626
  | peonyLoadTimeout                                          -- R628
  | bootComplete                                              -- R632
  | txdCharacterSent                                          -- R683
  | ctsNChange (high : Bool)                                  -- R164
  | chargerHwResume                                           -- R459
  deriving DecidableEq, Repr

end Sys2Proof
end

