-- ==== Sys2Proof/Config.lean ====
section
/-! DEFINITION. The free values: constants without a body for every value the spec leaves open, so that nothing can be
proved of one. Each is applied to the values it may depend on, or to the counter `free` of the state. -/

namespace Sys2Proof.Config

/-- Whether a value between two steps is taken as the upper one, where a rule gives no direction. Arguments: the ID of the
parameter that shows it, or 0, and the value in steps. -/
opaque roundsUp : Nat → Rat → Bool

/-- The reason code of an AUTH_FAIL entry (R610, Table 20-2): yes when a lockout is in force, no for a wrong response. -/
opaque authReason : Bool → BitVec 32

/-- The second argument of a SLEEP_ABORT entry for a source that Table 15-6 does not hold (R484, R515): whether it is a
restart, and the wake sources latched. -/
opaque abortSource : Bool → BitVec 9 → BitVec 32

/-- The MASK of a VGD_LOW record (R245 names none). -/
opaque vgdMask : BitVec 8

/-- The data that `otp read` and `otp status` show for a word that does not decode (R585), by its raw bits. -/
opaque undecoded : BitVec 39 → BitVec 32

/-- The frequency of the RC LPO, in 0.01 Hz, while it has not been measured (R506). -/
opaque lpoCentihz : Nat

/-- The axes that the placeholder of a missing Peony record names, by its tick (R161, R223). -/
opaque placeAxes : BitVec 32 → BitVec 2

/-- The kind under which a host-core restart of 50 ms latches its stop, and the argument of its entry (R239 names neither). -/
opaque restartKind : Nat
opaque restartArg : BitVec 16

/-- The 128 bits of the n-th nonce from the entropy source (R597). -/
opaque nonce : Nat → BitVec 128

/-- The speed estimate of the loop engine: the filter of R355 has no form in the spec. Arguments: the previous estimate,
the counts of the source in this tick, and the ticks elapsed. -/
opaque obsFilter : Rat → Int → Nat → Rat

/-- The angle of the back-EMF observer and its speed in counts per second (R354): the phase-locked loop has no form in
the spec. Arguments: the previous angle, the estimate of the back-EMF in alpha and beta, the bandwidth in Hz, and the ticks
elapsed (R49). -/
opaque slObserver : BitVec 16 → Rat × Rat → Int → Nat → BitVec 16 × Rat

/-- Whether the observer has locked while the bridge is off, from the terminal results (R366). -/
opaque slLocked : List (BitVec 12) → Nat → Bool

/-- The duty by which the two sound phases of a limping axis are driven as one line-to-line pair (R374), from the q-axis
voltage demanded and the angle. -/
opaque limpDuty : Rat → BitVec 16 → Nat

/-- The text of the help lines (R152 gives `help` data lines and no text). -/
opaque helpText : Option Text → List Text

/-- The sampling taps that the n-th successful training chose, swept from a start tap (R86, R88). -/
opaque taps : Nat → Nat → Nat

/-- The calibrated zero offset of the bus amplifier, in counts (R282): the offsets that chapter 11 defines are those of the phases. -/
opaque busOffset : Int

/-- Whether a word of the array fails a margin read outside a burn (R569, R574): the n-th free value, the word. -/
opaque marginFails : Nat → Nat → Bool

/-- The bits that a pulse stopped by power or reset has programmed (R587): the n-th free value. -/
opaque burnMask : Nat → BitVec 39

/-- Whether FLT_L, which neither die drives, reads high again at a `clear` (R81): the n-th free value. -/
opaque fltHigh : Nat → Bool

/-- The microseconds that the untimed steps of a boot take before its first tick, or before its end when no training succeeds (Table 19-2): the n-th free value. -/
opaque bootUs : Nat → Nat

/-- The microseconds from the reload that ends the last tick to the moment at which the reference stops (Table 15-3, which
gives typical times, and the wait for the UART of R482): the n-th free value. -/
opaque drainUs : Nat → Nat

/-- The microseconds of step X2 of an exit, which ends with the readback (R499): the n-th free value. -/
opaque exitUs : Nat → Nat

/-- Whether a crystal LPO has started by E3 (R508): the n-th free value. -/
opaque lpoStarts : Nat → Bool

end Sys2Proof.Config
end

