-- ==== Sys2Proof/Machine/Bits.lean ====
section
/-! DEFINITION. Bytes, checksums and the text of numbers: CRC-16 of R62, CRC-32 of R197, little-endian fields of R8,
decimal and hexadecimal text of R10 and R150. -/

namespace Sys2Proof.Machine

/-- A text literal. -/
def txt (s : String) : Text := s.toList

/-- `f` applied n times. -/
def iter {α : Type} (f : α → α) : Nat → α → α
  | 0, x => x
  | n + 1, x => iter f n (f x)

/-! ### Checksums -/

/-- One bit of CRC-16/CCITT-FALSE (R62). -/
def crc16Bit (c : W16) : W16 := if c.getLsbD 15 then (c <<< 1) ^^^ 0x1021#16 else c <<< 1

/-- One byte of CRC-16/CCITT-FALSE. -/
def crc16Byte (c : W16) (b : Byte) : W16 := iter crc16Bit 8 (c ^^^ (b.zeroExtend 16 <<< 8))

/-- CRC-16/CCITT-FALSE: polynomial 0x1021, initial value 0xFFFF, no reflection, no final XOR (R62). -/
def crc16 (bs : List Byte) : W16 := bs.foldl crc16Byte 0xFFFF#16

/-- The CRC as it is carried: most significant byte first (R8). -/
def crcBytes (bs : List Byte) : List Byte :=
  let c := crc16 bs
  [c.extractLsb' 8 8, c.extractLsb' 0 8]

/-- One bit of the CRC-32 of IEEE 802.3, reflected. -/
def crc32Bit (c : W32) : W32 := if c.getLsbD 0 then (c >>> 1) ^^^ 0xEDB88320#32 else c >>> 1

/-- CRC-32 of IEEE 802.3 (R197, R524). -/
def crc32 (bs : List Byte) : W32 :=
  (bs.foldl (fun c b => iter crc32Bit 8 (c ^^^ b.zeroExtend 32)) 0xFFFFFFFF#32) ^^^ 0xFFFFFFFF#32

/-! ### The word code of OTP (R560) -/

/-- The codeword positions of the data bits, ascending, without the powers of two. -/
def eccPositions : List Nat := (List.range 39).filter fun p => p != 0 && !([1, 2, 4, 8, 16, 32].contains p)

/-- The XOR of the data bits whose position satisfies a test. -/
def eccXor (d : W32) (p : Nat → Bool) : Bool :=
  (eccPositions.zipIdx.map fun q => p q.1 && d.getLsbD q.2).foldl xor false

/-- The check bits c of data (R560). -/
def eccCheck (d : W32) : BitVec 7 :=
  let c : List Bool := (List.range 6).map fun j => eccXor d fun p => p.testBit j
  let c6 := xor (eccXor d fun _ => true) (c.foldl xor false)
  BitVec.ofNat 7 ((c ++ [c6]).zipIdx.foldl (fun n q => if q.1 then n + 2 ^ q.2 else n) 0)

/-- The raw 39 bits of a data word: the stored field e = c XOR 0x55 above the data. -/
def eccEncode (d : W32) : BitVec 39 := (eccCheck d ^^^ 0x55#7) ++ d

/-- Decodes raw bits: the data and whether a bit was corrected; none for a double-bit error. -/
def eccDecode (r : BitVec 39) : Option (W32 × Bool) :=
  let d : W32 := r.extractLsb' 0 32
  let c : BitVec 7 := r.extractLsb' 32 7 ^^^ 0x55#7
  let syn := ((c ^^^ eccCheck d).extractLsb' 0 6).toNat
  let odd := xor (eccXor d fun _ => true) ((List.range 7).foldl (fun b i => xor b (c.getLsbD i)) false)
  if !odd then (if syn = 0 then some (d, false) else none)
  else if syn = 0 ∨ [1, 2, 4, 8, 16, 32].contains syn then some (d, true)
  else match eccPositions.findIdx? (· == syn) with
    | some i => some (d ^^^ (1#32 <<< i), true)
    | none => none

/-! ### Fields -/

/-- The low n bytes of a number, least significant byte first (R8). -/
def leBytes : Nat → Nat → List Byte
  | 0, _ => []
  | n + 1, x => BitVec.ofNat 8 x :: leBytes n (x / 256)

/-- A number from bytes, least significant byte first. -/
def ofLe : List Byte → Nat
  | [] => 0
  | b :: bs => b.toNat + 256 * ofLe bs

/-- A number from bytes, most significant byte first. -/
def ofBe (bs : List Byte) : Nat := bs.foldl (fun a b => a * 256 + b.toNat) 0

/-- The low n bytes of a number, most significant byte first. -/
def beBytes (n x : Nat) : List Byte := (leBytes n x).reverse

/-- A signed number of n bits from its two's complement. -/
def toSigned (n x : Nat) : Int := if x < 2 ^ (n - 1) then x else (x : Int) - 2 ^ n

/-- The two's complement of a number in n bits. -/
def ofSigned (n : Nat) (i : Int) : Nat := (i % (2 ^ n : Int)).toNat

/-- Modular distance from a to b, signed: positive when b lies after a (R53, R544). -/
def modDist {w : Nat} (a b : BitVec w) : Int := (b - a).toInt

/-- A number divided by a positive one, rounded to the nearest with halves rounded up (R35, R163). -/
def roundUp (n : Int) (d : Nat) : Int := (2 * n + d) / (2 * d)

/-- A number divided by a positive one, rounded to the nearest with halves away from zero (R146). -/
def roundAway (n : Int) (d : Nat) : Int :=
  if n < 0 then - ((2 * (-n) + d) / (2 * d)) else (2 * n + d) / (2 * d)

/-- A value in whole steps where no rule gives the rounding: one of the two steps it lies between (log 84). -/
def freeRound (id : Nat) (q : Rat) : Int :=
  if q.den = 1 then q.num else if Config.roundsUp id q then q.floor + 1 else q.floor

/-- A rational rounded to the nearest whole number, where no rule says what a half becomes (log 84). -/
def ratRound (q : Rat) : Int := if q.den = 2 then freeRound 0 q else (q + 1/2).floor

/-- A rational rounded to the nearest whole number, halves away from zero (R146). -/
def ratAway (q : Rat) : Int := if q < 0 then - (-q + 1/2).floor else (q + 1/2).floor

/-- Absolute value. -/
def ratAbs (q : Rat) : Rat := if q < 0 then -q else q

/-! ### Text of numbers -/

/-- A decimal number (R10). -/
def dec (n : Nat) : Text := Nat.toDigits 10 n

/-- A signed decimal number. -/
def decI (i : Int) : Text := if i < 0 then '-' :: dec i.natAbs else dec i.natAbs

/-- The hexadecimal digit of a number below 16, upper case (Table 0-3). -/
def hexDigit (n : Nat) : Char := if n < 10 then Char.ofNat (48 + n) else Char.ofNat (55 + n)

/-- n hexadecimal digits (R10). -/
def hex : Nat → Nat → Text
  | 0, _ => []
  | n + 1, x => hexDigit (x / 16 ^ n % 16) :: hex n x

/-- The value of a hexadecimal digit in either case (R136). -/
def hexVal (c : Char) : Option Nat :=
  if '0' ≤ c ∧ c ≤ '9' then some (c.toNat - 48)
  else if 'A' ≤ c ∧ c ≤ 'F' then some (c.toNat - 55)
  else if 'a' ≤ c ∧ c ≤ 'f' then some (c.toNat - 87)
  else none

/-- Reads a non-empty run of digits of a base below 17. -/
def readDigits (base : Nat) : Text → Option Nat
  | [] => none
  | cs => cs.foldl (fun a c => match a, hexVal c with
      | some n, some d => if d < base then some (n * base + d) else none
      | _, _ => none) (some 0)

/-- Reads `0x` and hexadecimal digits. -/
def readHex : Text → Option Nat
  | '0' :: 'x' :: cs => readDigits 16 cs
  | _ => none

/-- Reads `0x`, `0b` or decimal digits: the number form of an argument. -/
def readNum : Text → Option Nat
  | '0' :: 'x' :: cs => readDigits 16 cs
  | '0' :: 'b' :: cs => readDigits 2 cs
  | cs => readDigits 10 cs

/-- Bytes from hexadecimal digits of even number (R603). -/
def readBytes : Text → Option (List Byte)
  | [] => some []
  | [_] => none
  | a :: b :: cs => match hexVal a, hexVal b, readBytes cs with
    | some x, some y, some r => some (BitVec.ofNat 8 (16 * x + y) :: r)
    | _, _, _ => none

/-- A decimal fraction n / 10^k without trailing zeros (R150). -/
def fixText (n : Int) (k : Nat) : Text :=
  let m := n.natAbs
  let ip := dec (m / 10 ^ k)
  let fp := ((List.replicate k '0' ++ dec (m % 10 ^ k)).reverse.take k).dropWhile (· == '0')
  let body := if fp.isEmpty then ip else ip ++ '.' :: fp.reverse
  if n < 0 then '-' :: body else body

/-- The bytes of a text. -/
def textBytes (t : Text) : List Byte := t.map fun c => BitVec.ofNat 8 c.toNat

/-- The text of bytes. -/
def bytesText (bs : List Byte) : Text := bs.map fun b => Char.ofNat b.toNat

/-- Splits a line into its tokens (R131). -/
def tokens (t : Text) : List Text :=
  let r := t.foldl (fun (a : List Text × Text) c =>
    if c == ' ' then (if a.2.isEmpty then a else (a.2.reverse :: a.1, [])) else (a.1, c :: a.2)) ([], [])
  ((if r.2.isEmpty then r.1 else r.2.reverse :: r.1)).reverse

/-- Joins texts with a separator. -/
def joinWith (sep : Text) : List Text → Text
  | [] => []
  | [x] => x
  | x :: xs => x ++ sep ++ joinWith sep xs

/-- Whether a text begins with another. -/
def startsWith : Text → Text → Bool
  | _, [] => true
  | [], _ :: _ => false
  | c :: cs, p :: ps => c == p && startsWith cs ps

/-- Removes spaces at both ends (R131). -/
def trim (t : Text) : Text := ((t.dropWhile (· == ' ')).reverse.dropWhile (· == ' ')).reverse

end Sys2Proof.Machine
end

