-- ==== Sys2Proof/Machine/State.lean ====
section
/-! DEFINITION. The state of the block as plain data: every piece of state the spec gives the 6240, the queue of waiting
commands, the closed reasons a step can stop with, and the state after reset. A field's docstring gives its width, the
rule of spec/ that names it, and its reset value. -/

namespace Sys2Proof.Machine

/-! ### Small containers and enumerations -/

/-- One value per axis (R15). -/
structure Pair (α : Type) where
  a : α
  b : α
  deriving DecidableEq, Repr

/-- One value per phase (Table 3-5). -/
structure Tri (α : Type) where
  u : α
  v : α
  w : α
  deriving DecidableEq, Repr

/-- One value per Forul session (R127). -/
structure Five (α : Type) where
  h : α
  t1 : α
  t2 : α
  t3 : α
  t4 : α
  deriving DecidableEq, Repr

/-- Values keyed by a number, keys strictly rising: parameter sets, staging sets, counters. -/
abbrev Store := List (Nat × Int)

/-- Bytes of an addressed store in canonical form: addresses strictly rising, no byte 0 listed (an unlisted byte reads
0). -/
abbrev Memory := List Host.Cell

/-- Session levels (R594). -/
inductive Level where
  | user | installer | factory
  deriving DecidableEq, Repr

/-- Device states (R157, Table 19-5). -/
inductive Dev where
  | off | boot | safe | run | stop | watch
  deriving DecidableEq, Repr

/-- Axis states of Table 11-3, with LATCHED and MOVING. -/
inductive AxState where
  | disarmed | diag | wait | precharge | start | catching | ready | moving | latched
  deriving DecidableEq, Repr

/-- Motion states (Table 12-5). -/
inductive MotState where
  | idle | hold | run | stopping | reversing | assist
  deriving DecidableEq, Repr

/-- How the last motion ended (R397). -/
inductive MotResult where
  | none | done | homed | endstop | stopped | reversed | aborted | fault
  deriving DecidableEq, Repr

/-- Latch states of an axis on Peony (Table 9-7; ARMED_CLR is a window of the session that armed it). -/
inductive PLatch where
  | free | relS | relE | rest
  deriving DecidableEq, Repr

/-- Tick classes of a phase (R251). -/
inductive TickClass where
  | normal | high | low
  deriving DecidableEq, Repr

/-- Charger states (Table 14-4). -/
inductive ChgState where
  | off | pre | bulk | absorb | float | trickle | done | pause | backup | error
  deriving DecidableEq, Repr

/-- Pause and error reasons of the charger (Tables 14-4, 14-5). -/
inductive ChgReason where
  | none | config | noBat | ntc | temp | vin | link | preTo | timer | batOv
  deriving DecidableEq, Repr

/-- Node states of the bus (Table 16-4, R526). -/
inductive BusState where
  | off | master | listen | hash | locking | sync | badid
  deriving DecidableEq, Repr

/-- Word marks of OTP (Table 17-3). -/
inductive Mark where
  | blank | sealed | weak | exhausted | failed | interrupted | uncorr
  deriving DecidableEq, Repr

/-- Causes of a reset of Aster (Table 19-1). -/
inductive ResetCause where
  | por | rstPin | command | vcoreBo
  deriving DecidableEq, Repr

/-- Reasons of a refused bundle (Table 18-4 and `replay`). -/
inductive BundleWhy where
  | format | target | keysOpen | slot | key | signature | replay
  deriving DecidableEq, Repr

/-- Phases of a commit (Table 6-4); CHECK ends inside the line that starts the commit. -/
inductive CommitPhase where
  | build | stream | arm | applyWait | abort
  deriving DecidableEq, Repr

/-- Boot and exit steps still ahead (Tables 19-2, 15-7). -/
inductive BootStep where
  | held | pmbus | train | load | analog | done
  deriving DecidableEq, Repr

/-- A segment within its tick (Table 3-2, R72, R74): not yet sent, sent with the token that its receiver answers, to be
repeated, repeated with the token that answers it, acknowledged, lost. -/
inductive SegState where
  | idle
  | out (bs : List Byte) (tok : Byte)
  | again (bs : List Byte)
  | retried (bs : List Byte) (tok : Byte)
  | acked
  | lost
  deriving DecidableEq, Repr

/-- A transaction of the PMBus master, with its data (R502). -/
inductive PmbusCmd where
  | page (n : Nat) | operation (b : Byte) | voutCommand (mantissa : Nat) | readVout | statusByte | clearFaults
  deriving DecidableEq, Repr

/-- Steps of sleep entry and exit (Tables 15-3, 15-7). -/
inductive SleepStep where
  | awake | flush | isolate | drain | asleep | leaving
  deriving DecidableEq, Repr

/-! ### Sessions -/

/-- How a line was framed, which decides how its replies are framed (R136, R138-R140); a machine line has the CRC that it carries,
if it carries one. -/
inductive Frame where
  | plain
  | seq (n : Nat) (crc : Option W16)
  | noSeq
  deriving DecidableEq, Repr

/-- A complete line in the receive buffer: its body, its length as received with the framing, its framing, the error
that reception found, if any (R129, R138, R139, R165), the tick and ETIME of its reception (R160, R613), whether it
takes session H from typed to machine mode when it finishes (R132, R137), and whether a host-core restart has ended it
unanswered (R173, R234). -/
structure RxLine where
  len   : Nat
  body  : Text
  frame : Frame
  err   : Option Nat
  tick  : W32
  at_   : W48
  enter : Bool
  cut   : Bool
  deriving DecidableEq, Repr

/-- The axis commands that are handed over to the loop engine (R362). -/
inductive AxCmd where
  | arm | disarm | move (prof : Nat) | stop | clear
  deriving DecidableEq, Repr

/-- A line that waits for PARAM, the only lock that is held from one step to the next (R113, R114). -/
inductive ParamOp where
  | stage (p : ParRef) (v : Text)
  | set (p : ParRef) (v : Text)
  | staged
  | discard
  deriving DecidableEq, Repr

/-- What a base slot is written for (R202-R204). -/
inductive BaseUse where
  | save | defaults | fold
  deriving DecidableEq, Repr

/-- What a started line waits for before its final reply. -/
inductive Wait where
  | turn                                             -- R107, R109: the rest of its turn
  | param (op : ParamOp)                             -- R110, R114
  | chunk (rest : List Text) (fin : Text)            -- R108: data lines still to come
  | commit                                           -- R190
  | axis (x : AxisSel) (c : AxCmd)                   -- R362
  | diag (x : Axis)                                  -- R306
  | clearDiag (sel : AxisSel)                        -- R303
  | clearSent (sel : AxisSel)                        -- R302
  | calOffset (x : Axis)                             -- R377
  | calAlign (x : Axis)                              -- R379
  | calLearn (x : Axis)                              -- R415
  | tmux (sel : Nat)                                 -- R668
  | sleep                                            -- R482
  | remote                                           -- R545
  | otp                                              -- R572
  | base (use_ : BaseUse)                            -- R203, R204
  | dump (seq count : Option Nat)                    -- R654: the reads of a log dump
  deriving DecidableEq, Repr

/-- The line a session runs: the tick in which it started (Table 7-3), and what it waits for. -/
structure Running where
  line : RxLine
  tick : W32
  wait : Wait
  deriving DecidableEq, Repr

/-- A notice waiting for a place between two lines; the class index is that of Table 5-6 in the order fault, state,
chg, bus, log, and 5 for `always`. -/
structure Notice where
  cls  : Nat
  text : Text
  deriving DecidableEq, Repr

/-- A line on its way out of a session, with its terminator: what is left of it to send, and the bit time that applies
after it (R163). -/
structure OutLine where
  notice : Bool
  chars  : Text
  rate   : Option Nat
  deriving DecidableEq, Repr

/-- An open challenge (R597): its level, its nonce and the ETIME it was opened at. -/
structure Challenge where
  level : Level
  nonce : List Byte
  at_   : W48
  deriving DecidableEq, Repr

/-- One record of a latch (R338). -/
structure LatchRec where
  pos   : BitVec 32
  wrap  : W16
  etime : W48
  frac  : Nat          -- clocks of 12.5 ns, 0-79
  tick  : W32
  count : Nat
  full  : Bool
  made  : Bool         -- an event has been recorded since the reset of Aster (R150)
  deriving DecidableEq, Repr

/-- A receive buffer of the bus as the host sees it (R533). -/
structure RxView where
  words : List W32
  age   : Nat
  cnt   : Nat
  made  : Bool         -- content has reached the buffer since the reset of Aster (R150)
  deriving DecidableEq, Repr

/-- A motion record (Table 24-7); the three extremes are in mA steps. -/
structure MotRec where
  prof   : Nat
  result : MotResult
  tick   : W32
  etime  : W48
  dur    : Nat
  dist   : Int
  fMax   : Int
  marginMin : Int
  iMax   : Int
  endPos : BitVec 32
  deriving DecidableEq, Repr

/-- The state of one Forul session (R127). Reset values are those of session H; a tunnel session starts closed, in
machine mode, with `auto off` and no subscription (R548, R627). -/
structure Session where
  /-- session exists. 1 bit. 05 R127, 16 R548. Reset: H open, T1-T4 closed. -/
  isOpen : Bool
  /-- mode: true is machine mode. 1 bit. 05 R137. Reset: typed on H, machine on tunnels. -/
  machine : Bool
  /-- echo setting in force. 1 bit. 05 R133, R216. Reset: on (as host.h.echo). -/
  echo : Bool
  /-- auto setting. 1 bit. 05 R153. Reset: on for H, off for tunnels. -/
  auto : Bool
  /-- session level. 2 bits. 18 R594. Reset: USER. -/
  level : Level
  /-- subscriptions fault, state, chg, bus, log in bits 0-4. 5 bits. 05 R157, 24 R733. Reset: 0x03 on H, 0 on tunnels. -/
  subs : BitVec 5
  /-- partial line. up to 160 characters. 05 R129. Reset: empty. -/
  part : Text
  /-- error found in the partial line, whose remaining characters are discarded. code. 05 R129, R165. Reset: none. -/
  skip : Option Nat
  /-- a control byte or a byte 0x80-0xFF stands in the partial machine line. 1 bit. 05 R137. Reset: no. -/
  badByte : Bool
  /-- progress of an ignored ESC sequence. 0-2. 05 Table 5-1. Reset: 0. -/
  esc : Nat
  /-- the last character was CR. 1 bit. 05 R128. Reset: no. -/
  lastCr : Bool
  /-- ETIME of the last character. 48 bits. 05 R142. Reset: 0. -/
  charAt : W48
  /-- complete lines waiting to start. receive buffer of 512 bytes. 05 R127, R164. Reset: empty. -/
  waiting : List RxLine
  /-- line that has started and not finished. 04 R107. Reset: none. -/
  running : Option Running
  /-- ETIME at which the last line finished, for stat.host.turn_peak. 48 bits. 04 R109. Reset: 0. -/
  doneAt : W48
  /-- Ctrl-C seen for the running chunked reply. 1 bit. 05 Table 5-1. Reset: no. -/
  cancel : Bool
  /-- output lines not yet sent, reply buffer of 512 bytes. 04 R108. Reset: empty. -/
  out : List OutLine
  /-- reply lines held until the fault notices before them are known. 05 R160, R172. Reset: empty. -/
  held : List OutLine
  /-- notice queue, 16 entries. 05 R162. Reset: empty. -/
  notices : List Notice
  /-- notices dropped since the queue last drained. count. 05 R162. Reset: 0. -/
  lost : Nat
  /-- staging set, 256 entries. 06 R185. Reset: empty. -/
  staging : Store
  /-- seq, CRC and final reply of the last completed machine line, and whether its reply had data lines. 05 R141. Reset: none. -/
  stored : Option (Nat × Option W16 × Text × Bool)
  /-- a data line has been sent for the line in progress. 1 bit. 05 R141. Reset: no. -/
  data : Bool
  /-- seq of the last machine line completed. 24 Table 24-8. Reset: -1. -/
  lastSeq : Int
  /-- lines answered. 16 bits. 24 Table 24-8. Reset: 0. -/
  lines : Nat
  /-- lines answered with err. 16 bits. 24 Table 24-8. Reset: 0. -/
  errs : Nat
  /-- open challenge. 18 R597. Reset: none. -/
  chal : Option Challenge
  /-- bundle store, 1,024 bytes; none while closed. 18 R603. Reset: closed. -/
  bundle : Option (List Byte)
  /-- ETIME at which `= armed` opened the clear window of each axis. 05 R154, 09 R303. Reset: none. -/
  clearWin : Pair (Option W48)
  /-- latch snapshots of this session, two per axis. 10 R340. Reset: none. -/
  latSnap : Pair (Option LatchRec × Option LatchRec)
  /-- receive-buffer snapshots of this session, by buffer. 16 R534. Reset: none. -/
  rxSnap : List (Nat × RxView)
  /-- motion-record snapshots of this session. 24 R731. Reset: none. -/
  recSnap : Pair (Option (List MotRec))
  /-- ETIME of the last line received. 48 bits. 07 R235, 18 R602. Reset: 0. -/
  lineAt : W48
  /-- node that opened this tunnel session. 5 bits. 16 R548. Reset: none. -/
  peer : Option Nat
  /-- `! restart` still follows the replies of R234, and whether `! level USER` follows it. 2 bits. 07 R234. Reset: none. -/
  restartDue : Option Bool
  deriving DecidableEq, Repr

/-! ### Frames of the link -/

/-- A gate command word (R70). -/
structure GateWord where
  cmd : BitVec 4
  du : BitVec 12
  dv : BitVec 12
  dw : BitVec 12
  deriving DecidableEq, Repr

/-- A DOWN frame, which serves the next reload (Table 3-7). -/
structure DownFrame where
  seq   : BitVec 4
  tickl : Byte
  ga    : GateWord
  gb    : GateWord
  dtype : BitVec 4
  delta : List Byte
  deriving DecidableEq, Repr

/-! ### The Peony die -/

/-- A half-bridge on Peony: its commanded gates, clamps and pins. -/
structure Leg where
  /-- GH_x on. 1 bit. 08 R243. Reset: off. -/
  hi : Bool
  /-- GL_x on. 1 bit. 08 R243. Reset: off. -/
  lo : Bool
  /-- hold-off clamp of GH_x engaged. 1 bit. 08 R248. Reset: engaged (R271, BOOT). -/
  clampHi : Bool
  /-- hold-off clamp of GL_x engaged. 1 bit. 08 R248. Reset: engaged. -/
  clampLo : Bool
  /-- slew step of the last transition of GH_x and of GL_x. 1-8. 08 R247, R249, 09 R295, R297. Reset: 8. DESIGN CHOICE 8 (log 5). -/
  stepHi : Nat
  stepLo : Nat
  /-- the passive pull-down holds the gates that are off. 1 bit. 08 R271, 22 R693. Reset: no (BOOT: clamp). -/
  passive : Bool
  /-- class of the present tick. 08 R251. Reset: low. DESIGN CHOICE low (log 5). -/
  cls : TickClass
  /-- the present tick ends without a PWM edge of the leg, so that the low side conducts to its end when it is on; for how many clocks at its
  end the high side is commanded on. 08 R252. Reset: no, 0. -/
  flat : Bool
  tail : Nat
  /-- BST_x - SW_x is below 7.4 V: no high-side turn-on. 1 bit. 08 R260. Reset: no. DESIGN CHOICE no (log 5). -/
  bstLow : Bool
  /-- BT_LOW episode runs. 1 bit. 08 R260. Reset: no. -/
  btLow : Bool
  /-- blanking window runs. 1 bit. 09 R286. Reset: no. -/
  blank : Bool
  /-- length with which the window started, clocks. 09 R286, R314. Reset: 0. DESIGN CHOICE 0 (log 5). -/
  blankN : Nat
  /-- taken level of EN_x. 1 bit. 08 R263, R264. Reset: 0 (pull-down). -/
  en : Bool
  /-- taken level of PLS_x. 1 bit. 08 R263, R264. Reset: 0 (pull-down). -/
  pls : Bool
  deriving DecidableEq, Repr

/-- A *release* of an axis, with the values of Table 9-10 that it started under (R295, R296, R314). -/
structure Release where
  /-- ETIME of its start. 48 bits. 09 R296, R299. Reset: 0. -/
  since : W48
  /-- `release_i` in counts, `release_t` in us, `soft_t` in clocks. 09 R314. Reset: 0. -/
  i : Nat
  t : Nat
  soft : Nat
  /-- every phase result of the last SAMPLE slot since the start lies below `release_i`. 1 bit. 09 R296, R311. Reset: no. -/
  low : Bool
  deriving DecidableEq, Repr

/-- One axis on Peony. -/
structure PAxis where
  /-- latch state. 09 Table 9-7. Reset: FREE (a core reset ends every fault, R623). -/
  latch : PLatch
  /-- CMD in force. 4 bits. 03 Table 3-8. Reset: OFF. -/
  cmd : BitVec 4
  /-- duty codes in force. 3 x 12 bits. 03 R70. Reset: 0. -/
  duty : Tri (BitVec 12)
  /-- an earlier duty is in force for HELD. 1 bit. 03 R70. Reset: no. -/
  hasDuty : Bool
  /-- the three half-bridges. 08 Table 8-1. -/
  leg : Tri Leg
  /-- outputs held off after VGD_LOW until a DOWN frame carries OFF. 1 bit. 08 R245. Reset: no. -/
  vgdHold : Bool
  /-- driver-zone band code in force. 0-5. 08 R256. Reset: 0 (run-time area cleared, R623). -/
  band : Nat
  /-- effective dead time in force, clocks of 12.5 ns. 08 R254. Reset: the value computed from a cleared staged area (log 6). -/
  dead : Nat
  /-- effective turn-on step in force. 1-8. 08 R247. Reset: from the cleared staged area (log 6). -/
  stepOn : Nat
  /-- effective turn-off step in force. 1-8. 08 R247. Reset: from the cleared staged area (log 6). -/
  stepOff : Nat
  /-- diagnosis result word. 16 bits. 09 Table 9-9. Reset: 0. -/
  diag : W16
  /-- clocks since the start of the running diagnosis. 09 R305. Reset: 0. -/
  diagClk : Nat
  /-- terminal results U, V, W of its last 4 ticks, newest first. 3 x 12 bits each. 09 R305. Reset: empty. -/
  diagH : List (Tri (BitVec 12))
  /-- the *release* in progress, or the last one. 09 R295, R296. Reset: zeros. -/
  rel : Release
  deriving DecidableEq, Repr

/-- A Peony fault record before TOFF is known (Table 3-5). -/
structure PRec where
  dseq : Byte
  code : Byte
  mask : Byte
  tick : W32
  deriving DecidableEq, Repr

/-- The analog side of Peony: what its converters hold and what its hardware loops report. -/
structure PAnalog where
  /-- AUX results of slot 1 of this tick. 8 x 12 bits. 03 Table 3-3, 04 Table 4-3. Reset: 0. -/
  aux : List (BitVec 12)
  /-- centre results of this tick. 16 x 12 bits. 03 Table 3-6, 04 Table 4-2. Reset: 0. -/
  conv : List (BitVec 12)
  /-- position in the rotating item of AUX pair 1. 04 R99, 21 R669. Reset: 0. -/
  rot : Nat
  /-- last 8 conversions of VM. 12 bits each. 09 R284. Reset: 0. DESIGN CHOICE 0 (log 5). -/
  vmH : List (BitVec 12)
  /-- last 8 conversions of VGD. 09 R284. Reset: 0. DESIGN CHOICE 0 (log 5). -/
  vgdH : List (BitVec 12)
  /-- last 8 conversions of the battery voltage. 14 R461. Reset: 0. DESIGN CHOICE 0 (log 5). -/
  batH : List (BitVec 12)
  /-- last 8 conversions of the charger current. 14 R461. Reset: 0. DESIGN CHOICE 0 (log 5). -/
  chgH : List (BitVec 12)
  /-- last 8 conversions of BAT_NTC. 14 R461. Reset: 0. DESIGN CHOICE 0 (log 5). -/
  ntcH : List (BitVec 12)
  /-- last fifth-position result (TMUX_A pin). 12 bits. 21 R669. Reset: 0. -/
  tmuxH : BitVec 12
  /-- VM below the lockout (UVLO). 1 bit. 09 R291. Reset: yes. DESIGN CHOICE yes (log 5). -/
  uvlo : Bool
  /-- VM comparator of E:OV above its threshold. 1 bit. 09 R290. Reset: no. -/
  ov : Bool
  /-- VGD_LOW holds. 1 bit. 08 R245. Reset: no. DESIGN CHOICE no (log 5). -/
  vgdLow : Bool
  /-- comparator state at the end of the last SAMPLE slot: CMPS bits 0-6. 7 bits. 03 R68. Reset: 0. DESIGN CHOICE 0 (log 5). -/
  cmps : BitVec 7
  /-- bus blanking window runs. 1 bit. 09 R286. Reset: no. -/
  busBlank : Bool
  /-- length with which it started, clocks. 09 R286, R314. Reset: 0. DESIGN CHOICE 0 (log 5). -/
  busBlankN : Nat
  /-- latest gate counts of TS0-TS5. 6 x 16 bits. 13 R429. Reset: 0xFFFF. DESIGN CHOICE 0xFFFF (log 5). -/
  ts : List W16
  /-- hardware B5 of TS0-TS5. 6 bits. 13 R435. Reset: no. -/
  b5 : List Bool
  /-- quadrant counter PCNT. 12 bits. 10 R331. Reset: 0. -/
  pcnt : BitVec 12
  /-- PCNT as latched at the sampling instant. 12 bits. 10 R331. Reset: 0. -/
  pcntLat : BitVec 12
  /-- charger stop conditions headroom, clamp, ZCH, gap. 4 bits. 14 R459. Reset: 0. -/
  chgStop : List ChgStop
  /-- buck switching. 1 bit. 14 R459, R461. Reset: no. -/
  buck : Bool
  /-- current that the charger loop regulates to, in mA. 09 R293, 14 R459, R469. Reset: 0. -/
  iTarget : Nat
  /-- after a gap stop, run byte 1 has not yet arrived. 1 bit. 14 R459. Reset: no. -/
  needRun : Bool
  /-- TMUX_A output byte in force. 8 bits. 21 R668. Reset: 0. -/
  tmuxA : Byte
  deriving DecidableEq, Repr

/-- The Peony island, alive in every state while VM is above the lockout (Table 15-1). -/
structure Island where
  /-- GBRK on. 1 bit. 08 R268. Reset: off. -/
  gbrk : Bool
  /-- brake-on threshold, counts of 20 mV. 08 R270. Reset: 3300 (66 V, R270). -/
  brkOn : Nat
  /-- brake-off threshold, counts of 20 mV. 08 R270. Reset: 3150 (63 V, R270). -/
  brkOff : Nat
  /-- slew step that the island uses for GBRK, and that of the last transition of GBRK. 1-8. 08 R269. Reset: 8. DESIGN CHOICE 8 (log 5). -/
  slew : Nat
  brkStep : Nat
  /-- hold-off clamp of GBRK; passive pull-down in its place while VM is below the lockout. 1 bit each. 08 R269, R271. Reset: no, yes (UVLO). -/
  brkClamp : Bool
  brkPassive : Bool
  /-- BATFET on. 1 bit. 14 R471. Reset: off. -/
  batfet : Bool
  /-- retention store of the active staged area. 3,840 bytes. 15 R479. Reset: all 0. -/
  store : Memory
  /-- valid mark of the store. 1 bit. 15 Table 15-9, 19 R623. Reset: clear (power-on). -/
  valid : Bool
  deriving DecidableEq, Repr

/-- The Peony die. -/
structure Peony where
  /-- Peony core powered. 1 bit. 15 Table 15-1. Reset: powered. -/
  powered : Bool
  /-- NCK runs on its lane, so Peony's ticks advance. 1 bit. 01 R18, 03 R80. Reset: no (link reset). -/
  nck : Bool
  /-- a training attempt has passed since NCK was last lost, so Peony sends and judges segments. 1 bit. 03 R80. Reset: no. -/
  linked : Bool
  /-- core reset since the last training header accepted (PSTAT bit 3). 1 bit. 03 R88. Reset: yes. -/
  fresh : Bool
  /-- TICK on Peony. 32 bits. 01 R18, 03 R87. Reset: 0. -/
  tick : W32
  /-- P of the last training header. 16 bits. 03 R87, R743. Reset: 4000 (20 kHz). DESIGN CHOICE 4000 (log 5). -/
  hdrP : Nat
  /-- tick trim in force. clocks, signed. 16 R538. Reset: 0. -/
  trim : Int
  /-- latched WROW: BRIDGE_PERMIT, DIRECT_DIS_A, DIRECT_DIS_B in bits 0-2; none until latched. 3 bits. 01 R20. Reset: none. -/
  wrow : Option (BitVec 3)
  /-- active staged area 0x000-0xEFF. 3,840 bytes. 03 R82. Reset: 0 (R623). -/
  active : Memory
  /-- shadow staged area. 3,840 bytes. 03 R82. Reset: 0 (R623). -/
  shadow : Memory
  /-- run-time area 0xF00-0xFFF. 256 bytes. 03 R71. Reset: 0 (R623). -/
  runtime : Memory
  /-- a swap has happened, or the area was reloaded from the island, since the core reset. 1 bit. 03 R743. Reset: no. -/
  configured : Bool
  /-- SETP. 1 bit. 03 R83. Reset: 0. -/
  setp : Bool
  /-- BST bit 0, staging open. 1 bit. 03 R82. Reset: no. -/
  staging : Bool
  /-- BST bit 3, an entry was rejected. 1 bit. 03 R71. Reset: no. -/
  rejected : Bool
  /-- armed switch tick (BST bit 2). 32 bits. 03 R83. Reset: none. -/
  armed : Option W32
  /-- block numbers held. 8 bits each. 03 R65 BACK. Reset: none. -/
  held : List Nat
  /-- consecutive gaps as Peony sees them. 03 R75. Reset: 0. -/
  gapRun : Nat
  /-- a DOWN frame for the next reload was accepted. 1 bit. 03 R75. Reset: no. -/
  gotDown : Bool
  /-- SEQ of the last DOWN frame accepted. 4 bits. 03 R73, R88. Reset: 0. -/
  downSeq : BitVec 4
  /-- the frame accepted for the next reload, which then acts. 384 bits. 03 R69, R70, R85. Reset: none. -/
  rx : Option DownFrame
  /-- the training reply on its way. 7 bytes. 03 R88. Reset: none. -/
  reply : Option (List Byte)
  /-- gap limit already acted on in this run of gaps. 1 bit. 03 R76. Reset: no. -/
  gapFired : Bool
  /-- SEQ of the last UT sent. 4 bits. 03 R73. Reset: 0. -/
  utSeq : BitVec 4
  /-- SEQ of the last UC sent. 4 bits. 03 R73. Reset: 0. -/
  ucSeq : BitVec 4
  /-- UT and UC of this tick: their bytes until their verdict, and what became of them. 03 R74, R75. Reset: not sent. -/
  ut : SegState
  uc : SegState
  /-- fault-record queue, 16 entries. 03 R67. Reset: empty. -/
  recs : List PRec
  /-- causes of the present tick, queued at the reload that ends it. 03 R67. Reset: empty. -/
  tickRecs : List PRec
  /-- next die sequence number. 8 bits. 03 R67. Reset: 0 (R89). -/
  dseq : Byte
  /-- Peony drives FLT_L. 1 bit. 03 R79. Reset: no. -/
  flt : Bool
  /-- faults latched on Peony, by CODE. 09 Table 9-2. Reset: none. -/
  faults : List (Byte × Byte)
  /-- reloads until a core that took the power-down entry loses its power; 0 while none is under way. 0-2. 15 R481, Table 15-10. Reset: 0. -/
  downIn : Nat
  /-- the two axes. -/
  ax : Pair PAxis
  /-- converters and hardware loops. -/
  an : PAnalog
  /-- the island. -/
  isl : Island
  deriving DecidableEq, Repr

/-! ### The loop engine and the position front ends -/

/-- Degradation of an axis (R373, R374). -/
inductive Degraded where
  | none
  | recon (p : Phase)
  | limp (p : Phase)
  deriving DecidableEq, Repr

/-- The failed channel of `axX.sense.failed` (R371). -/
inductive SenseFail where
  | none | u | v | w | unknown
  deriving DecidableEq, Repr

/-- The run of evidence for an open phase (R372): qualifying ticks and the ETIME of its first. -/
structure OpenRun where
  ticks : Nat
  since : W48
  deriving DecidableEq, Repr

/-- A running calibration of the loop engine: `cal offset` with its ticks, sums and VM results (R377), or `cal align`
with its step, positions and crossings in both directions (Table 11-9). -/
inductive CalRun where
  | offset (n : Nat) (sums : Tri Int) (vm : List Nat)
  | align (step : Nat) (since : W48) (p0 p1 p2 : Int) (fwd back : List (Nat × Rat))
  deriving DecidableEq, Repr

/-- The loop engine's control state of one axis. -/
structure AxLoop where
  /-- axX.state. 11 Table 11-3. Reset: DISARMED. -/
  st : AxState
  /-- ETIME of the entry into the present state or of the last restart of its timer. 48 bits. 11 R364. Reset: 0. -/
  since : W48
  /-- handed-over command waiting for the D-class work. 11 R362. Reset: none. -/
  hand : Option AxCmd
  /-- GSEQ of the group command that has handed it over. 8 bits. 16 R541, R552. Reset: none. -/
  grpHand : Option Byte
  /-- a diagnosis is requested in the next CONTROL field. 1 bit. 11 Table 11-3, 09 R305. Reset: no. -/
  wantDiag : Bool
  /-- Aster has started a diagnosis whose result is awaited. 1 bit. 09 R313. Reset: no. -/
  diagRun : Bool
  /-- last result word received (stat.diag.a, .b). 16 bits. 09 R306. Reset: 0. -/
  diagWord : W16
  /-- ETIME of the last passing diagnosis. 48 bits. 11 Table 11-3. Reset: none. -/
  diagPass : Option W48
  /-- ETIME at which a *release* of the axis began as Aster sees it; none once it has ended. 09 R301. Reset: none. -/
  relAt : Option W48
  /-- a disarm sets the references to 0. 1 bit. 11 R368. Reset: no. -/
  disarming : Bool
  /-- the gate command word of the next DOWN frame. 40 bits. 03 R70. Reset: OFF. -/
  word : GateWord
  /-- phase currents of this tick, A. 11 R357. Reset: 0. -/
  i : Tri Rat
  /-- phase results valid (R446). 3 bits. 13 R446. Reset: valid. -/
  valid : Tri Bool
  /-- axX.cur.id, A. 11 Table 11-10. Reset: 0. -/
  id : Rat
  /-- axX.cur.iq, A. 11 Table 11-10. Reset: 0. -/
  iq : Rat
  /-- the loop engine has formed a speed estimate, and currents, since the reset of Aster. 1 bit each. 05 R150. Reset: no. -/
  obsMade : Bool
  curMade : Bool
  /-- integrators of the d and q loops, V. 11 R357. Reset: 0. -/
  intD : Rat
  intQ : Rat
  /-- voltages applied in the last tick, V. 11 R371. Reset: 0. -/
  v : Tri Rat
  /-- currents of the previous tick, A. 11 R371. Reset: 0. -/
  iPrev : Tri Rat
  /-- phase currents commanded in the last tick, A. 11 R372. Reset: 0. -/
  iCmd : Tri Rat
  /-- extended position in the last completed tick, or the electrical position in 1/65,536 of a revolution while the source is `none`; none
  before the speed estimate has one. 11 R355. Reset: none. -/
  posPrev : Option Int
  /-- ETIME since which the observer has stayed within 20 degrees of the open-loop angle. 11 R367. Reset: none. -/
  lockAt : Option W48
  /-- electrical angle. 16 bits. 11 R351. Reset: 0. -/
  angle : W16
  /-- boundary last crossed, as the index of the state in forward order, and its ECLK. 11 R352. Reset: none. -/
  bnd : Option (Nat × W32)
  /-- ECLK interval between the last two crossings and the sign of travel. 11 R352. Reset: 0. -/
  bndStep : Int
  /-- ETIME of the last crossing. 48 bits. 11 R352. Reset: 0. -/
  bndAt : W48
  /-- run-time offset o_rt. 32 bits. 11 R353. Reset: none (not valid). -/
  offRt : Option Int
  /-- o_rt waits for the first Hall boundary. 1 bit. 11 Table 11-4. Reset: no. -/
  offWait : Bool
  /-- axX.obs.speed, counts per second. 11 R355. Reset: 0. -/
  obs : Rat
  /-- angle of the open-loop vector and its electrical frequency, while the open-loop start runs. 11 R367. Reset: none. -/
  openLoop : Option (Rat × Rat)
  /-- consecutive ticks with s above the sum limit. 11 R370. Reset: 0. -/
  sumRun : Nat
  /-- residual sums over these ticks. 11 R371. Reset: 0. -/
  resid : Tri Rat
  /-- a sense failure that the D-class work has decided and that is still to be reported: whether the axis goes on with the phase
  reconstructed, and the channel 1-3, or 0; the tick of the last decision. 11 R373, R376. Reset: none, none. -/
  senseDue : Option (Bool × Nat)
  senseTick : Option W32
  /-- axX.sense.failed. 11 R371. Reset: none. -/
  failed : SenseFail
  /-- runs of evidence for open phases. 11 R372. Reset: 0 ticks. -/
  openRun : Tri OpenRun
  /-- axX.phase.open. 11 R372. Reset: none. -/
  openPh : Option Phase
  /-- degradation in force. 11 R373, R374. Reset: none. -/
  degr : Degraded
  /-- ETIME at which the degradation began. 48 bits. Reset: 0. -/
  degrAt : W48
  /-- the degradation of a motion that a disarm ended, whose hold point still owes its fault. 12 R398. Reset: none. -/
  holdDue : Degraded
  /-- ETIME since which the stall condition holds. 11 R369. Reset: none. -/
  stallAt : Option W48
  /-- a calibration runs on the axis: offset sums, align step and crossings. 11 R377, R378. Reset: none. -/
  cal : Option CalRun
  deriving DecidableEq, Repr

/-- The last closed speed window (R324). -/
structure SpeedWin where
  delta   : Int        -- position at the close less position at the start
  ticks   : Nat        -- W
  clocks  : Nat        -- P
  hit     : Bool       -- a count fell in the window
  turned  : Bool       -- a direction change fell in the window
  pe      : Int        -- position at the last count
  te      : W32        -- ECLK of the last count
  pe0     : Int        -- the same at the previous close
  te0     : W32
  tc      : W32        -- ECLK of the close
  had     : Bool       -- a count has ever been seen before the close
  deriving DecidableEq, Repr

/-- A latch of an axis: its record, and whether it is armed (R339). -/
structure Latch where
  rcd   : LatchRec
  armed : Bool
  deriving DecidableEq, Repr

/-- An event of a latch that waits for the sin/cos position (R341): its latch, its record, whether the sampling instant of its own tick
lies before it, the clocks from that instant to the event, the clocks of a tick, the tick of the event, and the tick of the sample that the
position of its record stands for. -/
structure LatchWait where
  n    : Nat
  rcd  : LatchRec
  own  : Bool
  dt   : Int
  per  : Nat
  tick : W32
  samp : W32
  deriving DecidableEq, Repr

/-- The position front end of one axis. -/
structure AxPos where
  /-- axX.pos. 32 bits. 10 R321. Reset: 0 (R323). -/
  pos : BitVec 32
  /-- axX.pos.wrap. 16 bits. 10 R321. Reset: 0 (R323). -/
  wrap : W16
  /-- axX.pos.valid. 1 bit. 10 R323. Reset: off. -/
  valid : Bool
  /-- filtered quadrature levels. 2 bits. 10 R318. Reset: 0. DESIGN CHOICE 0 (log 5). -/
  qa : Bool
  qb : Bool
  /-- filtered level of QZ_X, and of LAT_X as the events of each latch have shown it. 1 + 2 bits. 10 R317. Reset: 0. DESIGN CHOICE 0 (log 5). -/
  qz : Bool
  latPin : Bool × Bool
  /-- axX.hall.state. 3 bits. 10 R319. Reset: 0. DESIGN CHOICE 0 (log 5). -/
  hall : BitVec 3
  /-- position and ECLK of the last count, its sign. 10 R324. Reset: none. -/
  lastCnt : Option (Int × W32 × Bool)
  /-- a direction change in the open window. 1 bit. 10 R326. Reset: no. -/
  turned : Bool
  /-- a count in the open window. 1 bit. 10 R326. Reset: no. -/
  hit : Bool
  /-- ticks of the open window that have ended. 10 R324. Reset: 0. -/
  winTicks : Nat
  /-- extended position at the start of the open window. 10 R324. Reset: 0. -/
  winPos : Int
  /-- last count at the previous close. 10 R326. Reset: 0. -/
  winPe : Int
  winTe : W32
  /-- the last closed window not yet computed by M-class work, and the last computed. 10 R324. Reset: none. -/
  closed : Option SpeedWin
  /-- axX.speed in cnt/s. 10 R324. Reset: 0. -/
  speed : Rat
  /-- axX.speed.cnt. 32 bits. 10 R325. Reset: 0. -/
  speedCnt : Int
  /-- a window of 20 counts or more has closed since `cal offset` looked at the last one. 1 bit. 11 R377. Reset: no. -/
  fast : Bool
  /-- reference phase of the index. 10 R327. Reset: none. -/
  phi : Option Int
  /-- consecutive index failures. 10 R328. Reset: 0. -/
  idxRun : Nat
  /-- error of the latest judged index; none before. 10 R328. Reset: none. -/
  idxErr : Option Int
  /-- the latest qualified index failed. 1 bit. 10 R328. Reset: no. -/
  idxBad : Bool
  /-- the two latches. 10 R337. Reset: zero record, armed (R339). -/
  lat : Latch × Latch
  /-- events waiting for the loop engine's sin/cos position. 10 R341. Reset: none. -/
  latWait : List LatchWait
  deriving DecidableEq, Repr

/-- A segment record (Table 12-2). -/
structure SegRec where
  kind  : Nat
  speed : Int
  rate  : Nat
  dist  : Nat
  deriving DecidableEq, Repr

/-- A compiled profile copy (R391). -/
structure ProfCopy where
  pkind : Nat
  react : Nat
  flags : Nat
  target : BitVec 32
  endZone : Nat
  segs  : List SegRec
  deriving DecidableEq, Repr

/-- A run of `cal learn` (R412-R415): whether it covers a pair, the profile of the present or next pass and whether that runs, its direction (true is positive), discarded passes, records of complete passes by direction
(true is positive), the records of the pass in progress and the number of complete passes by direction. -/
structure Learn where
  pair   : Bool
  next   : Nat
  run    : Bool
  dirPos : Bool
  bad    : Nat
  donePos : Nat
  doneNeg : Nat
  recPos : List (Nat × Nat)
  recNeg : List (Nat × Nat)
  cur    : List (Nat × Nat)
  asked  : Bool        -- the records of the next pass have been asked for
  deriving DecidableEq, Repr

/-- The motion state of one axis. -/
structure AxMot where
  /-- axX.mot.state. 12 Table 12-5. Reset: IDLE. -/
  st : MotState
  /-- axX.mot.result. 12 R397. Reset: none. -/
  result : MotResult
  /-- axX.mot.prof: the profile of the last move. 12 Table 12-7, 05 R150. Reset: none. -/
  prof : Option Nat
  /-- copy of the profile that the running move started on. 12 R390. Reset: none. -/
  copy : Option ProfCopy
  /-- the two segment buffers: segment records by their index. 04 R105. Reset: empty. -/
  segBuf : List (Nat × SegRec)
  /-- axX.mot.seg: index of the active segment. 12 R393. Reset: 0. -/
  seg : Nat
  /-- reference position, extended, in counts. 12 R392. Reset: 0. -/
  ref : Rat
  /-- reference speed, signed, in cnt/s. 12 R392. Reset: 0. -/
  vref : Rat
  /-- reference acceleration of the last tick. 12 R396. Reset: 0. -/
  aref : Rat
  /-- start of the move. 12 R394. Reset: 0. -/
  start : Int
  /-- target of the move, extended. 12 R394. Reset: 0. -/
  target : Int
  /-- direction of travel is positive. 1 bit. 12 R394. Reset: yes. -/
  pos : Bool
  /-- reversal target. 12 R409. Reset: 0. -/
  revTo : Int
  /-- the ramp to 0 of a reversal has ended. 1 bit. 12 R409. Reset: no. -/
  revBack : Bool
  /-- the stop in progress ends with `aborted`. 1 bit. 12 Table 12-5. Reset: no. -/
  aborting : Bool
  /-- integrator of the speed loop, A. 12 R396. Reset: 0. -/
  intV : Rat
  /-- iq reference, A. 12 R396. Reset: 0. -/
  iqRef : Rat
  /-- axX.force.est, A. 12 R405. Reset: 0. -/
  est : Rat
  /-- axX.force.lim, A. 12 R406. Reset: 0. -/
  lim : Rat
  /-- F and L have been formed since the reset of Aster. 1 bit. 05 R150. Reset: no. -/
  forceMade : Bool
  /-- consecutive ticks with F > L. 12 R406. Reset: 0. -/
  overN : Nat
  /-- an obstruction that the D-class work has decided and that is still to be reported: whether the motion reverses; the tick of the last
  decision. 12 R409, R420. Reset: none, none. -/
  obsDue : Option Bool
  obsTick : Option W32
  /-- the present move was accepted in this tick, so that its first segment is not stepped yet. 1 bit. 12 R393. Reset: no. -/
  entry : Bool
  /-- ETIME since which F exceeds home_thr. 12 R407. Reset: none. -/
  homeAt : Option W48
  /-- an end stop was found by the loop engine in this tick. 1 bit. 12 R407. Reset: no. -/
  endFound : Bool
  /-- ETIME since which a push criterion holds, and its direction. 12 R417. Reset: none. -/
  pushAt : Option (W48 × Bool)
  /-- ETIME since which the assist speed is below its threshold. 12 R418. Reset: none. -/
  pushEnd : Option W48
  /-- direction of the push. 1 bit. 12 R417. Reset: positive. -/
  pushPos : Bool
  /-- the push was found in HOLD. 1 bit. 12 Table 12-5. Reset: no. -/
  pushHold : Bool
  /-- the motion record being formed, when the motion entered RUN from IDLE or HOLD. 24 R730. Reset: none. -/
  cur : Option MotRec
  /-- the 16 motion records, newest first; a missing one reads as never filled. 24 R730. Reset: empty. -/
  recs : List MotRec
  /-- axX.ops and axX.ops.sat; FRAM keeps a record of them. 32 + 1 bits. 12 R416. Reset: 0, off; step B2 reads the record. -/
  ops : Nat × Bool
  /-- this motion runs on a group command. 1 bit. 16 R542. Reset: no. -/
  grp : Bool
  /-- this axis follows: progress ring of the leader, newest first (ms). 12 R404. Reset: none. -/
  follow : Option (List Rat)
  /-- envelope block in the buffers, by number, per direction in force. 12 R410. Reset: none. -/
  envBlk : List Nat
  /-- learning run. 12 R412. Reset: none. -/
  learn : Option Learn
  deriving DecidableEq, Repr

/-- The sin/cos channel on Aster (R331-R334). -/
structure SinCos where
  /-- last accepted PCNT. 12 bits. 10 R331. Reset: 0. -/
  last : BitVec 12
  /-- extended PCNT. 32 bits. 10 R331. Reset: 0. -/
  ext : Int
  /-- previous fused position. 10 R333. Reset: 0. -/
  fused : Int
  /-- a fused position stands. 1 bit. 10 R333. Reset: no. -/
  have_ : Bool
  /-- sys.sincos.amp, mV; none before it is formed. 10 R334, 05 R150. Reset: none. -/
  amp : Option Nat
  /-- consecutive ticks out of window. 10 R334. Reset: 0. -/
  outRun : Nat
  /-- consecutive ticks with a quadrant error. 10 R334. Reset: 0. -/
  qRun : Nat
  /-- latest tick bad (R335). 1 bit. Reset: no. -/
  bad : Bool
  /-- tick of the sample that the fused position stands for. 32 bits. 10 R341. Reset: 0. -/
  samp : W32
  /-- ETIME of the last accepted UC. 48 bits. 10 R323. Reset: 0. -/
  at_ : W48
  deriving DecidableEq, Repr

/-! ### Temperature and charger -/

/-- Trim of a sensor: N1 at T1, N2 at T2, temperatures in 0.01 degC (R430). -/
structure Trim where
  n1 : Nat
  t1 : Int
  n2 : Nat
  t2 : Int
  deriving DecidableEq, Repr

/-- One temperature sensor as thermal banding holds it. Temperatures are in 0.25 degC steps. -/
structure Sensor where
  /-- latest count held by Aster. 16 bits. 13 R429. Reset: none. -/
  cnt : Option W16
  /-- converted reading. 13 R430. Reset: none. -/
  raw : Option Int
  /-- effective reading. 13 R433. Reset: none. -/
  eff : Option Int
  /-- band of the sensor; none before the first evaluation. 13 R432. Reset: none. -/
  band : Option Nat
  /-- suspect. 1 bit. 13 R440. Reset: no. -/
  suspect : Bool
  /-- consecutive deviating evaluations. 13 R440. Reset: 0. -/
  dev : Nat
  /-- consecutive agreeing evaluations. 13 R440. Reset: 0. -/
  agree : Nat
  /-- neighbour median of the latest evaluation. 13 R439. Reset: none. -/
  med : Option Int
  /-- trim in use; none when the nominal values apply. 13 R431. Reset: none (blank FACT). -/
  trim : Option Trim
  /-- hardware B5 of TS6 and TS7. 1 bit. 13 R437. Reset: no. -/
  b5 : Bool
  /-- the evaluation has made the sensor suspect, and TS_SUSPECT has not yet reported it. 1 bit. 13 R440. Reset: no. -/
  due : Bool
  /-- ms ticks at which the sensor has been evaluated, up to 3. 13 R434. Reset: 0. -/
  evals : Nat
  /-- the zone was under assume-hot at the last evaluation. 1 bit. 13 R456. Reset: yes. -/
  hot : Bool
  deriving DecidableEq, Repr

/-- The charger state machine on Aster. -/
structure Charger where
  /-- chg.state. 14 R466. Reset: OFF. -/
  st : ChgState
  /-- state kept by PAUSE. 14 Table 14-4. Reset: OFF. -/
  kept : ChgState
  /-- chg.reason. 14 R466. Reset: none (`-`). -/
  reason : ChgReason
  /-- the charger qualifies at the next ms tick. 1 bit. 14 R475, R476. Reset: yes. -/
  qualify : Bool
  /-- ms of charging for the safety timer, in PRE, and in BACKUP with VM returned; samples of I < i_term, of a cell voltage
  below restart, of headroom low, of BATFET on, and of the voltage limit in NiMH BULK. 14 R464, R466, R467. Reset: 0. -/
  tSafety : Nat
  tPre : Nat
  tReturn : Nat
  tAbsorb : Nat
  tRestart : Nat
  tVin : Nat
  tBackup : Nat
  tLimit : Nat
  /-- MTICK of each ms of the last 60 s in which the V_max clamp was active. 14 R466. Reset: none. -/
  clampMs : List W32
  /-- time in BULK in ms, and the readings of tbat every 10 s, newest first. 14 R464. Reset: empty. -/
  tBulk : Nat
  temps : List Int
  /-- consecutive slopes at or above dtdt. 14 R464. Reset: 0. -/
  slopes : Nat
  /-- V_set in counts of 10 mV; none before the charger has qualified. 14 R465, R150. Reset: none. -/
  vset : Option Nat
  /-- chg.tbat in 0.25 degC; none before it is formed or while NTC is open or shorted. 14 R462. Reset: none. -/
  tbat : Option Int
  /-- run-time fields last sent (I_set, V_set, V_regen, Run) and ms since. 14 R460. Reset: none. -/
  sent : Option (Nat × Nat × Nat × Nat)
  sentMs : Nat
  /-- regeneration charge not yet a whole mAh, in mA ms. 14 R470. Reset: 0. -/
  regenAcc : Nat
  /-- last value of chg.chem, to see a change. 14 Table 14-4. Reset: 0. -/
  chem : Int
  deriving DecidableEq, Repr

/-! ### FRAM, log, OTP -/

/-- An event-log entry (Table 20-1) without its CRC; LSEQ is given when it enters the queue. -/
structure LogEntry where
  lseq  : Nat
  tick  : W32
  etime : W48
  flags : Byte
  kind  : Nat
  dseq  : W32
  axes  : BitVec 2
  mask  : Byte
  arg0  : W16
  arg1  : W32
  pin   : Bool
  deriving DecidableEq, Repr

/-- A slot of the ring: an entry, whether its CRC passes (R659, R661), and whether it stands from before a restart of the log,
so that no dump shows it (R653). -/
structure RingSlot where
  e   : LogEntry
  ok  : Bool
  old : Bool
  deriving DecidableEq, Repr

/-- A commit record in the journal, with the fields of Table 6-7. -/
structure JRec where
  tag   : Byte
  state : Byte
  gen   : W32
  count : Nat
  len   : Nat
  ents  : List (Nat × Nat × Int)      -- ID, N, value
  crc   : W32
  deriving DecidableEq, Repr

/-- A base slot that has been written whole: its generation, every persisted parameter by ascending ID, its CRC (R197). -/
structure BaseSlot where
  gen  : W32
  vals : Store
  crc  : W32
  deriving DecidableEq, Repr


/-- A log header copy (R652). -/
structure LogHeader where
  gen  : Nat
  head : Nat
  lseq : Nat
  dseq : W32
  deriving DecidableEq, Repr

/-- What a FRAM request does when its last transaction completes (Table 4-5). -/
inductive FramOp where
  | prefetchSeg (x : Axis)
  | prefetchEnv (x : Axis) (blk : Nat)
  | logEntry
  | record                                     -- PENDING record of the running commit
  | mark (state : Byte) (gen : W32)            -- DONE or VOID mark of the record of a generation
  | profile (x : Axis) (p : Nat)
  | base (use_ : BaseUse) (vals : Store)       -- base slot of save, defaults and the fold
  | envSlot (x : Axis)
  | intent (word : Nat) (pattern : BitVec 39)
  | otpState                                   -- OTP state table, with the intent record cleared
  | auth (n : Nat) (lock : Option W48)         -- wrong-response count and end of a lockout
  | pins (n : Nat)                             -- release of pinned slots up to an LSEQ
  | header
  | ops (x : Axis)
  | image (b : Nat)                            -- sleep image of RB0 or RB1
  | logRead (x : Sess)                         -- the entries of a log dump
  | hostRead                                   -- a transaction whose user no longer waits for it
  deriving DecidableEq, Repr

/-- A waiting or running request of the FRAM port. -/
structure FramReq where
  prio  : Nat
  op    : FramOp
  left  : Nat          -- transactions still to do (R103)
  tries : Nat          -- failed attempts so far (R199, R228)
  aged  : Bool
  at_   : W48
  deriving DecidableEq, Repr

/-- The mark, cause and re-burn count that the OTP state table lists for a word (R564). -/
structure WordState where
  mark : Mark
  rb   : Nat
  deriving DecidableEq, Repr

/-- A violation-log entry (Table 7-3): ASPACE none is 2, some (false, id) is 0, some (true, word) is 1. -/
structure Violation where
  vseq  : Nat
  tick  : W32
  sess  : Nat
  level : Level
  code  : Nat
  addr  : Option (Bool × Nat)
  cmdw  : Text
  deriving DecidableEq, Repr

/-- What retention bank RB0 holds, as its sleep image keeps it (R487): the set in force with what tells where it came from, the TMUX
selections, and what session H keeps. -/
structure Bank0 where
  set : Store
  gen : W32
  fram : Bool
  unsaved : Bool
  selA : Nat
  selD : Nat
  machine : Bool
  echo : Bool
  auto : Bool
  subs : BitVec 5
  stored : Option (Nat × Option W16 × Text × Bool)
  lastSeq : Int
  deriving DecidableEq, Repr

/-- What retention bank RB1 holds, as its sleep image keeps it (R487): the counters, the line counts of session H, the violation log,
the latch records and the restart record. -/
structure Bank1 where
  cnt : Store
  lines : Nat
  errs : Nat
  vlog : List Violation
  vseq : Nat
  lat : Pair (Latch × Latch)
  cause : Option RestartCause
  deriving DecidableEq, Repr

/-- FRAM contents and the port. -/
structure Fram where
  /-- the FRAM controller answers its identification read. 1 bit. 19 Table 19-4. Reset: yes. DESIGN CHOICE yes (log 7). -/
  present : Bool
  /-- the two base slots; none is one that a write has left incomplete, or that was never written. 06 R197. Reset: none (log 7). -/
  slot0 : Option BaseSlot
  slot1 : Option BaseSlot
  /-- the journal, oldest first, up to 64 records. 06 R197. Reset: empty (log 7). -/
  journal : List JRec
  /-- the ring of 8,192 slots by slot number. 20 R648. Reset: empty (log 7). -/
  ring : List (Nat × RingSlot)
  /-- the two header copies. 20 R652. Reset: none (log 7). -/
  hdr0 : Option LogHeader
  hdr1 : Option LogHeader
  /-- OTP state table; none when its CRC fails. 17 R564. Reset: some empty table. DESIGN CHOICE (log 7). -/
  otp : Option (List (Nat × WordState))
  /-- intent record. 17 R569. Reset: none (log 7). -/
  intent : Option (Nat × BitVec 39)
  /-- wrong-response count and end of a lockout in force. 18 R601. Reset: 0, none (log 7). -/
  tries : Nat
  lockout : Option W48
  /-- counter records axX.ops and axX.ops.sat. 32 bits each. 12 R416. Reset: 0, off (log 7). -/
  ops : Pair (Nat × Bool)
  /-- compiled profile copies, two per profile, by axis, profile and copy. 12 R390. Reset: empty (log 7). -/
  prof : List ((Nat × Nat) × ProfCopy)
  /-- envelope slots: axis (0, 1), slot, direction (0 positive), bin and value. 12 R410. Reset: empty (log 7). -/
  env : List ((Nat × Nat × Nat) × List (Nat × Nat))
  /-- env.valid and env.slot of each axis, kept with the envelopes. 12 R411, R415. Reset: off, 0 (log 7). -/
  envValid : Pair Bool
  envSlot : Pair Nat
  /-- sleep images of RB0 and RB1. 15 R487. Reset: none (log 7). -/
  rb0 : Option Bank0
  rb1 : Option Bank1
  /-- waiting requests, oldest first. 04 R104. Reset: empty. -/
  queue : List FramReq
  /-- the transaction in progress. 04 R103. Reset: none. -/
  cur : Option FramReq
  deriving DecidableEq, Repr

/-- The event-log path on Aster. -/
structure LogState where
  /-- log RAM queue, 64 entries, oldest first. 04 R116. Reset: empty. -/
  queue : List LogEntry
  /-- Aster entries held for Peony records, with the ETIME they were produced at. 07 R221. Reset: empty. -/
  hold : List (LogEntry × W48)
  /-- next LSEQ. 32 bits, saturating. 20 R652, R656. Reset: 1 (R653). -/
  next : Nat
  /-- next Aster DSEQ. 32 bits, saturating. 20 R646. Reset: 0 (R653). -/
  dseq : Nat
  /-- head slot. 13 bits. 20 R648. Reset: 0 (R653). -/
  head : Nat
  /-- entries written since the last header copy. 20 R652. Reset: 0. -/
  since : Nat
  /-- log.pin_full. 1 bit. 20 R649. Reset: off (R662). -/
  pinFull : Bool
  /-- `! log overwrite` and `! log pin_full` already sent since the reset. 20 R648, R649. Reset: no. -/
  saidOver : Bool
  saidPin : Bool
  /-- extended DSEQ of the last Peony record merged. 32 bits. 03 R67, 07 R227. Reset: none. -/
  merged : Option Nat
  /-- base b of R89. 32 bits. 03 R89. Reset: 0. -/
  base : Nat
  /-- tick up to which every Peony record is held. 32 bits. 07 R221. Reset: none. -/
  upTo : Option W32
  /-- latest tick of an entry that left the hold after 2 ms. 32 bits. 07 R221. Reset: none. -/
  forced : Option W32
  /-- assertions of FLT_L by Peony that still wait for their record: tick, ETIME, LSEQ of the placeholder if one was entered, notice already sent. 07 R223, 05 R161. Reset: none. -/
  await : List (W32 × W48 × Option Nat × Bool)
  /-- violation log, oldest first, 64 entries of 20 bytes. 07 R219. Reset: empty. -/
  vlog : List Violation
  /-- next VSEQ. 32 bits. 07 Table 7-3. Reset: 1. -/
  vseq : Nat
  deriving DecidableEq, Repr

/-- An OTP operation that runs over several steps (R572, R567, R576, R583). -/
inductive OtpJob where
  | burn (word : Nat)
  | wired (value : W16)
  | finalise (region : Nat)
  | gen (g : Nat)
  deriving DecidableEq, Repr

/-- The OTP operation in progress: its words still to burn (the first is the current one), whether its pulse has been
issued, the re-burns of the current word within the operation, whether it has issued any pulse (R233), and, while FRAM takes the state
table and the cleared intent record after a pulse (Table 17-8), the reply that follows or the next word. -/
structure OtpRun where
  job   : OtpJob
  by_   : Sess
  todo  : List (Nat × BitVec 39)
  pulse : Bool
  again : Nat
  begun : Bool
  saving : Option (Option Text)
  deriving DecidableEq, Repr

/-- OTP: the array, the wired row, the shadow registers and the operation in progress. -/
structure Otp where
  /-- raw 39 bits of every word 0x000-0x1FF that is not 0. 17 R559. Reset: all 0 (R559, unburned). -/
  array : List (Nat × BitVec 39)
  /-- the three copies of the wired row. 3 x 16 bits. 17 R565. Reset: 0 (unburned). -/
  copies : Tri W16
  /-- majority value latched at the last reset (otp.wrow). 16 bits. 17 R565. Reset: 0. -/
  wrow : W16
  /-- marks and re-burn counts of the non-blank words. 17 R561, R564. Reset: none. -/
  marks : List (Nat × WordState)
  /-- words in use with their data as sensed at the last reset, which trims, locks and key checks read. 17 R568, R617. Reset: none. -/
  sensed : List (Nat × W32)
  /-- words whose shadow entry fails its parity. 17 R570. Reset: none. -/
  parity : List Nat
  /-- otp.sticky. 6 bits. 17 R571. Reset: 0x00. -/
  sticky : BitVec 6
  /-- operation in progress. 04 R115. Reset: none. -/
  run : Option OtpRun
  deriving DecidableEq, Repr

/-! ### Parameters and commits -/

/-- Who started a commit, which decides its reply (R153, R191, R606, R377, R379, R415). -/
inductive CommitBy where
  | line (x : Sess)
  | set (x : Sess) (now : Bool)
  | bundle (x : Sess) (seq : Nat)
  | cal (x : Sess) (ax : Axis)
  deriving DecidableEq, Repr

/-- A block of a commit or of the boot load: RUN or entries, and its 32 bytes with BLK first (R71, R192). -/
structure Block where
  isRun : Bool
  bytes : List Byte
  deriving DecidableEq, Repr

/-- A running commit (Table 6-4), or the load of the complete Peony side (`load`, R628, R501). -/
structure Commit where
  load    : Bool
  by_     : CommitBy
  ents    : Store
  phase   : CommitPhase
  blocks  : List Block
  /-- blocks prepared by staging so far, and those prepared and not yet covered by BACK (the send queue). R102. -/
  made    : Nat
  queue   : List Nat
  /-- block 0 has been sent, so staging may be open on Peony. -/
  opened  : Bool
  /-- MTICK of the ms tick at which the window opened, and its length in ms (R196). -/
  start   : W32
  window  : Nat
  /-- named switch tick, whether the SWITCH that names it has been acknowledged, and SETP before it (R36, R83, R84). -/
  sw      : Option W32
  swAck   : Bool
  setp0   : Bool
  /-- PENDING record written; generation of the record; SETP toggled and the Aster side applied (R231). -/
  recOk   : Bool
  gen     : W32
  applied : Option W32
  /-- error of an ABORT. -/
  err     : Nat
  /-- ETIME of the start of the present PARAM piece (R114). -/
  piece   : W48
  deriving DecidableEq, Repr

/-- A fault latched on the device as Aster holds it: KIND, die, axes of its record, tick, and a detail (the zone of an
E:OT, the sensor of an E:TS_SUSPECT, 1 for FLT_L stuck). -/
structure AFault where
  kind  : Nat
  die   : Die
  axes  : BitVec 2
  tick  : W32
  info  : Nat
  deriving DecidableEq, Repr

/-! ### The link on Aster -/

/-- The link as Aster sees it. -/
structure ALink where
  /-- link up since the last successful training. 1 bit. 03 R88. Reset: no. -/
  up : Bool
  /-- last accepted SEQ of UT and UC; SEQ of the last DOWN. 4 bits each. 03 R73, R88. Reset: 0. -/
  utSeq : BitVec 4
  ucSeq : BitVec 4
  downSeq : BitVec 4
  /-- the DOWN frame last sent, its retry pending, its loss. 03 R64, R74. Reset: none, no, no. -/
  down : Option DownFrame
  downRetry : Bool
  downLost : Bool
  /-- UT, UC accepted in the present tick. 03 R75. Reset: no. -/
  gotUt : Bool
  gotUc : Bool
  /-- the DOWN frame of the present tick has been built: the loop engine's work is complete, abandoned or not to run. 02 R48, R49. Reset: no. -/
  done : Bool
  /-- consecutive overruns; the present tick is one; the count of this run has stopped. 02 R50, R56. Reset: 0, no, no. -/
  overRun : Nat
  overNow : Bool
  overStop : Bool
  /-- tick length P in clocks in force on Aster; tick trim in force, and the one that the next reload brings. 02 R36, 16 R538. Reset: 4000 (20 kHz), 0, 0. -/
  clk : Nat
  trim : Int
  trimTo : Int
  /-- driver-zone band codes in force on Peony for the present tick as Aster knows them from acknowledged frames, and those that
  the next reload brings. 13 R446. Reset: 0 (R623). -/
  band : Pair Nat
  bandTo : Pair Nat
  /-- gate words in force on Peony for the present tick as Aster knows them from acknowledged frames, and those that the next
  reload brings. 01 R30, 13 R446. Reset: OFF. -/
  words : Pair GateWord
  wordsTo : Pair GateWord
  /-- ticks elapsed since the loop engine last completed. 02 R49. Reset: 1. -/
  elapsed : Nat
  /-- consecutive gaps on Aster; E:LINK_GAP raised in this run; gap ticks since the tick that raised it, none before that tick ends. 03 R75, R77, R90. Reset: 0, no, none. -/
  gapRun : Nat
  gapFired : Bool
  gapAfter : Option Nat
  /-- consecutive ticks without a gap since the last gap or training. 09 Table 9-6. Reset: 0. -/
  goodRun : Nat
  /-- ETIME of the last accepted UT. 48 bits. 03 R78. Reset: 0. -/
  utAt : W48
  /-- latest BACK and BST; a UT has brought them since the training; latest SETP. 03 R65, R68, R82. Reset: 0, 0, no, 0. -/
  back : Byte
  bst : Byte
  bstSeen : Bool
  setp : Bool
  /-- consecutive UTs with BST bit 4 clear. 03 R81. Reset: 0. -/
  bst4 : Nat
  /-- latest telemetry by TELSEL; none before it arrives. 8 x 16 bits. 03 Table 3-4. Reset: none. -/
  tel : List (Option W16)
  /-- AUX results and centre results of the present tick. 03 R65, R68. Reset: empty. -/
  aux : List (BitVec 12)
  conv : List (BitVec 12)
  cmps : Byte
  /-- position in the rotating item of AUX pair 1 as Aster reckons it from the training, and whether it has the fifth position; the
  latest result of that position, none before one (R150). 12 bits. 21 R669, 04 R99. Reset: 0, no, none. -/
  rot : Nat
  five : Bool
  fifth : Option (BitVec 12)
  /-- a UT of the present tick has had the verdict NAK for want of a passing CRC. 1 bit. 03 R78. Reset: no. -/
  utBad : Bool
  /-- current of the bus shunt in the last tick whose UC the loop engine used, A. 09 R282. Reset: 0. -/
  busI : Rat
  /-- CONTROL entries waiting for the DOWN frame of an ms tick: address and bytes. 03 R85. Reset: empty. -/
  control : List (Nat × List Byte)
  /-- the DOWN frame of this tick may carry the CONTROL field of the ms. 1 bit. 03 R85. Reset: no. -/
  ctlOpen : Bool
  /-- ABORT is to be sent until a UT shows staging closed. 1 bit. 03 R82, 07 R230. Reset: no. -/
  abort : Bool
  /-- axes whose CLEAR goes out in the next DOWN frame. 2 bits. 09 R302. Reset: 0. -/
  clear : BitVec 2
  /-- number of faults latched when the DOWN frame with that CLEAR was formed; none before it. count. 09 R302. Reset: none. -/
  clearN : Option Nat
  /-- the link reset is held: NCK stopped, FLT_L low. 1 bit. 19 R623, R629. Reset: yes. -/
  held : Bool
  /-- both dies release FLT_L for a training attempt. 1 bit. 03 R744. Reset: no. -/
  freed : Bool
  /-- Aster drives FLT_L for a fault or in SAFE; FLT_L is low on the line; ETIME of its falling edge; held low by neither die. 03 R79, R81. Reset: no; low by the link reset (R623). -/
  flt : Bool
  low : Bool
  lowAt : W48
  outside : Bool
  /-- gate-off commands are sent for both axes until a clear is accepted. 1 bit. 01 R23. Reset: no. -/
  off : Bool
  /-- axes that Peony holds in *release* or *rest* as Aster knows it from the assertions of FLT_L and the records. 2 bits. 09 R302. Reset: 0. -/
  rests : BitVec 2
  /-- tick and ETIME latched at the last assertion by Peony. 01 R23. Reset: none. -/
  mark : Option (W32 × W48)
  /-- training attempts left; whether the training is a retraining (R90). Reset: 0, no. -/
  tries : Nat
  retrain : Bool
  /-- attempts of the present training that have failed. count. 19 R629. Reset: 0. -/
  lostTries : Nat
  /-- the exit from a sleep ends with a load of the complete Peony side. 1 bit. 15 R501. Reset: no. -/
  needLoad : Bool
  /-- a training attempt has passed its pattern steps and waits for a reply; headers sent in it. 1 bit, 0-4. 03 R86. Reset: no, 0. -/
  hdrOk : Bool
  hdrs : Nat
  /-- stat.lnk.tap; none before a training has passed. 03 R88. Reset: none. -/
  tap : Option Nat
  deriving DecidableEq, Repr

/-! ### Temperature zones, bus, power, host core -/

/-- Thermal banding. -/
structure Temp where
  /-- the eight sensors TS0-TS7. 13 R427. -/
  ts : List Sensor
  /-- bands of ZDA, ZDB, ZCH, ZPC, ZAC, ZNV; none before the first evaluation. 13 R433. Reset: none. -/
  zone : List (Option Nat)
  /-- band codes of the driver zones last sent to Peony. 13 R256. Reset: none. -/
  sent : Pair (Option Nat)
  deriving DecidableEq, Repr

/-- A transmit buffer of the bus (R531, R532). -/
structure TxBuf where
  words : List W32     -- content last sent
  back  : List W32     -- back copy
  fresh : Bool         -- a commit has written the back copy since the last boundary
  age   : Nat
  deriving DecidableEq, Repr

/-- A receive buffer of the engine and its view by M-class work (R533). -/
structure RxBuf where
  words : List W32
  age   : Nat
  cnt   : Nat
  got   : Bool         -- a frame was accepted in the present cycle
  made  : Bool         -- content has reached the buffer since the reset of Aster (R150)
  stale : Bool         -- the age has reached age_lim
  view  : RxView
  deriving DecidableEq, Repr

/-- One end of a tunnel (R545-R549). -/
structure Tunnel where
  peer   : Nat
  opened : Bool                 -- this node opened it
  sess   : Option Sess          -- serving session on this node
  txSeq  : Byte
  rxSeq  : Byte
  unack  : Option (Nat × Nat × Bool × List Byte)   -- kind, index, LAST and text of the frame in flight
  queue  : List (Nat × Nat × Bool × List Byte)     -- frames still to send
  acc    : List Byte            -- text assembled so far
  due    : Bool                 -- an acknowledgement is due
  seq    : Nat                  -- next seq of lines this node frames
  want   : Option Nat           -- seq of the pending line
  at_    : W48                  -- start of the 50 ms of R549
  deriving DecidableEq, Repr

/-- The Umbigan engine. -/
structure Bus where
  /-- node state. 16 Table 16-4. Reset: OFF. -/
  st : BusState
  /-- bus.node_id. 6 bits. 16 R526. Reset: 0 (node_base 0, straps 0). -/
  node : Nat
  /-- cycle number; a cycle has run or been heard since the reset (R150). 16 bits, 1 bit. 16 R544. Reset: 0 (R528), no. -/
  cycle : W16
  cycled : Bool
  /-- last cycle number plus 1 is next for the master. 1 bit. 16 R528. Reset: no. -/
  ran : Bool
  /-- schedule and bus parameters in use by the engine. 16 R525, R746. Reset: empty (defaults). -/
  cfg : Store
  /-- lock count and miss count. 16 R527. Reset: 0. -/
  lock : Nat
  miss : Nat
  /-- interval I in clocks between the last two references. 16 R529. Reset: none (rho = 1). -/
  interval : Option Nat
  /-- clocks from the local reference to the falling edge of the cycle reference; clocks from that edge to the placed action instant. 16 R529. Reset: 0, 0. -/
  comp : Nat
  actAt : Int
  /-- the present cycle has STOPPING set; the master stops after this cycle. 16 R528. Reset: no. -/
  stopping : Bool
  /-- the four transmit buffers. 16 R531. Reset: zeros, AGE 255 (R532). -/
  tx : List TxBuf
  /-- the eight receive buffers. 16 R533. Reset: zeros, age 0. DESIGN CHOICE age 0 (log 5). -/
  rx : List RxBuf
  /-- nodes heard in this cycle, and in the last completed one, none before one. 32 bits each. 16 R543, 05 R150. Reset: 0, none. -/
  hearing : W32
  heard : Option W32
  /-- frame on the line: its bytes as last sent by this node; slot, AGE and payload of an own data frame that has not ended. 16 R521, R540. Reset: empty, none. -/
  sent : List Byte
  own : Option (Nat × Nat × List Byte)
  /-- last recorded GSEQ. 8 bits. 16 R540. Reset: none. -/
  gseq : Option Byte
  /-- group commands due, oldest first: GSEQ, GCMD, and the action instants that come less than 100 us after their frame.
  16 R541. Reset: none. -/
  due : List (Byte × Byte × Nat)
  /-- group commands that an action instant has handed over: GSEQ, GCMD. 16 R541. Reset: none. -/
  ready : List (Byte × Byte)
  /-- tunnels of this node. 16 R545. Reset: none. -/
  tun : List Tunnel
  /-- index into the peers that the master's tunnel slots serve in turn. 16 R546. Reset: 0. -/
  turn : Nat
  /-- measured tick phase e in clocks, none before the first measurement, and the phase corrected since. 16 R538, 05 R150. Reset: none, 0. -/
  alignE : Option Int
  alignC : Rat
  /-- ETIME of the last collision and hash notice. 16 R543. Reset: none. -/
  saidCollide : Option W48
  saidHash : Option W48
  deriving DecidableEq, Repr

/-- Sleep, wake and the AON domain. -/
structure Power where
  /-- step of entry or exit. 15 Tables 15-3, 15-7. Reset: awake. -/
  step : SleepStep
  /-- the state asked for is WATCH. 1 bit. 15 R480. Reset: no. -/
  watch : Bool
  /-- banks retained in this sleep. 4 bits. 15 Table 15-4. Reset: 0. -/
  banks : BitVec 4
  /-- values taken at E0: wake mask, period in ms, stop timer in s (0 where it cannot act), whether the LPO runs in STOP, confirm, criteria. 15 R514. Reset: 0. -/
  mask : Byte
  period : Nat
  timer : Nat
  lpoOn : Bool
  confirm : Nat
  src : BitVec 6
  /-- the log header of E1 has been asked for. 1 bit. 20 R652. Reset: no. -/
  hdr : Bool
  /-- the CONTROL entry of E2 has been acknowledged. 1 bit. 15 Table 15-3. Reset: no. -/
  iso : Bool
  /-- abort asked for: the source. 15 R484. Reset: none. -/
  abort : Option AbortSrc
  /-- wake sources latched. 9 bits, vm in bit 8. 15 R485, R497. Reset: 0. -/
  woken : BitVec 9
  /-- references of the crocus pass: Hall and (A, B) of each axis. 15 R493. Reset: 0. -/
  refHall : Pair (BitVec 3)
  refQuad : Pair (BitVec 2)
  /-- consecutive failing passes per criterion; passes without a valid WRSP. 15 R494, R496. Reset: 0. -/
  fails : List Nat
  noRsp : Nat
  /-- stat.pwr.bat_low, stat.pwr.watch_rec, stat.pwr.wake_src. 15 R492, R494, R497. Reset: off, 0, 0. -/
  batLow : Bool
  watchRec : BitVec 6
  wakeSrc : BitVec 9
  /-- E_s, LPO cycles counted, E_m. 15 R506, R507. Reset: 0. -/
  es : W48
  lpo : Nat
  em : W48
  /-- stat.pwr.lpo_hz in 0.01 Hz; none before it is measured. 15 R506. Reset: none. -/
  lpoHz : Option Nat
  /-- stat.pwr.sleep_us, stat.pwr.etime_unc, stat.pwr.etime_disc. 15 R506, R508. Reset: 0, 0, off. -/
  sleepUs : Nat
  unc : Nat
  disc : Bool
  /-- stat.pwr.vcore in mV; none before a readback. 15 R503. Reset: none. -/
  vcore : Option Nat
  /-- PMBus request in progress: 0 none, 1 boot, 2 sleep, 3 exit. 15 R502. Reset: 0. -/
  pmbus : Nat
  /-- the sleep request failed. 1 bit. 15 R503. Reset: no. -/
  vcoreFail : Option Nat
  /-- crystal reference in use. 1 bit. 19 R626. Reset: no (rc). -/
  xtal : Bool
  /-- crystal LPO running. 1 bit. 15 R508. Reset: no. -/
  lpoXtal : Bool
  /-- level of SENS_EN. 1 bit. 22 R685. Reset: low. -/
  sensEn : Bool
  /-- forward body bias applied; reverse body bias applied; banks with retention assist on. 1, 1 and 4 bits. 15 R504, R505. Reset: no, no, 0. -/
  bias : Bool
  reverse : Bool
  assist : BitVec 4
  /-- the isolation cells of the core domain, of the late domain hold their outputs. 1 bit each. 15 R490. Reset: no. -/
  isoCore : Bool
  isoLate : Bool
  /-- the edges of WAKE0 and WAKE1 taken at E0; the levels that the last edges left. 2 bits each. 15 R497, R514. Reset: 0. DESIGN CHOICE 0 for the levels (log 5). -/
  edge : BitVec 2
  wakePin : BitVec 2
  /-- the bytes of the last WREQ. 15 R495. Reset: none. -/
  wreq : List Byte
  /-- address and transactions of the latest PMBus request. 15 R502. Reset: 0, none. -/
  pmAddr : Nat
  pmSeq : List PmbusCmd
  /-- sleep images in FRAM of RB0 and RB1 are valid. 2 bits. 15 R487. Reset: 0. -/
  images : BitVec 2
  deriving DecidableEq, Repr

/-- The host core. -/
structure HostCore where
  /-- next place in the cycle H, T1-T4, system turn. 0-5. 04 R107. Reset: 0 (H). -/
  turn : Nat
  /-- a host-core restart runs: its cause and the ETIME of its trigger. 07 R230. Reset: none. -/
  restart : Option (RestartCause × W48)
  /-- axes already stopped by this restart's 50 ms limit. 1 bit. 07 R239. Reset: no. -/
  stopped : Bool
  /-- stat.host.restart_cause. 07 R229. Reset: none. -/
  cause : Option RestartCause
  /-- lines that wait for PARAM, in arrival order, with the ETIME of their arrival. The other locks of Table 4-6 are held
  inside one step only, and PARAM from step to step by the running commit alone (R113). 04 R111, R114. Reset: empty. -/
  waiters : List (Sess × W48)
  /-- bit time of the host UART in force, clocks of 80 MHz. 05 R163. Reset: 694 (115,200). -/
  bit : Nat
  /-- `reset` has been answered, and the reset follows when every reply buffer has drained. 1 bit. 05 R156. Reset: no. -/
  resetting : Bool
  /-- CTS_N level. 1 bit. 05 R164. Reset: low (pull-down). -/
  cts : Bool
  /-- a character that had started when CTS_N rose is still being sent. 1 bit. 05 R164. Reset: no. -/
  shifting : Bool
  /-- RTS_N level. 1 bit. 05 R164, 22 Table 22-3. Reset: high (until B3). -/
  rts : Bool
  /-- RXD held in reception reset until B3. 19 R627. Reset: yes. -/
  deaf : Bool
  /-- M-class time of the last ms in 0.1 us, for stat.host.m_peak. 04 R102. Reset: 0. -/
  mPeak : Nat
  /-- blocks crossed in the present ms of a running commit, none while none runs or in the ms in which it starts; and in the last
  full ms of the most recent commit, none before there is one. 04 R102. Reset: none. -/
  crossed : Option Nat
  blockRate : Option Nat
  /-- TMUX_D selection and TMUX_A selection (0 off, n+1 code n). 21 R663. Reset: off. -/
  selA : Nat
  selD : Nat
  /-- the TMUX_A byte that Peony has acknowledged. 8 bits. 21 R668. Reset: 0x00. -/
  tmuxSent : Byte
  deriving DecidableEq, Repr

/-- The parameters. -/
structure Params where
  /-- values of the set in force that differ from their defaults. 06 R183. Reset: empty (all defaults). -/
  now : Store
  /-- values of the `reset` parameters the device booted with. 06 R184. Reset: empty. -/
  boot : Store
  /-- stat.cfg.gen. 32 bits. 06 R200. Reset: 0. -/
  gen : W32
  /-- stat.cfg.source is fram. 1 bit. 06 R201. Reset: no (defaults). -/
  fram : Bool
  /-- stat.cfg.unsaved. 1 bit. 06 R199. Reset: 0. -/
  unsaved : Bool
  /-- lock entries of CUST sensed at boot: first and last ID. 06 R206. Reset: none. -/
  locks : List (Nat × Nat)
  deriving DecidableEq, Repr

/-! ### The block -/

/-- The whole block. -/
structure State where
  /-- device state. 3 bits. 19 Table 19-5. Reset: BOOT (R625: from the start of a reset). -/
  dev : Dev
  /-- stat.boot.cause. 19 R622. Reset: por. -/
  cause : ResetCause
  /-- recorded SAFE causes (stat.boot.safe). 6 bits. 19 R631. Reset: 0. -/
  safe : BitVec 6
  /-- boot or load step still ahead. 19 Table 19-2. Reset: held in reset. -/
  boot : BootStep
  /-- ETIME of the start of the last reset. 48 bits. 19 R624. Reset: 0. -/
  resetAt : W48
  /-- ETIME of the release of the internal reset, and stat.boot.time in us. 19 R631. Reset: 0. -/
  bootAt : W48
  bootTime : Nat
  /-- straps sampled: MODE high, ID2:ID0. 4 bits. 19 R621. Reset: 0. DESIGN CHOICE 0 until sampled (log 5). -/
  mode : Bool
  strap : BitVec 3
  /-- RST_N asserted or a reset has begun and not been released. 1 bit. 19 R619. Reset: yes. -/
  inReset : Bool
  /-- the ledger runs ticks. 1 bit. 02 R58, 19 Table 19-2 B8. Reset: no. -/
  ticking : Bool
  /-- the next reload begins the first tick after training or sleep, and no tick ends at it. 1 bit. 02 R46, R58. Reset: no. -/
  first : Bool
  /-- TICK. 32 bits. 02 R51. Reset: 0. -/
  tick : W32
  /-- MTICK. 32 bits. 02 R51. Reset: 0. -/
  mtick : W32
  /-- ms accumulator, clocks. 02 R46. Reset: 0. -/
  acc : Nat
  /-- this tick is an ms tick whose M-class work has not run yet. 1 bit. 02 R46. Reset: no. -/
  msDue : Bool
  /-- ms ticks whose progress the loop engine has still to store. count. 12 R404, R425. Reset: 0. -/
  ringDue : Nat
  /-- ETIME. 48 bits. 02 R51. Reset: 0 (por). -/
  etime : W48
  /-- clocks of the reference since the last whole microsecond, 0-79. 02 R51. Reset: 0. -/
  etFrac : Nat
  /-- TICK and ETIME of the last 300 tick boundaries, newest first. 32 + 48 bits each. 02 R52. Reset: empty. -/
  bounds : List (W32 × W48)
  /-- ECLK. 32 bits. 10 R324. Reset: 0. DESIGN CHOICE 0 (log 5). -/
  eclk : W32
  /-- the five sessions. 05 R127. -/
  sess : Five Session
  host : HostCore
  prm : Params
  /-- running commit or load. 04 R115. Reset: none. -/
  commit : Option Commit
  link : ALink
  pe : Peony
  loop : Pair AxLoop
  pos : Pair AxPos
  mot : Pair AxMot
  sc : SinCos
  temp : Temp
  chg : Charger
  fram : Fram
  log : LogState
  otp : Otp
  bus : Bus
  pwr : Power
  /-- latched faults of the device as Aster holds them, in latch order. 09 R301. Reset: none. -/
  faults : List AFault
  /-- saturating counters by parameter ID (stat., temp., axX., sys., chg., log.). 20 R657. Reset: all 0. -/
  cnt : Store
  /-- stat.sec.bundle_why and stat.sec.bundle_tick. 18 R605, R607. Reset: none. -/
  bundleWhy : Option BundleWhy
  bundleTick : Option W32
  /-- wrong responses counted since the last correct one; start of the lockout in ETIME and its length in us. 18 R601. Reset: 0, none; step B2
  reads FRAM. -/
  tries : Nat
  lockAt : Option (W48 × Nat)
  /-- FLT_N low. 1 bit. 22 R684. Reset: low. -/
  fltN : Bool
  /-- VC_EN high. 1 bit. 19 R618. Reset: high. -/
  vcEn : Bool
  /-- THE MODEL'S OWN: number of free values taken so far. Reset: 0. DESIGN CHOICE 0 (log 2). -/
  free : Nat
  /-- THE MODEL'S OWN: commands that are waiting, first in, first out. Reset: empty. -/
  pending : List Instr
  deriving DecidableEq, Repr

/-- No row of the table stops the block: every effect the spec gives is state. The one fault is kept for a state that
no rule of the spec describes. -/
inductive Fault where
  /-- Raised by no meaning. Safe: it only stops. -/
  | noRule
  deriving DecidableEq, Repr

/-- Why a command is turned away by the model. -/
inductive Refusal where
  /-- An arm of exec whose meaning has not been written. Safe: it only stops. -/
  | notModelled (mnemonic : String)
  deriving DecidableEq, Repr

/-! ### The state after reset -/

/-- One value for both axes. -/
def Pair.both {α : Type} (x : α) : Pair α := { a := x, b := x }

/-- One value for all three phases. -/
def Tri.all {α : Type} (x : α) : Tri α := { u := x, v := x, w := x }

/-- A session that is not open (R548). -/
def Session.closed : Session :=
  { isOpen := false, machine := true, echo := false, auto := false, level := .user, subs := 0, part := [], skip := none,
    badByte := false, esc := 0, lastCr := false, charAt := 0, waiting := [], running := none, doneAt := 0, cancel := false, out := [],
    held := [], notices := [], lost := 0, staging := [], stored := none, data := false, lastSeq := -1, lines := 0, errs := 0, chal := none,
    bundle := none, clearWin := .both none, latSnap := .both (none, none), rxSnap := [], recSnap := .both none,
    lineAt := 0, peer := none, restartDue := none }

/-- Session H as a reset of Aster leaves it (R627). -/
def Session.host : Session :=
  { Session.closed with isOpen := true, machine := false, echo := true, auto := true, subs := 3 }

/-- A half-bridge held off (R271). -/
def Leg.reset : Leg :=
  { hi := false, lo := false, clampHi := true, clampLo := true, stepHi := 8, stepLo := 8, passive := false, cls := .low,
    flat := false, tail := 0, bstLow := false, btLow := false, blank := false, blankN := 0, en := false, pls := false }

/-- No *release* yet. -/
def Release.zero : Release := { since := 0, i := 0, t := 0, soft := 0, low := false }

/-- An axis of Peony after a reset of its core (R623). The effective values are those of a cleared staged area in band
B0 (log 6). -/
def PAxis.reset : PAxis :=
  { latch := .free, cmd := 0, duty := .all 0, hasDuty := false, leg := .all Leg.reset, vgdHold := false,
    band := 0, dead := 12, stepOn := 0, stepOff := 0, diag := 0, diagClk := 0, diagH := [], rel := .zero }

/-- The analog side of Peony before its first conversion (log 5). -/
def PAnalog.reset : PAnalog :=
  { aux := List.replicate 8 0, conv := List.replicate 16 0, rot := 0, vmH := List.replicate 8 0,
    vgdH := List.replicate 8 0, batH := List.replicate 8 0, chgH := List.replicate 8 0, ntcH := List.replicate 8 0,
    tmuxH := 0, uvlo := true, ov := false, vgdLow := false, cmps := 0, busBlank := false, busBlankN := 0, ts := List.replicate 6 0xFFFF,
    b5 := List.replicate 6 false, pcnt := 0, pcntLat := 0, chgStop := [], buck := false, iTarget := 0, needRun := false, tmuxA := 0 }

/-- The island with the thresholds of R270. -/
def Island.reset : Island :=
  { gbrk := false, brkOn := 3300, brkOff := 3150, slew := 8, brkStep := 8, brkClamp := false, brkPassive := true, batfet := false, store := [], valid := false }

/-- Peony after its own power-on (R623). -/
def Peony.reset : Peony :=
  { powered := true, nck := false, linked := false, fresh := true, tick := 0, hdrP := 4000, trim := 0, wrow := none, active := [],
    shadow := [], runtime := [], configured := false, setp := false, staging := false, rejected := false, armed := none,
    held := [], gapRun := 0, gotDown := false, downSeq := 0, rx := none, reply := none, gapFired := false, utSeq := 0, ucSeq := 0,
    ut := .idle, uc := .idle, recs := [], tickRecs := [], dseq := 0, flt := false, faults := [], downIn := 0,
    ax := .both PAxis.reset, an := PAnalog.reset, isl := Island.reset }

/-- The word OFF (Table 3-8). -/
def GateWord.off : GateWord := { cmd := 0, du := 0, dv := 0, dw := 0 }

/-- The loop engine's state of one axis after a reset of Aster. -/
def AxLoop.reset : AxLoop :=
  { st := .disarmed, since := 0, hand := none, grpHand := none, wantDiag := false, diagRun := false, diagWord := 0, diagPass := none, relAt := none,
    disarming := false, word := .off, i := .all 0, valid := .all true, id := 0, iq := 0, obsMade := false, curMade := false, intD := 0, intQ := 0,
    v := .all 0, iPrev := .all 0, iCmd := .all 0, posPrev := none, lockAt := none, angle := 0, bnd := none, bndStep := 0, bndAt := 0, offRt := none, offWait := false, obs := 0,
    openLoop := none, sumRun := 0, resid := .all 0, senseDue := none, senseTick := none, failed := .none, openRun := .all { ticks := 0, since := 0 },
    openPh := none, degr := .none, degrAt := 0, holdDue := .none, stallAt := none, cal := none }

/-- An empty latch record. -/
def LatchRec.zero : LatchRec := { pos := 0, wrap := 0, etime := 0, frac := 0, tick := 0, count := 0, full := false, made := false }

/-- The position front end after a reset of Aster (R323, R339). -/
def AxPos.reset : AxPos :=
  { pos := 0, wrap := 0, valid := false, qa := false, qb := false, qz := false, latPin := (false, false), hall := 0, lastCnt := none, turned := false,
    hit := false, winTicks := 0, winPos := 0, winPe := 0, winTe := 0, closed := none, speed := 0, speedCnt := 0,
    fast := false, phi := none, idxRun := 0, idxErr := none, idxBad := false,
    lat := ({ rcd := .zero, armed := true }, { rcd := .zero, armed := true }), latWait := [] }

/-- The motion state after a reset of Aster (R397, R730). -/
def AxMot.reset : AxMot :=
  { st := .idle, result := .none, prof := none, copy := none, segBuf := [], seg := 0, ref := 0, vref := 0, aref := 0, start := 0,
    target := 0, pos := true, revTo := 0, revBack := false, aborting := false, intV := 0, iqRef := 0, est := 0, lim := 0, forceMade := false,
    overN := 0, obsDue := none, obsTick := none, entry := false, homeAt := none, endFound := false, pushAt := none, pushEnd := none, pushPos := true, pushHold := false, cur := none,
    recs := [], ops := (0, false), grp := false, follow := none, envBlk := [], learn := none }

/-- The sin/cos channel after a reset of Aster. -/
def SinCos.reset : SinCos :=
  { last := 0, ext := 0, fused := 0, have_ := false, amp := none, outRun := 0, qRun := 0, bad := false, samp := 0, at_ := 0 }

/-- A sensor before its first count. -/
def Sensor.reset : Sensor :=
  { cnt := none, raw := none, eff := none, band := none, suspect := false, dev := 0, agree := 0, due := false, med := none,
    trim := none, b5 := false, evals := 0, hot := true }

/-- Thermal banding before its first evaluation. -/
def Temp.reset : Temp :=
  { ts := List.replicate 8 Sensor.reset, zone := List.replicate 6 none, sent := .both none }

/-- The charger state machine after a reset of Aster. -/
def Charger.reset : Charger :=
  { st := .off, kept := .off, reason := .none, qualify := true, tSafety := 0, tPre := 0, tReturn := 0, tAbsorb := 0,
    tRestart := 0, tVin := 0, tBackup := 0, tLimit := 0, clampMs := [], tBulk := 0, temps := [], slopes := 0,
    vset := none, tbat := none, sent := none, sentMs := 0,
    regenAcc := 0, chem := 0 }

/-- FRAM that nothing has written (log 7). -/
def Fram.blank : Fram :=
  { present := true, slot0 := none, slot1 := none, journal := [], ring := [], hdr0 := none, hdr1 := none, otp := some [],
    intent := none, tries := 0, lockout := none, ops := .both (0, false), prof := [], env := [],
    envValid := .both false, envSlot := .both 0, rb0 := none, rb1 := none, queue := [], cur := none }

/-- The log path with no header copy valid (R653). -/
def LogState.reset : LogState :=
  { queue := [], hold := [], next := 1, dseq := 0, head := 0, since := 0, pinFull := false, saidOver := false,
    saidPin := false, merged := none, base := 0, upTo := none, forced := none, await := [], vlog := [], vseq := 1 }

/-- OTP with nothing burned (R559). -/
def Otp.blank : Otp :=
  { array := [], copies := .all 0, wrow := 0, marks := [], sensed := [], parity := [], sticky := 0, run := none }

/-- The link before its first training (R623). -/
def ALink.reset : ALink :=
  { up := false, utSeq := 0, ucSeq := 0, downSeq := 0, down := none, downRetry := false, downLost := false,
    gotUt := false, gotUc := false, done := false, overRun := 0, overNow := false, overStop := false, clk := 4000, trim := 0,
    trimTo := 0, band := .both 0, bandTo := .both 0, words := .both .off, wordsTo := .both .off, elapsed := 1, gapRun := 0, gapFired := false,
    gapAfter := none, goodRun := 0, utAt := 0, back := 0, bst := 0, bstSeen := false, setp := false, bst4 := 0,
    tel := List.replicate 8 none, aux := [], conv := [], cmps := 0, rot := 0, five := false, fifth := none, utBad := false, busI := 0, control := [], ctlOpen := false, abort := false, clear := 0, clearN := none,
    held := true, freed := false, flt := false, low := true, lowAt := 0, outside := false, off := false, rests := 0, mark := none, tries := 0,
    retrain := false, lostTries := 0, needLoad := false, hdrOk := false, hdrs := 0, tap := none }

/-- The bus engine after a reset of Aster (R528, R532). -/
def Bus.reset : Bus :=
  { st := .off, node := 0, cycle := 0, cycled := false, ran := false, cfg := [], lock := 0, miss := 0, interval := none, comp := 0, actAt := 0,
    stopping := false,
    tx := List.replicate 4 { words := List.replicate 8 0, back := List.replicate 8 0, fresh := false, age := 255 },
    rx := List.replicate 8 { words := List.replicate 8 0, age := 0, cnt := 0, got := false, made := false,
                             stale := false,
                             view := { words := List.replicate 8 0, age := 0, cnt := 0, made := false } },
    hearing := 0, heard := none, sent := [], own := none, gseq := none, due := [], ready := [], tun := [], turn := 0, alignE := none,
    alignC := 0, saidCollide := none, saidHash := none }

/-- The power state after a reset of Aster. -/
def Power.reset : Power :=
  { step := .awake, watch := false, banks := 0, mask := 0, period := 0, timer := 0, lpoOn := true, confirm := 1, src := 0, hdr := false, iso := false, abort := none,
    woken := 0, refHall := .both 0, refQuad := .both 0, fails := List.replicate 6 0, noRsp := 0, batLow := false,
    watchRec := 0, wakeSrc := 0, es := 0, lpo := 0, em := 0, lpoHz := none, sleepUs := 0, unc := 0, disc := false,
    vcore := none, pmbus := 0, vcoreFail := none, xtal := false, lpoXtal := false, sensEn := false, bias := false, reverse := false,
    assist := 0, isoCore := false, isoLate := false, edge := 0, wakePin := 0, wreq := [], pmAddr := 0, pmSeq := [], images := 0 }

/-- The host core after a reset of Aster. -/
def HostCore.reset : HostCore :=
  { turn := 0, restart := none, stopped := false, cause := none, waiters := [], bit := 694, resetting := false, cts := false, shifting := false,
    rts := true, deaf := true, mPeak := 0, crossed := none, blockRate := none, selA := 0, selD := 0, tmuxSent := 0 }

/-- The parameters with nothing persisted (R201). -/
def Params.reset : Params :=
  { now := [], boot := [], gen := 0, fram := false, unsaved := false, locks := [] }

/-- The machine right after a power-on reset, before the internal reset is released (R618, R622, R625): VIO in range,
ETIME 0, NCK stopped, FLT_L and FLT_N low, VC_EN high, the device in BOOT. -/
def State.reset : State :=
  { dev := .boot, cause := .por, safe := 0, boot := .held, resetAt := 0, bootAt := 0, bootTime := 0, mode := false, strap := 0,
    inReset := true, ticking := false, first := false, tick := 0, mtick := 0, acc := 0, msDue := false, ringDue := 0, etime := 0, etFrac := 0,
    bounds := [], eclk := 0,
    sess := { h := .host, t1 := .closed, t2 := .closed, t3 := .closed, t4 := .closed },
    host := .reset, prm := .reset, commit := none, link := .reset, pe := .reset, loop := .both .reset,
    pos := .both .reset, mot := .both .reset, sc := .reset, temp := .reset, chg := .reset, fram := .blank,
    log := .reset, otp := .blank, bus := .reset, pwr := .reset, faults := [], cnt := [], bundleWhy := none,
    bundleTick := none, tries := 0, lockAt := none, fltN := true, vcEn := true, free := 0, pending := [] }

end Sys2Proof.Machine
end

