-- ==== Sys2Proof/Machine/ParamTable.lean ====
section
/-! DEFINITION. The parameters of the 6240: name, ID, type, unit, range, default, access and effect class of each, from
the parameter tables of the chapters, with the encoding of chapter 24 (R722-R729). Values are whole steps of the
resolution (R724). Types that no table states are those of R724 and R657 (log 10). -/

namespace Sys2Proof.Machine

/-- Types of Table 6-1 with the widths of R724. A fix has the resolution num / 10^k in its own unit. -/
inductive PKind where
  | int (bits : Nat) (signed : Bool)
  | u48
  | fix (num k : Nat)
  | enum (words : List String)
  | bool
  | mask (n : Nat)
  | text (n : Nat)
  deriving DecidableEq, Repr

/-- The unit a parameter is written in: a prefix and a symbol of Table 5-3 (R145, R150). -/
structure PUnit where
  pre : String
  sym : String
  deriving DecidableEq, Repr

/-- Effect classes (Table 6-2); `tmux` marks the two parameters that only the `tmux` command applies (R663). -/
inductive Eff where
  | now | switch | idle | line | reset | tmux
  deriving DecidableEq, Repr

/-- A parameter (Table 6-1). -/
structure Par where
  id    : Nat
  name  : String
  kind  : PKind
  unit  : PUnit
  lo    : Int
  hi    : Int
  dflt  : Int
  /-- write level; none for a read-only parameter. -/
  write : Option Level
  eff   : Eff
  /-- not persisted. -/
  vol   : Bool
  deriving DecidableEq, Repr

/-- Units. -/
def uNone : PUnit := ⟨"", ""⟩
def uA : PUnit := ⟨"", "A"⟩
def umA : PUnit := ⟨"m", "A"⟩
def uV : PUnit := ⟨"", "V"⟩
def umV : PUnit := ⟨"m", "V"⟩
def uOhm : PUnit := ⟨"", "Ohm"⟩
def umOhm : PUnit := ⟨"m", "Ohm"⟩
def uHz : PUnit := ⟨"", "Hz"⟩
def uS : PUnit := ⟨"", "s"⟩
def umS : PUnit := ⟨"m", "s"⟩
def uuS : PUnit := ⟨"u", "s"⟩
def unS : PUnit := ⟨"n", "s"⟩
def uTk : PUnit := ⟨"", "tk"⟩
def uC : PUnit := ⟨"", "C"⟩
def uPct : PUnit := ⟨"", "%"⟩
def uCnt : PUnit := ⟨"", "cnt"⟩
def uCps : PUnit := ⟨"", "cnt/s"⟩
def uB : PUnit := ⟨"", "B"⟩

/-- The integer type of a range: the smallest of 8, 16 and 32 bits that holds it, unsigned unless it holds a negative
value (R724). -/
def intOf (lo hi : Int) : PKind :=
  if lo < 0 then
    if -128 ≤ lo ∧ hi ≤ 127 then .int 8 true else if -32768 ≤ lo ∧ hi ≤ 32767 then .int 16 true else .int 32 true
  else if hi ≤ 255 then .int 8 false else if hi ≤ 65535 then .int 16 false else .int 32 false

/-- A writable parameter of write level INSTALLER, persisted. -/
def pw (id : Nat) (name : String) (kind : PKind) (unit : PUnit) (lo hi dflt : Int) (eff : Eff) : Par :=
  { id, name, kind, unit, lo, hi, dflt, write := some .installer, eff, vol := false }

/-- An integer. -/
def pInt (id : Nat) (name : String) (unit : PUnit) (lo hi dflt : Int) (eff : Eff) : Par :=
  pw id name (intOf lo hi) unit lo hi dflt eff

/-- An enumeration; its code is the position of the word (R725). -/
def pEnum (id : Nat) (name : String) (ws : List String) (dflt : Int) (eff : Eff) : Par :=
  pw id name (.enum ws) uNone 0 (ws.length - 1 : Nat) dflt eff

/-- A bool. -/
def pBool (id : Nat) (name : String) (dflt : Int) (eff : Eff) : Par := pw id name .bool uNone 0 1 dflt eff

/-- A mask of n bits. -/
def pMask (id : Nat) (name : String) (n : Nat) (dflt : Int) (eff : Eff) : Par :=
  pw id name (.mask n) uNone 0 (2 ^ n - 1) dflt eff

/-- A read-only parameter, volatile. -/
def ro (id : Nat) (name : String) (kind : PKind) (unit : PUnit) : Par :=
  { id, name, kind, unit, lo := 0, hi := 0, dflt := 0, write := none, eff := .now, vol := true }

/-- A 16-bit counter (R657). -/
def cnt16 (id : Nat) (name : String) : Par := ro id name (.int 16 false) uNone

/-- A 32-bit counter. -/
def cnt32 (id : Nat) (name : String) : Par := ro id name (.int 32 false) uNone

/-- The same parameter with another write level. -/
def Par.by (p : Par) (l : Level) : Par := { p with write := some l }

/-- The same parameter, volatile. -/
def Par.volatile (p : Par) : Par := { p with vol := true }

/-! ### Word lists (R725) -/

/-- Table 11-1. -/
def commWords : List String := ["off", "hall_block", "hall_sine", "foc", "sensorless", "direct"]

/-- Table 10-4, `off` first (R337). -/
def latWords : List String := ["off", "pin_rise", "pin_fall", "pin_both", "index", "hall", "action"]

/-- Table 11-3 and MOVING. -/
def stateWords : List String :=
  ["DISARMED", "DIAG", "WAIT", "PRECHARGE", "START", "CATCH", "READY", "MOVING", "LATCHED"]

/-- Table 12-5. -/
def motWords : List String := ["IDLE", "HOLD", "RUN", "STOPPING", "REVERSING", "ASSIST"]

/-- R397. -/
def resultWords : List String := ["none", "done", "homed", "endstop", "stopped", "reversed", "aborted", "fault"]

/-- Table 13-2: bands. -/
def bandWords : List String := ["b0", "b1", "b2", "b3", "b4", "b5"]

/-- Table 14-4, in lower case (R131, R466). -/
def chgWords : List String :=
  ["off", "pre", "bulk", "absorb", "float", "trickle", "done", "pause", "backup", "error"]

/-- The reasons of Tables 14-4 and 14-5, `-` first (R466). -/
def reasonWords : List String :=
  ["-", "config", "no_bat", "ntc", "temp", "vin", "link", "pre_to", "timer", "bat_ov"]

/-- Table 16-4, in lower case (R131). -/
def busWords : List String := ["off", "master", "listen", "hash", "locking", "sync", "badid"]

/-- Table 21-1, `off` first (R663). -/
def tmuxAWords : List String :=
  ["off", "agnd", "vbg", "vref_half", "vm", "vgd", "bat", "ntc", "chg_i", "amp_au", "amp_av", "amp_aw", "amp_bu",
   "amp_bv", "amp_bw", "amp_bus", "term_au", "term_av", "term_aw", "term_bu", "term_bv", "term_bw", "sin", "cos",
   "scdac_a", "scdac_b", "scdac_bus", "island", "pcore", "chg_iset", "vgd_ref", "bemf_dac", "spare"]

/-- Table 21-2, `off` first (R663); codes 55 to 63 share the last word. -/
def tmuxDWords : List String :=
  ["off", "low", "high", "nck_div8", "reload", "mtick", "centre", "le_busy", "m_active", "uc_ok", "down_ack", "gap",
   "flt_l", "overrun", "lpo", "ref_div8", "pll_lock", "qa_a", "qb_a", "qz_a", "hu_a", "hv_a", "hw_a", "qa_b", "qb_b",
   "qz_b", "hu_b", "hv_b", "hw_b", "lat_a", "lat_b", "action", "csf", "ude", "urx", "fram_busy", "logq", "param",
   "commit", "otp_pulse", "wdg", "hwin_au", "hwin_av", "hwin_aw", "hwin_bu", "hwin_bv", "hwin_bw", "latch_a",
   "latch_b", "safe", "flt_n", "irq_n", "txd", "rxd", "scl", "sda", "spare"]

/-! ### The axis block (Table 24-2) -/

/-- IDs 0x020-0x07F: commutation, start-up, current loops, gates and sensing (Tables 11-10, 9-1, 13-7; R247-R261). -/
def axPars1 : List Par :=
  [ pEnum 0x020 "comm.mode" commWords 0 .idle,
    pInt 0x021 "motor.pp" uNone 1 32 4 .idle,
    pw 0x022 "motor.rs" (.fix 1 3) uOhm 10 50000 500 .now,
    pw 0x023 "motor.ls" (.fix 1 0) uNone 1 100000 400 .now,
    pw 0x024 "motor.ke" (.fix 1 2) uNone 10 200000 3000 .now,
    pInt 0x026 "comm.hall_ang0" uNone 0 65535 0 .idle,
    pInt 0x027 "comm.hall_ang1" uNone 0 65535 10923 .idle,
    pInt 0x028 "comm.hall_ang2" uNone 0 65535 21845 .idle,
    pInt 0x029 "comm.hall_ang3" uNone 0 65535 32768 .idle,
    pInt 0x02A "comm.hall_ang4" uNone 0 65535 43691 .idle,
    pInt 0x02B "comm.hall_ang5" uNone 0 65535 54613 .idle,
    pEnum 0x02C "start.angle" ["hall", "align"] 0 .now,
    pBool 0x030 "start.catch" 1 .now,
    pw 0x031 "start.diag_age" (.fix 1 0) uS 0 600 60 .now,
    pw 0x032 "start.still_to" (.fix 1 0) umS 100 10000 2000 .now,
    pw 0x033 "start.align_i" (.fix 1 2) uA 0 3000 200 .now,
    pw 0x034 "start.align_t" (.fix 1 0) umS 10 2000 200 .now,
    pw 0x035 "sl.ol_i" (.fix 1 2) uA 0 3000 300 .now,
    pw 0x036 "sl.ol_t" (.fix 1 0) umS 50 5000 500 .now,
    pw 0x037 "sl.handover" (.fix 1 1) uHz 10 2000 200 .now,
    pw 0x038 "sl.bw" (.fix 1 0) uHz 10 2000 200 .now,
    pw 0x039 "sl.start_t" (.fix 1 0) umS 100 10000 2000 .now,
    (pw 0x040 "cur.limit" (.fix 1 3) uA 0 30000 5000 .now).by .user,
    pw 0x041 "cur.kp" (.fix 1 3) uOhm 0 100000 500 .now,
    pw 0x042 "cur.ti" (.fix 1 0) uuS 50 100000 1000 .now,
    pw 0x043 "cur.mod_max" (.fix 1 0) uPct 50 100 95 .now,
    (pw 0x044 "cur.hold" (.fix 1 3) uA 0 30000 500 .now).by .user,
    pw 0x048 "stall.i_frac" (.fix 1 0) uPct 50 100 90 .now,
    pw 0x049 "stall.speed" (.fix 1 0) uCps 0 100000 200 .now,
    pw 0x04A "stall.t" (.fix 1 0) umS 20 5000 300 .now,
    pw 0x04C "degr.t" (.fix 1 1) uS 10 600 100 .now,
    pw 0x060 "gate.dead" (.fix 125 1) unS 4 256 20 .switch,
    pInt 0x061 "gate.slew_on" uNone 1 8 6 .switch,
    pInt 0x062 "gate.slew_off" uNone 1 8 8 .switch,
    pw 0x063 "gate.min_on" (.fix 125 1) unS 0 80 8 .switch,
    pw 0x064 "gate.dmarg.b0" (.fix 125 1) unS 0 40 4 .switch,
    pw 0x065 "gate.dmarg.b1" (.fix 125 1) unS 0 40 0 .switch,
    pw 0x066 "gate.dmarg.b2" (.fix 125 1) unS 0 40 0 .switch,
    pw 0x067 "gate.dmarg.b3" (.fix 125 1) unS 0 40 2 .switch,
    pw 0x068 "gate.dmarg.b4" (.fix 125 1) unS 0 40 4 .switch,
    pw 0x069 "gate.precharge" (.fix 1 1) umS 0 200 10 .now,
    pEnum 0x070 "sense.gain" ["5", "10", "20", "40"] 2 .idle,
    pw 0x071 "sense.shunt" (.fix 1 2) umOhm 10 10000 200 .idle,
    pw 0x072 "sense.sum_lim" (.fix 1 2) uA 10 2000 150 .now,
    pEnum 0x073 "sense.fail_act" ["recon", "stop"] 0 .now,
    pInt 0x074 "sense.off_u" uCnt (-64) 64 0 .now,
    pInt 0x075 "sense.off_v" uCnt (-64) 64 0 .now,
    pInt 0x076 "sense.off_w" uCnt (-64) 64 0 .now,
    pw 0x078 "phase.open_i" (.fix 1 2) uA 5 500 30 .now,
    pEnum 0x079 "phase.open_act" ["stop", "limp"] 0 .now,
    pw 0x07A "sense.smarg.b0" (.fix 125 1) unS 0 80 12 .now,
    pw 0x07B "sense.smarg.b1" (.fix 125 1) unS 0 80 0 .now,
    pw 0x07C "sense.smarg.b2" (.fix 125 1) unS 0 80 0 .now,
    pw 0x07D "sense.smarg.b3" (.fix 125 1) unS 0 80 8 .now,
    pw 0x07E "sense.smarg.b4" (.fix 125 1) unS 0 80 20 .now ]

/-- IDs 0x080-0x0FF: protection, position and commutation status (Tables 9-1, 10-5, 11-10). -/
def axPars2 : List Par :=
  [ pw 0x080 "prot.sc_v" (.fix 5 0) umV 1 64 20 .switch,
    pw 0x081 "prot.hard_mult" (.fix 5 1) uNone 3 6 4 .switch,
    pw 0x082 "prot.sc_blank" (.fix 125 1) unS 8 240 60 .switch,
    pEnum 0x0A0 "fb.src" ["none", "enc", "hall"] 1 .idle,
    pBool 0x0A1 "fb.dir" 0 .idle,
    pInt 0x0A2 "enc.filt" uNone 1 255 4 .now,
    pInt 0x0A3 "enc.lines" uNone 1 65535 1024 .idle,
    pEnum 0x0A4 "enc.idx" ["off", "check"] 0 .now,
    pEnum 0x0A5 "enc.idx_gate" ["none", "ab"] 1 .now,
    pInt 0x0A6 "enc.idx_tol" uCnt 0 255 2 .now,
    pInt 0x0A7 "enc.idx_lim" uNone 1 16 2 .now,
    pInt 0x0A8 "hall.filt" uNone 1 255 200 .now,
    (pInt 0x0A9 "speed.win" uTk 1 4096 20 .now).by .user,
    (pEnum 0x0AA "speed.mode" ["count", "period"] 0 .now).by .user,
    (pInt 0x0AB "lat.filt" uNone 1 255 8 .now).by .user,
    (pEnum 0x0AC "lat0.src" latWords 0 .now).by .user,
    (pEnum 0x0AD "lat0.mode" ["first", "last"] 0 .now).by .user,
    ((pBool 0x0AE "lat0.arm" 0 .now).by .user).volatile,
    (pEnum 0x0AF "lat1.src" latWords 0 .now).by .user,
    (pEnum 0x0B0 "lat1.mode" ["first", "last"] 0 .now).by .user,
    ((pBool 0x0B1 "lat1.arm" 0 .now).by .user).volatile,
    (pw 0x0B2 "pos.load" (.int 32 true) uCnt (-2147483648) 2147483647 0 .now).volatile,
    ro 0x0C0 "pos" (.int 32 true) uCnt,
    ro 0x0C1 "pos.wrap" (.int 16 true) uNone,
    ro 0x0C2 "pos.valid" .bool uNone,
    ro 0x0C3 "speed" (.fix 1 1) uCps,
    ro 0x0C4 "speed.cnt" (.int 32 true) uCnt,
    ro 0x0C5 "hall.state" (.int 8 false) uNone,
    cnt16 0x0C6 "enc.illegal",
    cnt16 0x0C7 "enc.idx_err",
    cnt16 0x0C8 "hall.bad",
    ro 0x0D0 "lat0.pos" (.int 32 true) uCnt,
    ro 0x0D1 "lat0.wrap" (.int 16 true) uNone,
    ro 0x0D2 "lat0.etime" .u48 uuS,
    ro 0x0D3 "lat0.frac" (.fix 125 1) unS,
    ro 0x0D4 "lat0.tick" (.int 32 false) uTk,
    cnt16 0x0D5 "lat0.count",
    ro 0x0D6 "lat0.full" .bool uNone,
    ro 0x0D8 "lat1.pos" (.int 32 true) uCnt,
    ro 0x0D9 "lat1.wrap" (.int 16 true) uNone,
    ro 0x0DA "lat1.etime" .u48 uuS,
    ro 0x0DB "lat1.frac" (.fix 125 1) unS,
    ro 0x0DC "lat1.tick" (.int 32 false) uTk,
    cnt16 0x0DD "lat1.count",
    ro 0x0DE "lat1.full" .bool uNone,
    pw 0x0E0 "cal.align_i" (.fix 1 2) uA 10 3000 200 .now,
    pInt 0x0E1 "cal.align_rev" uNone 1 8 2 .now,
    ro 0x0F0 "obs.speed" (.fix 1 1) uCps,
    ro 0x0F2 "cur.id" (.fix 1 3) uA,
    ro 0x0F3 "cur.iq" (.fix 1 3) uA,
    ro 0x0F4 "state" (.enum stateWords) uNone,
    ro 0x0F5 "sense.failed" (.enum ["none", "u", "v", "w", "unknown"]) uNone,
    ro 0x0F6 "phase.open" (.enum ["none", "u", "v", "w"]) uNone,
    ro 0x0F7 "comm.off_rt" (.int 32 true) uCnt ]

/-- The fields of one profile (Table 12-1). -/
def profPars (p : Nat) : List Par :=
  let b := 0x100 + 0x10 * p
  let n (f : String) : String := "prof" ++ Nat.repr p ++ "." ++ f
  [ pEnum b (n "kind") ["none", "move", "home"] 0 .now,
    pw (b + 1) (n "target") (.int 32 true) uCnt (-2147483648) 2147483647 0 .now,
    pw (b + 2) (n "vmax") (.fix 1 0) uCps 1 20000000 20000 .now,
    pw (b + 3) (n "acc") (.fix 1 0) uNone 100 100000000 100000 .now,
    pw (b + 4) (n "dec") (.fix 1 0) uNone 100 100000000 100000 .now,
    pw (b + 5) (n "creep_v") (.fix 1 0) uCps (-1000000) 1000000 2000 .now,
    pInt (b + 6) (n "creep_d") uCnt 0 10000000 2000 .now,
    pInt (b + 7) (n "end_zone") uCnt 0 100000 500 .now,
    pBool (b + 8) (n "hold") 1 .now,
    pEnum (b + 9) (n "react") ["stop", "reverse"] 1 .now,
    pBool (b + 10) (n "count") 0 .now ]

/-- IDs 0x180-0x1DF: motion, force, envelopes, coupling and assist (Table 12-7). -/
def axPars3 : List Par :=
  [ pw 0x180 "mot.kp" (.fix 1 1) uNone 10 10000 300 .now,
    pw 0x181 "mot.kv" (.fix 1 3) uNone 0 1000000 200 .now,
    pw 0x182 "mot.tiv" (.fix 1 1) umS 10 100000 200 .now,
    pw 0x183 "mot.stop_dec" (.fix 1 0) uNone 100 100000000 200000 .now,
    ro 0x188 "mot.state" (.enum motWords) uNone,
    ro 0x189 "mot.prof" (.int 32 true) uNone,
    ro 0x18A "mot.seg" (.int 32 true) uNone,
    ro 0x18B "mot.vlim" (.fix 1 0) uCps,
    ro 0x18C "ops" (.int 32 false) uNone,
    ro 0x18D "ops.sat" .bool uNone,
    ro 0x18E "mot.result" (.enum resultWords) uNone,
    (pw 0x190 "force.thr" (.fix 1 2) uA 10 3000 400 .now).by .user,
    pw 0x191 "force.margin" (.fix 1 2) uA 0 1000 80 .now,
    pw 0x192 "force.j" (.fix 1 3) uNone 0 1000000 0 .now,
    pw 0x193 "force.b" (.fix 1 3) uNone 0 1000000 0 .now,
    pw 0x194 "force.rev_dec" (.fix 1 0) uNone 100 100000000 2000000 .now,
    pInt 0x195 "force.rev_dist" uCnt 0 10000000 0 .now,
    pw 0x196 "force.home_thr" (.fix 1 2) uA 10 3000 200 .now,
    ro 0x198 "force.est" (.fix 1 3) uA,
    ro 0x199 "force.lim" (.fix 1 3) uA,
    pw 0x1A0 "env.origin" (.int 32 true) uCnt (-2147483648) 2147483647 0 .now,
    pInt 0x1A1 "env.bin" uCnt 1 4096 16 .now,
    pBool 0x1A2 "env.use" 1 .now,
    pInt 0x1A3 "learn.open" uNone 0 7 0 .now,
    pInt 0x1A4 "learn.close" uNone 0 7 1 .now,
    pInt 0x1A5 "learn.passes" uNone 1 4 2 .now,
    ro 0x1A8 "env.valid" .bool uNone,
    ro 0x1A9 "env.slot" (.int 32 true) uNone,
    ro 0x1AA "env.bins" (.int 32 true) uNone,
    pEnum 0x1B0 "cpl.mode" ["off", "follow"] 0 .idle,
    pw 0x1B1 "cpl.lag_pos" (.fix 1 0) umS (-4000) 4000 0 .now,
    pw 0x1B2 "cpl.lag_neg" (.fix 1 0) umS (-4000) 4000 0 .now,
    pEnum 0x1C0 "assist.mode" ["off", "assist", "go"] 0 .now,
    pw 0x1C1 "assist.thr" (.fix 1 2) uA 10 1000 100 .now,
    pw 0x1C2 "assist.speed" (.fix 1 0) uCps 10 100000 500 .now,
    pw 0x1C3 "assist.t" (.fix 1 0) umS 20 2000 100 .now,
    pw 0x1C4 "assist.i" (.fix 1 2) uA 0 3000 100 .now,
    pw 0x1C5 "assist.vmax" (.fix 1 0) uCps 100 1000000 20000 .now,
    pInt 0x1C6 "assist.prof_pos" uNone 0 7 0 .now,
    pInt 0x1C7 "assist.prof_neg" uNone 0 7 1 .now ]

/-- The fields of one motion record (Table 24-7). -/
def recPars (r : Nat) : List Par :=
  let b := 0xE00 + 0x10 * r
  let n (f : String) : String := "rec." ++ Nat.repr r ++ "." ++ f
  [ ro b (n "prof") (.int 8 false) uNone,
    ro (b + 1) (n "result") (.enum resultWords) uNone,
    ro (b + 2) (n "tick") (.int 32 false) uTk,
    ro (b + 3) (n "etime") .u48 uuS,
    ro (b + 4) (n "dur") (.fix 1 0) umS,
    ro (b + 5) (n "dist") (.int 32 true) uCnt,
    ro (b + 6) (n "f_max") (.fix 1 0) umA,
    ro (b + 7) (n "margin_min") (.fix 1 0) umA,
    ro (b + 8) (n "i_max") (.fix 1 0) umA,
    ro (b + 9) (n "end_pos") (.int 32 true) uCnt ]

/-- Log kinds of Table 20-2 and the names of their counters (R732). -/
def kindNames : List (Nat × String) :=
  [ (0x01, "s_sc_leg"), (0x02, "s_sc_hard"), (0x03, "e_ov"), (0x04, "e_ot"), (0x05, "e_link_gap"),
    (0x06, "e_link_gap_clk"), (0x07, "e_stall"), (0x08, "e_obstruct"), (0x09, "e_phase_open"), (0x0A, "e_sense"),
    (0x0B, "e_enc_idx"), (0x0C, "e_sincos_amp"), (0x0D, "e_overrun"), (0x0E, "e_ts_suspect"), (0x0F, "flt_peony"),
    (0x1F, "queue_lost"), (0x20, "clear"), (0x21, "commit"), (0x22, "boot"), (0x23, "safe"), (0x24, "sleep_abort"),
    (0x25, "time_disc"), (0x26, "vcore_fail"), (0x27, "xtal_fail"), (0x28, "image_fail"), (0x29, "restart"),
    (0x30, "sense_recon"), (0x31, "phase_limp"), (0x32, "obstruct_rev"), (0x33, "learn_done"), (0x34, "assist"),
    (0x35, "ops_sat"), (0x36, "grp_fail"), (0x38, "chg"), (0x39, "ts_xchk"), (0x3A, "ts_untrimmed"),
    (0x40, "bt_low"), (0x41, "vgd_low"), (0x42, "vm_uvlo"), (0x48, "auth_fail"), (0x49, "bundle_fail"),
    (0x50, "otp_interrupt"), (0x51, "otp_table_lost"), (0x52, "cfg_lost"), (0x53, "cfg_range"), (0x54, "cfg_unsaved"),
    (0x5F, "log_restart") ]

/-- The kinds that axis counters count (R732). -/
def axisKind (k : Nat) : Bool := (1 ≤ k && k ≤ 0x0E) || (0x30 ≤ k && k ≤ 0x34)

/-- Event counters of an axis (R732). -/
def axCntPars : List Par :=
  (kindNames.filter fun p => axisKind p.1).map fun p => cnt16 (0xF00 + p.1) ("cnt." ++ p.2)

/-- The profile fields of an axis. -/
def axProfPars : List Par := (List.range 8).flatMap profPars

/-- The motion records of an axis. -/
def axRecPars : List Par := (List.range 16).flatMap recPars

/-- The axis block in ascending ID order, IDs and names without their root. -/
def axPars : List Par := axPars1 ++ axPars2 ++ axProfPars ++ axPars3 ++ axRecPars ++ axCntPars

/-- A parameter of the axis block on an axis (R178). -/
def onAxis (x : Axis) (p : Par) : Par := match x with
  | .a => { p with id := p.id + 0x1000, name := "axA." ++ p.name }
  | .b => { p with id := p.id + 0x2000, name := "axB." ++ p.name }

/-! ### Shared roots -/

/-- `sys.` (R148, R196, R205, R244, Tables 10-5 and 19-6). -/
def sysPars : List Par :=
  [ cnt16 0x0010 "sys.clamp_count",
    pw 0x0020 "sys.commit.window" (.fix 1 0) umS 10 500 50 .now,
    pMask 0x0030 "sys.lock.mask" 16 0 .now,
    pEnum 0x0040 "sys.gate.vgd_src" ["ext", "int"] 0 .idle,
    pEnum 0x0050 "sys.sincos.axis" ["none", "axA", "axB"] 0 .idle,
    pInt 0x0051 "sys.sincos.off_s" uCnt (-200) 200 0 .now,
    pInt 0x0052 "sys.sincos.off_c" uCnt (-200) 200 0 .now,
    pw 0x0053 "sys.sincos.amp_nom" (.fix 1 0) umV 200 1600 1000 .now,
    pw 0x0054 "sys.sincos.amp_tol" (.fix 1 0) uPct 5 80 40 .now,
    pInt 0x0055 "sys.sincos.amp_n" uTk 1 64 3 .now,
    pEnum 0x0056 "sys.sincos.hyst" ["10", "20", "40"] 1 .switch,
    ro 0x0058 "sys.sincos.amp" (.fix 1 0) umV,
    cnt16 0x0059 "sys.sincos.qerr",
    (pEnum 0x0060 "sys.clk.ref" ["rc", "x16", "x20", "x25"] 0 .reset).by .factory ]

/-- `lnk.` and `tick.` (R76, Table 19-6, R35, R47, R98). -/
def lnkPars : List Par :=
  [ (pInt 0x3000 "lnk.gap_limit" uNone 1 3 3 .switch).by .factory,
    (pInt 0x3010 "lnk.train.tries" uNone 1 16 4 .reset).by .factory,
    pw 0x3400 "tick.freq" (.int 32 false) uHz 8000 40000 20000 .idle,
    pBool 0x3401 "tick.pace" 1 .now,
    pInt 0x3402 "tick.adc.repeat" uNone 0 3 0 .switch ]

/-- `temp.` (Table 13-7). -/
def tempPars : List Par :=
  ((List.range 8).map fun n => ro (0x3800 + n) ("temp.ts" ++ Nat.repr n ++ ".c") (.fix 25 2) uC) ++
  ((List.range 8).map fun n => ro (0x3808 + n) ("temp.ts" ++ Nat.repr n ++ ".raw") (.fix 25 2) uC) ++
  ((List.range 8).map fun n => ro (0x3810 + n) ("temp.ts" ++ Nat.repr n ++ ".cnt") (.int 16 false) uNone) ++
  ((List.range 8).map fun n => ro (0x3818 + n) ("temp.ts" ++ Nat.repr n ++ ".suspect") .bool uNone) ++
  [ ro 0x3820 "temp.zda.band" (.enum bandWords) uNone,
    ro 0x3821 "temp.zdb.band" (.enum bandWords) uNone,
    ro 0x3822 "temp.zch.band" (.enum bandWords) uNone,
    ro 0x3823 "temp.zpc.band" (.enum bandWords) uNone,
    ro 0x3824 "temp.zac.band" (.enum bandWords) uNone,
    ro 0x3825 "temp.znv.band" (.enum bandWords) uNone,
    pEnum 0x3830 "temp.zac.mode" ["cross", "hot"] 0 .now,
    pEnum 0x3831 "temp.znv.mode" ["cross", "hot"] 0 .now,
    ro 0x3832 "temp.zda.mode" (.enum ["cross", "hot"]) uNone,
    ro 0x3833 "temp.zdb.mode" (.enum ["cross", "hot"]) uNone,
    ro 0x3834 "temp.zch.mode" (.enum ["cross", "hot"]) uNone,
    ro 0x3835 "temp.zpc.mode" (.enum ["cross", "hot"]) uNone,
    ro 0x3840 "temp.trimmed" .bool uNone,
    cnt16 0x3842 "temp.band_chg" ]

/-- `pwr.` (Table 15-12). -/
def pwrPars : List Par :=
  [ pMask 0x4000 "pwr.stop.banks" 4 3 .now,
    pMask 0x4001 "pwr.watch.banks" 4 3 .now,
    pBool 0x4002 "pwr.stop.lpo" 1 .now,
    pw 0x4003 "pwr.stop.timer" (.fix 1 0) uS 0 86400 0 .now,
    pEnum 0x4004 "pwr.lpo.src" ["rc", "xtal"] 0 .reset,
    pMask 0x4008 "pwr.wake.mask" 8 0x63 .now,
    pMask 0x4009 "pwr.wake.edge" 2 0 .now,
    pw 0x4010 "pwr.watch.period" (.fix 1 0) umS 20 2000 100 .now,
    pw 0x4011 "pwr.watch.settle" (.fix 10 0) uuS 2 200 20 .now,
    pMask 0x4012 "pwr.watch.src" 6 0x2D .switch,
    pInt 0x4013 "pwr.watch.confirm" uNone 1 4 1 .now,
    pw 0x4014 "pwr.watch.bemf" (.fix 20 0) umV 3 100 10 .switch,
    pw 0x4015 "pwr.watch.vlow" (.fix 1 1) uV 60 600 220 .switch,
    pw 0x4020 "pwr.vcore.run" (.fix 5 3) uV 170 200 180 .reset,
    pInt 0x4021 "pwr.pmbus.addr" uNone 0x08 0x77 0x40 .reset,
    pInt 0x4022 "pwr.pmbus.page" uNone 0 256 256 .reset,
    pInt 0x4023 "pwr.pmbus.exp" uNone (-16) (-1) (-12) .reset,
    cnt16 0x4040 "pwr.abort_count" ]

/-- `chg.` (Table 14-7). -/
def chgPars : List Par :=
  [ pEnum 0x4400 "chg.chem" ["none", "pba", "nimh", "lfp"] 0 .switch,
    pInt 0x4401 "chg.cells" uNone 1 30 12 .switch,
    pw 0x4402 "chg.rsense" (.fix 1 1) umOhm 167 5000 200 .switch,
    pw 0x4403 "chg.i_chg" (.fix 1 2) uA 5 300 100 .now,
    pw 0x4404 "chg.i_term" (.fix 1 2) uA 1 100 10 .now,
    pw 0x4405 "chg.i_trickle" (.fix 1 2) uA 0 50 5 .now,
    pw 0x4406 "chg.v_trim" (.fix 1 0) umV (-100) 50 0 .switch,
    pw 0x4407 "chg.comp" (.fix 1 1) uNone 0 60 30 .now,
    pw 0x4408 "chg.dtdt" (.fix 1 1) uNone 5 30 10 .now,
    pw 0x4409 "chg.t_max" (.fix 360 0) uS 10 480 120 .now,
    pw 0x440A "chg.t_pre" (.fix 60 0) uS 5 240 30 .now,
    pw 0x440B "chg.tmin" (.fix 25 2) uC (-80) 240 0 .now,
    pw 0x440C "chg.tmax" (.fix 25 2) uC (-80) 240 180 .now,
    pw 0x440D "chg.ntc_r25" (.fix 10 0) uOhm 100 10000 1000 .now,
    pInt 0x440E "chg.ntc_beta" uNone 2000 6000 3435 .now,
    pBool 0x440F "chg.enable" 1 .now,
    pw 0x4410 "chg.regen_v" (.fix 1 1) uV 100 740 560 .switch,
    pw 0x4411 "chg.regen_g" (.fix 1 1) uNone 1 100 10 .switch,
    pw 0x4412 "chg.i_regen" (.fix 1 2) uA 0 300 200 .switch,
    pw 0x4413 "chg.t_return" (.fix 1 1) uS 1 600 20 .now,
    ((pBool 0x4414 "chg.retry" 0 .now).by .user).volatile,
    ro 0x4415 "chg.i_max" (.fix 1 2) uA,
    ro 0x4480 "chg.state" (.enum chgWords) uNone,
    ro 0x4481 "chg.reason" (.enum reasonWords) uNone,
    ro 0x4482 "chg.vbat" (.fix 2 2) uV,
    ro 0x4483 "chg.ibat" (.fix 1 0) umA,
    ro 0x4484 "chg.tbat" (.fix 25 2) uC,
    ro 0x4485 "chg.low" .bool uNone,
    cnt32 0x4486 "chg.regen_mah",
    cnt16 0x4487 "chg.backups",
    ro 0x4488 "chg.v_set" (.fix 1 2) uV ]

/-- `prot.` (Table 9-1, R269). -/
def protPars : List Par :=
  [ pEnum 0x4801 "prot.bus.gain" ["5", "10", "20", "40"] 1 .idle,
    pw 0x4802 "prot.bus.shunt" (.fix 1 2) umOhm 10 10000 100 .idle,
    pw 0x4803 "prot.bus.sc_v" (.fix 5 0) umV 1 64 30 .switch,
    pw 0x4804 "prot.bus.hard_mult" (.fix 5 1) uNone 3 6 4 .switch,
    pw 0x4805 "prot.bus.sc_blank" (.fix 125 1) unS 8 240 60 .switch,
    pw 0x4810 "prot.vbrk_on" (.fix 1 1) uV 100 750 620 .switch,
    pw 0x4811 "prot.vbrk_off" (.fix 1 1) uV 90 740 590 .switch,
    pInt 0x4812 "prot.brk.slew" uNone 1 8 8 .switch,
    pw 0x4813 "prot.vov" (.fix 1 1) uV 120 780 700 .switch,
    pw 0x4820 "prot.release_i" (.fix 1 2) uA 5 2000 50 .switch,
    pw 0x4821 "prot.release_t" (.fix 1 0) uuS 20 5000 2000 .switch,
    pw 0x4822 "prot.sc.soft_t" (.fix 125 1) unS 40 320 160 .switch ]

/-- A transmit buffer (R531). -/
def txPars (k : Nat) : List Par :=
  let b := 0x5200 + 0x10 * k
  let n (f : String) : String := "bus.tx" ++ Nat.repr k ++ "." ++ f
  pInt b (n "slot") uNone 0 64 64 .now ::
    (List.range 8).map fun j => ((pMask (b + 1 + j) (n ("d" ++ Nat.repr j)) 32 0 .now).by .user).volatile

/-- A receive buffer (R533). -/
def rxPars (k : Nat) : List Par :=
  let b := 0x5300 + 0x10 * k
  let n (f : String) : String := "bus.rx" ++ Nat.repr k ++ "." ++ f
  pInt b (n "slot") uNone 0 64 64 .now ::
    ((List.range 8).map fun j => ro (b + 1 + j) (n ("d" ++ Nat.repr j)) (.mask 32) uNone) ++
    [ro (b + 9) (n "age") (.int 8 false) uNone, cnt16 (b + 10) (n "cnt")]

/-- The schedule words (R522). -/
def schedPars : List Par := (List.range 64).map fun n => pMask (0x5100 + n) ("bus.sched." ++ Nat.repr n) 32 0 .now

/-- The scalars of `bus.` (Table 16-9, R524, R526). -/
def busScalars : List Par :=
  [ pEnum 0x5000 "bus.mode" ["off", "on"] 0 .now,
    pw 0x5001 "bus.rate" (.int 32 false) uNone 500000 10000000 10000000 .now,
    pw 0x5002 "bus.cycle" (.fix 1 0) uuS 250 100000 1000 .now,
    pw 0x5003 "bus.act_off" (.fix 1 0) uuS 0 99999 500 .now,
    pw 0x5004 "bus.guard" (.fix 1 1) uuS 25 500 40 .now,
    pInt 0x5005 "bus.lock_n" uNone 2 16 4 .now,
    pInt 0x5006 "bus.miss_lim" uNone 1 64 8 .now,
    pInt 0x5007 "bus.age_lim" uNone 1 255 3 .now,
    pInt 0x5008 "bus.node_base" uNone 0 31 0 .reset,
    pBool 0x5009 "bus.tick_align" 0 .switch,
    pw 0x500A "bus.act_comp" (.fix 125 1) unS 0 160 0 .now,
    pInt 0x500B "bus.grp.slot" uNone 0 64 64 .now,
    pMask 0x500C "bus.grp.mask" 16 1 .now,
    pEnum 0x500D "bus.loss_act" ["stop", "none"] 0 .now,
    ro 0x5010 "bus.node_id" (.int 32 true) uNone,
    ro 0x5011 "bus.hash" (.mask 32) uNone ]

/-- `bus.`. -/
def busPars : List Par :=
  busScalars ++ schedPars ++ (List.range 4).flatMap txPars ++ (List.range 8).flatMap rxPars

/-- `host.` (R133, R142, R163, R164, R235). -/
def hostPars : List Par :=
  [ (pw 0x5800 "host.h.baud" (.int 32 false) uNone 9600 3000000 115200 .line).by .user,
    (pEnum 0x5801 "host.h.flow" ["off", "rtscts"] 0 .line).by .user,
    (pBool 0x5803 "host.h.echo" 1 .line).by .user,
    (pw 0x5805 "host.line_to" (.fix 1 0) umS 10 10000 500 .line).by .user,
    pw 0x5810 "host.tun.idle" (.fix 1 0) uS 1 600 60 .now ]

/-- `otp.`, `sec.`, `log.` and `tmux.` (Tables 17-10, 18-5, 21-4; R648-R655). -/
def secPars : List Par :=
  [ ((pMask 0x6000 "otp.sticky" 6 0 .now).by .factory).volatile,
    pMask 0x6001 "otp.gen.sel" 5 0x1F .now,
    ro 0x6010 "otp.gen.count" (.int 8 false) uNone,
    ro 0x6011 "otp.gen.cur" (.int 8 false) uNone,
    ro 0x6012 "otp.wrow" (.mask 16) uNone,
    ro 0x6013 "otp.wrow.split" (.mask 16) uNone,
    ro 0x6014 "otp.final" (.mask 4) uNone,
    (pw 0x6400 "sec.idle" (.fix 1 0) uS 0 3600 600 .now).by .factory,
    (pInt 0x6401 "sec.auth.tries" uNone 1 10 3 .now).by .factory,
    (pw 0x6402 "sec.auth.lock_t" (.fix 1 0) uS 61 3600 120 .now).by .factory,
    (pw 0x6403 "sec.chal_t" (.fix 1 0) uS 2 60 10 .now).by .factory,
    { ro 0x6410 "sec.bundle.seq" (.int 32 false) uNone with vol := false },
    ro 0x6420 "sec.level" (.enum ["USER", "INSTALLER", "FACTORY"]) uNone,
    ro 0x6421 "sec.lockout" (.fix 1 0) uS,
    pEnum 0x6800 "log.pin.sel" ["all", "s_only", "none"] 0 .now,
    ((pw 0x6801 "log.pin.release" (.int 32 false) uNone 0 4294967295 0 .now).by .factory).volatile,
    cnt32 0x6810 "log.overwrites",
    ro 0x6811 "log.pin_full" .bool uNone,
    ro 0x6812 "log.pin.count" (.int 32 true) uNone,
    ro 0x6813 "log.seq.next" (.int 32 false) uNone,
    ro 0x6814 "log.oldest" (.int 32 false) uNone,
    { ro 0x7000 "tmux.a.sel" (.enum tmuxAWords) uNone with eff := .tmux, write := some .factory },
    { ro 0x7001 "tmux.d.sel" (.enum tmuxDWords) uNone with eff := .tmux, write := some .factory },
    ((pBool 0x7002 "tmux.a.conv" 0 .switch).by .factory).volatile,
    ro 0x7010 "tmux.a.val" (.fix 1 0) umV ]

/-- Status of the device, the tick and the link (R3, R35, R38, R43, R48, R51, R73-R78, R88, R227, R745). -/
def statPars1 : List Par :=
  [ ro 0x7800 "stat.id.part" (.int 32 true) uNone,
    ro 0x7801 "stat.id.stepping" (.enum ["C"]) uNone,
    ro 0x7810 "stat.time.tick" (.int 32 false) uTk,
    ro 0x7811 "stat.time.mtick" (.int 32 false) umS,
    ro 0x7812 "stat.time.etime" .u48 uuS,
    ro 0x7813 "stat.tick.period" (.int 32 true) uNone,
    ro 0x7814 "stat.tick.centre_pairs" (.int 32 true) uNone,
    cnt16 0x7815 "stat.tick.overruns",
    ro 0x7816 "stat.tick.d_cost" (.int 32 true) uNone,
    ro 0x7817 "stat.tick.d_spare" (.int 32 true) unS,
    cnt16 0x7820 "stat.lnk.retry_up",
    cnt16 0x7821 "stat.lnk.retry_down",
    cnt16 0x7822 "stat.lnk.gaps",
    cnt16 0x7823 "stat.lnk.gap_run",
    cnt16 0x7824 "stat.lnk.lost",
    cnt16 0x7825 "stat.lnk.stale",
    cnt16 0x7826 "stat.lnk.tel_miss",
    cnt16 0x7827 "stat.lnk.trains",
    ro 0x7828 "stat.lnk.tap" (.int 32 true) uNone,
    cnt16 0x7829 "stat.lnk.bad_cmd",
    cnt16 0x782A "stat.lnk.dup_rec",
    ro 0x7831 "stat.host.m_peak" (.fix 1 1) uuS,
    ro 0x7832 "stat.host.block_rate" (.int 32 true) uNone,
    ro 0x7833 "stat.fram.p1_wait_peak" (.int 32 true) unS,
    cnt16 0x7834 "stat.fram.aged",
    cnt16 0x7835 "stat.log.q_dropped",
    ro 0x7836 "stat.log.q_peak" (.int 32 true) uNone,
    cnt16 0x7837 "stat.log.q_fault_lost",
    ro 0x7838 "stat.host.turn_peak" (.int 32 true) uuS,
    ro 0x7839 "stat.lock.param_wait" (.int 32 true) uuS,
    cnt16 0x783A "stat.host.crc_err",
    cnt16 0x783B "stat.host.overflow",
    cnt16 0x783C "stat.host.notice_lost",
    cnt16 0x783D "stat.host.line_drop",
    ro 0x7840 "stat.cfg.gen" (.int 32 false) uNone,
    ro 0x7841 "stat.cfg.source" (.enum ["fram", "defaults"]) uNone,
    ro 0x7842 "stat.cfg.unsaved" (.int 32 true) uNone,
    cnt32 0x7843 "stat.cfg.commits",
    cnt16 0x7844 "stat.cfg.busy_stage",
    ro 0x7845 "stat.cfg.journal" (.int 32 true) uNone,
    cnt16 0x7850 "stat.host.restarts",
    ro 0x7851 "stat.host.restart_cause" (.enum ["none", "exception", "parity", "watchdog"]) uNone,
    cnt16 0x7852 "stat.vlog.count",
    cnt16 0x7853 "stat.vlog.overwrites",
    cnt16 0x7854 "stat.log.late",
    cnt16 0x7855 "stat.host.restart_drop",
    cnt16 0x7856 "stat.host.late_reply",
    cnt16 0x7860 "stat.gate.bt_low",
    cnt16 0x7861 "stat.gate.vgd_low" ]

/-- Status of diagnosis, power, bus, OTP, trust and boot (R291, R306, Tables 15-12, 17-10, 18-5, 19-6; R527-R547). -/
def statPars2 : List Par :=
  [ ro 0x7870 "stat.diag.a" (.mask 16) uNone,
    ro 0x7871 "stat.diag.b" (.mask 16) uNone,
    cnt16 0x7872 "stat.prot.uvlo",
    ro 0x7880 "stat.pwr.lpo_hz" (.fix 1 2) uHz,
    ro 0x7881 "stat.pwr.sleep_us" .u48 uuS,
    ro 0x7882 "stat.pwr.etime_unc" .u48 uuS,
    ro 0x7883 "stat.pwr.etime_disc" .bool uNone,
    ro 0x7884 "stat.pwr.wake_src" (.mask 9) uNone,
    ro 0x7885 "stat.pwr.watch_rec" (.mask 6) uNone,
    cnt32 0x7886 "stat.pwr.passes",
    cnt16 0x7887 "stat.pwr.pmbus_err",
    ro 0x7888 "stat.pwr.pmbus" .bool uNone,
    ro 0x7889 "stat.pwr.vcore" (.fix 1 0) umV,
    ro 0x788A "stat.pwr.bat_low" .bool uNone,
    ro 0x78A0 "stat.bus.state" (.enum busWords) uNone,
    ro 0x78A1 "stat.bus.cycle" (.int 16 false) uNone,
    cnt16 0x78A2 "stat.bus.crc_err",
    cnt16 0x78A3 "stat.bus.csf_miss",
    cnt16 0x78A4 "stat.bus.hash_err",
    cnt16 0x78A5 "stat.bus.collide",
    cnt16 0x78A6 "stat.bus.unexp",
    cnt16 0x78A7 "stat.bus.wrong_node",
    ro 0x78A8 "stat.bus.align_err" (.fix 125 1) unS,
    cnt16 0x78AA "stat.bus.tun_retry",
    cnt16 0x78AB "stat.bus.grp_fail",
    ro 0x78AC "stat.bus.heard" (.mask 32) uNone,
    cnt16 0x78C0 "stat.otp.corrected",
    cnt16 0x78C1 "stat.otp.burns",
    cnt16 0x78E0 "stat.sec.auth_fail",
    cnt16 0x78E1 "stat.sec.bundles",
    ro 0x78E2 "stat.sec.bundle_why"
      (.enum ["format", "target", "keys_open", "slot", "key", "signature", "replay"]) uNone,
    ro 0x78E3 "stat.sec.bundle_tick" (.int 32 false) uTk,
    ro 0x78F0 "stat.boot.cause" (.enum ["por", "rst_pin", "command", "vcore_bo"]) uNone,
    ro 0x78F1 "stat.boot.safe" (.mask 6) uNone,
    ro 0x78F2 "stat.boot.time" (.int 32 false) uuS ]

/-- Event counters of the device (R732). -/
def statCntPars : List Par := kindNames.map fun p => cnt16 (0x7A00 + p.1) ("stat.cnt." ++ p.2)

/-- The session status fields (Table 24-8). -/
def sessPars (p : Nat × String) : List Par :=
  let b := 0x7B00 + 0x10 * p.1
  let n (f : String) : String := "stat.sess." ++ p.2 ++ "." ++ f
  [ ro b (n "level") (.enum ["USER", "INSTALLER", "FACTORY"]) uNone,
    ro (b + 1) (n "mode") (.enum ["typed", "machine"]) uNone,
    ro (b + 2) (n "auto") .bool uNone,
    ro (b + 3) (n "sub") (.mask 5) uNone,
    cnt16 (b + 4) (n "lines"),
    cnt16 (b + 5) (n "errs"),
    ro (b + 6) (n "staged") (.int 16 false) uNone,
    ro (b + 7) (n "rx_free") (.int 16 false) uB,
    ro (b + 8) (n "tx_free") (.int 16 false) uB,
    ro (b + 9) (n "last_seq") (.int 32 true) uNone ]

/-- Session status of all five sessions. -/
def statSessPars : List Par := [(0, "h"), (1, "t1"), (2, "t2"), (3, "t3"), (4, "t4")].flatMap sessPars

/-- Every parameter in ascending ID order (Table 24-1). -/
def allPars : List Par :=
  sysPars ++ axPars.map (onAxis .a) ++ axPars.map (onAxis .b) ++ lnkPars ++ tempPars ++ pwrPars ++ chgPars ++
  protPars ++ busPars ++ hostPars ++ secPars ++ statPars1 ++ statPars2 ++ statCntPars ++ statSessPars

/-- The rows in whose range an ID of the axis block lies. -/
def axRows (o : Nat) : List Par :=
  if o < 0x080 then axPars1
  else if o < 0x100 then axPars2
  else if o < 0x180 then profPars ((o - 0x100) / 0x10)
  else if o < 0xE00 then axPars3
  else if o < 0xF00 then recPars ((o - 0xE00) / 0x10)
  else axCntPars

/-- The rows of the root in whose range an ID lies (Table 24-1). -/
def parRows (id : Nat) : List Par :=
  if id < 0x1000 then sysPars
  else if id < 0x2000 then (axRows (id - 0x1000)).map (onAxis .a)
  else if id < 0x3000 then (axRows (id - 0x2000)).map (onAxis .b)
  else if id < 0x3800 then lnkPars
  else if id < 0x4000 then tempPars
  else if id < 0x4400 then pwrPars
  else if id < 0x4800 then chgPars
  else if id < 0x5000 then protPars
  else if id < 0x5100 then busScalars
  else if id < 0x5200 then schedPars
  else if id < 0x5300 then txPars ((id - 0x5200) / 0x10)
  else if id < 0x5800 then rxPars ((id - 0x5300) / 0x10)
  else if id < 0x6000 then hostPars
  else if id < 0x7800 then secPars
  else if id < 0x7870 then statPars1
  else if id < 0x7A00 then statPars2
  else if id < 0x7B00 then statCntPars
  else statSessPars

/-- The parameter of an ID; none for a reserved ID (R722). -/
def parById (id : Nat) : Option Par := (parRows id).find? fun p => p.id == id

/-- The parameter of a dotted name (R143). -/
def parByName (n : Text) : Option Par := allPars.find? fun p => p.name.toList == n

/-- The default of a parameter, 0 for an ID that names none. -/
def parDefault (id : Nat) : Int := match parById id with
  | some p => p.dflt
  | none => 0

/-- The parameters with a twin (Table 24-5), IDs of the axis block as on axis A. -/
def twinIds : List Nat :=
  [ 0x3400, 0x3402, 0x5800, 0x5001, 0x0060, 0x1061, 0x1062, 0x1060, 0x1063, 0x1040, 0x1044, 0x1072, 0x1190, 0x11C4,
    0x4813, 0x4810, 0x4811, 0x4403, 0x4412, 0x4415, 0x4410, 0x4010 ]

/-- The ID of the axis-A parameter of the same layout (R178). -/
def baseId (id : Nat) : Nat := if 0x2000 ≤ id ∧ id < 0x3000 then id - 0x1000 else id

/-- Whether a parameter has a twin (Table 24-5). -/
def hasTwin (id : Nat) : Bool :=
  let i := baseId id
  twinIds.contains i || (0x1100 ≤ i && i < 0x1180 && i % 0x10 == 2)

/-- The stored size of a parameter in bytes (Table 24-3). -/
def parSize (k : PKind) : Nat := match k with
  | .int bits _ => bits / 8
  | .u48 => 6
  | .fix _ _ => 4
  | .enum _ => 1
  | .bool => 1
  | .mask n => (n + 7) / 8
  | .text n => n

end Sys2Proof.Machine
end

