-- ==== Sys2Proof/Machine/Ops.lean ====
section
/-! DEFINITION. The shared operations over the state: containers, memories, counters, parameters in force, the FRAM
port, the log path, faults and the FLT_L line, notices, replies and violations. Family files are written over these. -/

namespace Sys2Proof.Machine

/-- The outcome of a step of this block. -/
abbrev Out := Host.Outcome State Fault Refusal

/-! ### Containers -/

/-- The value of one axis. -/
def Pair.get {α : Type} (p : Pair α) : Axis → α
  | .a => p.a
  | .b => p.b

/-- Changes the value of one axis. -/
def Pair.mod {α : Type} (p : Pair α) (x : Axis) (f : α → α) : Pair α := match x with
  | .a => { p with a := f p.a }
  | .b => { p with b := f p.b }

/-- Sets the value of one axis. -/
def Pair.set {α : Type} (p : Pair α) (x : Axis) (v : α) : Pair α := p.mod x fun _ => v

/-- The value of one phase. -/
def Tri.get {α : Type} (t : Tri α) : Phase → α
  | .u => t.u
  | .v => t.v
  | .w => t.w

/-- Changes the value of one phase. -/
def Tri.mod {α : Type} (t : Tri α) (p : Phase) (f : α → α) : Tri α := match p with
  | .u => { t with u := f t.u }
  | .v => { t with v := f t.v }
  | .w => { t with w := f t.w }

/-- Sets the value of one phase. -/
def Tri.set {α : Type} (t : Tri α) (p : Phase) (v : α) : Tri α := t.mod p fun _ => v

/-- Applies a function to all three phases. -/
def Tri.map {α β : Type} (f : α → β) (t : Tri α) : Tri β := { u := f t.u, v := f t.v, w := f t.w }

/-- Applies a function to the phases of two triples. -/
def Tri.zip {α β γ : Type} (f : α → β → γ) (s : Tri α) (t : Tri β) : Tri γ :=
  { u := f s.u t.u, v := f s.v t.v, w := f s.w t.w }

/-- The values of a triple in the order U, V, W. -/
def Tri.toList {α : Type} (t : Tri α) : List α := [t.u, t.v, t.w]

/-- The value of one session. -/
def Five.get {α : Type} (f : Five α) : Sess → α
  | .h => f.h
  | .t1 => f.t1
  | .t2 => f.t2
  | .t3 => f.t3
  | .t4 => f.t4

/-- Changes the value of one session. -/
def Five.mod {α : Type} (f : Five α) (x : Sess) (g : α → α) : Five α := match x with
  | .h => { f with h := g f.h }
  | .t1 => { f with t1 := g f.t1 }
  | .t2 => { f with t2 := g f.t2 }
  | .t3 => { f with t3 := g f.t3 }
  | .t4 => { f with t4 := g f.t4 }

/-- Applies a function to all five sessions. -/
def Five.map {α : Type} (g : α → α) (f : Five α) : Five α :=
  { h := g f.h, t1 := g f.t1, t2 := g f.t2, t3 := g f.t3, t4 := g f.t4 }

/-- The sessions in the order of R107. -/
def sessions : List Sess := [.h, .t1, .t2, .t3, .t4]

/-- The number of a session in log entries (Table 7-3). -/
def sessNum : Sess → Nat
  | .h => 0
  | .t1 => 1
  | .t2 => 2
  | .t3 => 3
  | .t4 => 4

/-- The other axis. -/
def otherAxis : Axis → Axis
  | .a => .b
  | .b => .a

/-- The index of an axis: 0 for A, 1 for B. -/
def axIdx : Axis → Nat
  | .a => 0
  | .b => 1

/-- The bit of an axis in AXES (Table 20-1). -/
def axBit : Axis → BitVec 2
  | .a => 1
  | .b => 2

/-- Whether AXES names an axis. -/
def hasAxis (m : BitVec 2) (x : Axis) : Bool := m &&& axBit x != 0

/-- The axes a line argument names (R152). -/
def selAxes : AxisSel → List Axis
  | .one x => [x]
  | .all => [.a, .b]

/-- The axes of a selection in AXES form. -/
def selMask (sel : AxisSel) : BitVec 2 := match sel with
  | .one x => axBit x
  | .all => 3

/-- The phases. -/
def phases : List Phase := [.u, .v, .w]

/-- The index of a phase. -/
def phIdx : Phase → Nat
  | .u => 0
  | .v => 1
  | .w => 2

/-- The number of a level in log entries (Table 7-3). -/
def levelNum : Level → Nat
  | .user => 0
  | .installer => 1
  | .factory => 2

/-- The word of a level (Table 24-8). -/
def levelText : Level → Text
  | .user => txt "USER"
  | .installer => txt "INSTALLER"
  | .factory => txt "FACTORY"

/-- The element of a list at an index, or a default. -/
def nth {α : Type} (l : List α) (i : Nat) (d : α) : α := l.getD i d

/-! ### Stores and memories -/

/-- The value of a key. -/
def storeGet : Store → Nat → Option Int
  | [], _ => none
  | (k, v) :: r, i => if k = i then some v else storeGet r i

/-- Sets the value of a key, keeping the keys rising. -/
def storePut : Store → Nat → Int → Store
  | [], i, x => [(i, x)]
  | (k, v) :: r, i, x =>
    if i < k then (i, x) :: (k, v) :: r else if i = k then (i, x) :: r else (k, v) :: storePut r i x

/-- Removes a key. -/
def storeDel : Store → Nat → Store
  | [], _ => []
  | (k, v) :: r, i => if k = i then r else (k, v) :: storeDel r i

/-- Lays the entries of one store over another. -/
def storeOver (base top : Store) : Store := top.foldl (fun m e => storePut m e.1 e.2) base

/-- One byte of a memory; an unlisted byte reads 0 (R623: the areas are cleared). -/
def memRead : Memory → Nat → Byte
  | [], _ => 0
  | (k, b) :: r, a => if k = a then b else memRead r a

/-- Writes one byte, keeping the canonical form: addresses rising and no byte 0 listed. -/
def memWrite : Memory → Nat → Byte → Memory
  | [], a, x => if x = 0 then [] else [(a, x)]
  | (k, b) :: r, a, x =>
    if a < k then (if x = 0 then (k, b) :: r else (a, x) :: (k, b) :: r)
    else if a = k then (if x = 0 then r else (a, x) :: r)
    else (k, b) :: memWrite r a x

/-- Writes bytes from an address upward. -/
def memWrites : Memory → Nat → List Byte → Memory
  | m, _, [] => m
  | m, a, b :: bs => memWrites (memWrite m a b) (a + 1) bs

/-- n bytes from an address upward. -/
def memReads (m : Memory) : Nat → Nat → List Byte
  | _, 0 => []
  | a, n + 1 => memRead m a :: memReads m (a + 1) n

/-- A field of n bytes, least significant byte first. -/
def memLe (m : Memory) (a n : Nat) : Nat := ofLe (memReads m a n)

/-- Every address of a memory above a bound, rising, and no byte 0. -/
def memFrom : Option Nat → Memory → Bool
  | _, [] => true
  | lo, (k, b) :: r => (match lo with | none => true | some l => decide (l < k)) && b != 0 && memFrom (some k) r

/-- The canonical form of a memory. -/
def Memory.wf (m : Memory) : Bool := memFrom none m

/-! ### State updates by part -/

/-- The state of a session. -/
def State.ses (s : State) (x : Sess) : Session := s.sess.get x

/-- Changes a session. -/
def State.modSes (s : State) (x : Sess) (f : Session → Session) : State := { s with sess := s.sess.mod x f }

/-- Changes the host core. -/
def State.modHost (s : State) (f : HostCore → HostCore) : State := { s with host := f s.host }

/-- Changes the link as Aster sees it. -/
def State.modLink (s : State) (f : ALink → ALink) : State := { s with link := f s.link }

/-- Changes Peony. -/
def State.modPe (s : State) (f : Peony → Peony) : State := { s with pe := f s.pe }

/-- Changes an axis of Peony. -/
def State.modPax (s : State) (x : Axis) (f : PAxis → PAxis) : State :=
  s.modPe fun p => { p with ax := p.ax.mod x f }

/-- Changes the analog side of Peony. -/
def State.modAn (s : State) (f : PAnalog → PAnalog) : State := s.modPe fun p => { p with an := f p.an }

/-- Changes the island. -/
def State.modIsl (s : State) (f : Island → Island) : State := s.modPe fun p => { p with isl := f p.isl }

/-- Changes the loop engine's state of an axis. -/
def State.modLoop (s : State) (x : Axis) (f : AxLoop → AxLoop) : State := { s with loop := s.loop.mod x f }

/-- Changes the motion state of an axis. -/
def State.modMot (s : State) (x : Axis) (f : AxMot → AxMot) : State := { s with mot := s.mot.mod x f }

/-- Changes the position front end of an axis. -/
def State.modPos (s : State) (x : Axis) (f : AxPos → AxPos) : State := { s with pos := s.pos.mod x f }

/-- Changes FRAM. -/
def State.modFram (s : State) (f : Fram → Fram) : State := { s with fram := f s.fram }

/-- Changes the log path. -/
def State.modLog (s : State) (f : LogState → LogState) : State := { s with log := f s.log }

/-- Changes OTP. -/
def State.modOtp (s : State) (f : Otp → Otp) : State := { s with otp := f s.otp }

/-- Changes the bus engine. -/
def State.modBus (s : State) (f : Bus → Bus) : State := { s with bus := f s.bus }

/-- Changes the power state. -/
def State.modPwr (s : State) (f : Power → Power) : State := { s with pwr := f s.pwr }

/-- Changes the charger. -/
def State.modChg (s : State) (f : Charger → Charger) : State := { s with chg := f s.chg }

/-- Applies an update when a condition holds. -/
def when_ (c : Bool) (f : State → State) (s : State) : State := if c then f s else s

/-- Applies an update for each element of a list. -/
def forAll {α : Type} (l : List α) (f : α → State → State) (s : State) : State := l.foldl (fun t x => f x t) s

/-! ### Time -/

/-- Microseconds of ETIME since an instant (R51, modular). -/
def State.since (s : State) (t : W48) : Nat := (s.etime - t).toNat

/-- The tick number a lies at or before b under R53. -/
def tickLe (a b : W32) : Bool := modDist a b ≥ 0

/-- Performs the effect of an event that a time has passed since an instant. Ticks advance ETIME; while none run, the event
itself says that the time has passed, and ETIME is at least that far (log 45). -/
def timeUp (t : W48) (us : Nat) (f : State → State) (s : State) : State :=
  if us ≤ s.since t then f s
  else if s.ticking then s
  else f { s with etime := t + BitVec.ofNat 48 us }

/-- Whether the event of a time since an instant may act: the time has passed, or no tick advances ETIME (log 45). -/
def State.due (s : State) (t : W48) (us : Nat) : Bool := us ≤ s.since t || !s.ticking

/-! ### Counters (R657) -/

/-- The counters of 32 bits (Table 20-3). -/
def wideCounters : List Nat := [0x6810, 0x7843, 0x7886, 0x4486]

/-- The value of a counter. -/
def State.count (s : State) (id : Nat) : Nat := ((storeGet s.cnt id).getD 0).toNat

/-- The value at which a counter saturates (R94, R126, R657). -/
def cntTop (id : Nat) : Nat := if wideCounters.contains id then 0xFFFFFFFF else 0xFFFF

/-- Adds to a counter, which saturates. -/
def bumpBy (id n : Nat) (s : State) : State := { s with cnt := storePut s.cnt id (min (s.count id + n) (cntTop id) : Nat) }

/-- Adds one to a counter. -/
def bump (id : Nat) (s : State) : State := bumpBy id 1 s

/-- Sets a counter to a value when it is higher: a peak, which saturates as well (R94, R126). -/
def peak (id n : Nat) (s : State) : State :=
  if s.count id < min n (cntTop id) then { s with cnt := storePut s.cnt id (min n (cntTop id) : Nat) } else s

/-- Sets a counter back to 0. -/
def clearCnt (id : Nat) (s : State) : State := { s with cnt := storeDel s.cnt id }

/-! ### OTP words as sensed and calibration defaults -/

/-- Whether a mark counts a word in use (Table 17-3). -/
def Mark.inUse : Mark → Bool
  | .sealed | .weak | .exhausted => true
  | _ => false

/-- The raw 39 bits of a word of the array. -/
def State.otpRaw (s : State) (w : Nat) : BitVec 39 := ((s.otp.array.find? fun p => p.1 == w).map (·.2)).getD 0

/-- The mark and re-burn count of a word; a word not listed is BLANK (R561, R564). -/
def State.otpMark (s : State) (w : Nat) : WordState :=
  ((s.otp.marks.find? fun p => p.1 == w).map (·.2)).getD { mark := .blank, rb := 0 }

/-- The data of a word in use, as its shadow entry holds it (R561, R568). -/
def State.otpData (s : State) (w : Nat) : Option W32 :=
  if (s.otpMark w).mark.inUse then (eccDecode (s.otpRaw w)).map (·.1) else none

/-- The data of a word in use, as it was sensed at the last reset (R568, R617). -/
def State.otpSensed (s : State) (w : Nat) : Option W32 := (s.otp.sensed.find? fun p => p.1 == w).map (·.2)

/-- The eight words of a generation slot, when all are in use (R582). -/
def genWords (s : State) (g : Nat) : Option (List W32) :=
  ((List.range 8).map fun i => s.otpData (0x160 + 8 * (g - 1) + i)).foldr
    (fun w r => match w, r with
      | some a, some b => some (a :: b)
      | _, _ => none) (some [])

/-- Whether a generation is valid: its header holds its own g and its CRC passes (Table 17-9). -/
def genValid (g : Nat) (ws : List W32) : Bool := match ws with
  | h :: r => h.toNat % 256 == g && h.toNat / 65536 == (crc16 (r.flatMap fun w => leBytes 4 w.toNat)).toNat
  | [] => false

/-- The generation in force: the highest valid slot (R582); 0 when none is. -/
def genFrom (s : State) : Nat → Nat
  | 0 => 0
  | g + 1 => match genWords s (g + 1) with
    | some ws => if genValid (g + 1) ws then g + 1 else genFrom s g
    | none => genFrom s g

/-- otp.gen.cur (R582). -/
def State.genCur (s : State) : Nat := if s.otp.marks.isEmpty then 0 else genFrom s 16

/-- Where a generation holds a parameter: flag bit, word, low bit and width of its field (Table 17-9). -/
def genField (id : Nat) : Option (Nat × Nat × Nat × Nat) :=
  if id = 0x1074 then some (0, 1, 0, 8) else if id = 0x1075 then some (0, 1, 8, 8)
  else if id = 0x1076 then some (0, 1, 16, 8) else if id = 0x2074 then some (1, 2, 0, 8)
  else if id = 0x2075 then some (1, 2, 8, 8) else if id = 0x2076 then some (1, 2, 16, 8)
  else if id = 0x0051 then some (2, 3, 0, 16) else if id = 0x0052 then some (2, 3, 16, 16)
  else if 0x1026 ≤ id ∧ id ≤ 0x1028 then some (3, 4, 10 * (id - 0x1026), 10)
  else if 0x1029 ≤ id ∧ id ≤ 0x102B then some (3, 5, 10 * (id - 0x1029), 10)
  else if 0x2026 ≤ id ∧ id ≤ 0x2028 then some (4, 6, 10 * (id - 0x2026), 10)
  else if 0x2029 ≤ id ∧ id ≤ 0x202B then some (4, 7, 10 * (id - 0x2029), 10)
  else none

/-- The value a generation holds for a parameter, if it selects it (R581, R584). -/
def genValue (ws : List W32) (id : Nat) : Option Int := match genField id with
  | none => none
  | some (flag, word, lo, n) =>
    let h := (nth ws 0 0).toNat
    if h / 2 ^ (8 + flag) % 2 = 1 then
      let v := (nth ws word 0).toNat / 2 ^ lo % 2 ^ n
      some (if n = 10 then (64 * v : Nat) else toSigned n v)
    else none

/-- The default of a parameter: that of its table, or that of the generation in force (R584). -/
def State.defaultOf (s : State) (id : Nat) : Int :=
  match genField id with
  | none => parDefault id
  | some _ => match genWords s s.genCur with
    | some ws => if s.genCur = 0 then parDefault id else (genValue ws id).getD (parDefault id)
    | none => parDefault id

/-! ### Parameters in force -/

/-- The written value of a parameter of the set in force, in steps (R183). -/
def State.par (s : State) (id : Nat) : Int := (storeGet s.prm.now id).getD (parDefault id)

/-- The same as a natural number. -/
def State.parN (s : State) (id : Nat) : Nat := (s.par id).toNat

/-- A parameter of an axis, by its offset in the axis block (R178). -/
def axId (x : Axis) (o : Nat) : Nat := match x with
  | .a => 0x1000 + o
  | .b => 0x2000 + o

/-- The value of a parameter of an axis. -/
def State.axp (s : State) (x : Axis) (o : Nat) : Int := s.par (axId x o)

/-- The value of a parameter of an axis as a natural number. -/
def State.axn (s : State) (x : Axis) (o : Nat) : Nat := s.parN (axId x o)

/-- The value a `reset` parameter had at the last boot (R184). -/
def State.bootPar (s : State) (id : Nat) : Int := (storeGet s.prm.boot id).getD (parDefault id)

/-- The tick length P in clocks for a frequency in Hz (R35). -/
def tickLen (f : Nat) : Nat := 2 * ((80000000 + f) / (2 * f))

/-- The tick length P in force on Aster (R35, R36). -/
def State.tickP (s : State) : Nat := s.link.clk

/-- The clocks of the present tick: P and the trim in force (R538). -/
def State.tickClocks (s : State) : Nat := ((s.link.clk : Int) + s.link.trim).toNat

/-- The period of the set in force, which Aster takes when a switch is settled (R36, R91), and with it the rotation of AUX pair 1
(R669). -/
def syncClk (s : State) : State :=
  s.modLink fun l => { l with clk := tickLen (s.parN 0x3400), five := s.par 0x7002 == 1 }

/-- The commutation mode of an axis (Table 11-1). -/
def State.commMode (s : State) (x : Axis) : Nat := s.axn x 0x020

/-- Whether an axis is configured (R97). -/
def State.configured (s : State) (x : Axis) : Bool := s.commMode x != 0

/-- The axis to which the sin/cos channel is assigned (R329). -/
def State.scAxis (s : State) : Option Axis := match s.parN 0x0050 with
  | 1 => some .a
  | 2 => some .b
  | _ => none

/-- Whether an axis is disarmed. -/
def State.disarmed (s : State) (x : Axis) : Bool := (s.loop.get x).st == .disarmed || (s.loop.get x).st == .latched

/-- Whether Forul runs (R215, Table 19-5). -/
def State.forul (s : State) : Bool := (s.dev == .safe || s.dev == .run) && s.host.restart.isNone

/-! ### Wired row (R565, R566) -/

/-- BRIDGE_PERMIT. -/
def State.bridgePermit (s : State) : Bool := s.otp.wrow.getLsbD 0

/-- The three bits that Aster puts into the training header (R87): BRIDGE_PERMIT, DIRECT_DIS_A, DIRECT_DIS_B. -/
def State.wrowBits (s : State) : BitVec 3 := s.otp.wrow.extractLsb' 0 3

/-! ### Device notices and replies -/

/-- CR LF, which ends every line that the 6240 sends (R130). -/
def crlf : Text := [Char.ofNat 13, Char.ofNat 10]

/-- A text followed by `*` and its CRC in upper case (R136, R140). -/
def withCrc (t : Text) : Text := t ++ '*' :: hex 4 (crc16 (textBytes t)).toNat

/-- A reply line under its framing (R138, R139, R140). It holds at most 160 characters: what a longer one would hold beyond them is
left out (R130; DESIGN CHOICE, log 98). -/
def frameReply (f : Frame) (t : Text) : Text := match f with
  | .plain => t.take 160
  | .seq n _ => withCrc (('#' :: dec n ++ ' ' :: t).take 155)
  | .noSeq => withCrc (('#' :: '-' :: ' ' :: t).take 155)

/-- A notice line: `! ` and its text, or `!`, its text and its CRC in machine mode (R140, R157). -/
def frameNotice (machine : Bool) (t : Text) : Text := if machine then withCrc ('!' :: t) else '!' :: ' ' :: t

/-- Characters waiting in the reply buffer of a session (R108). -/
def Session.used (se : Session) : Nat := (se.out.map fun l => l.chars.length).foldl (· + ·) 0

/-- Free bytes of the reply buffer. -/
def Session.free (se : Session) : Nat := 512 - se.used

/-- Places a notice in the output. In typed mode with a partial line, CR LF stands before it and the partial line after
it (R135). -/
def placeNotice (se : Session) (n : Notice) : Session :=
  let l := frameNotice se.machine n.text ++ crlf
  let l := if !se.machine && !se.part.isEmpty then crlf ++ l ++ se.part else l
  { se with out := se.out ++ [{ notice := true, chars := l, rate := none }] }

/-- Moves notices of the queue into the output while the buffer has room for a line. -/
def flushNotices : Nat → Session → Session
  | 0, se => se
  | k + 1, se => match se.notices with
    | [] => se
    | n :: r => if se.free < 164 then se else flushNotices k (placeNotice { se with notices := r } n)

/-- Queues a notice on a session (R162). A fault notice displaces the oldest notice of another class from a full queue;
a notice that is displaced or finds no place is dropped (log 20). The flag tells whether one was dropped. -/
def queueNotice (n : Notice) (se : Session) : Session × Bool :=
  if se.notices.length < 16 then ({ se with notices := se.notices ++ [n] }, false)
  else if n.cls = 0 && se.notices.any (fun m => m.cls != 0) then
    ({ se with notices := (se.notices.eraseP fun m => m.cls != 0) ++ [n], lost := se.lost + 1 }, true)
  else ({ se with lost := se.lost + 1 }, true)

/-- Places every queued notice (R159-R161): a reply follows them whatever room the buffer has. -/
def drainNotices (se : Session) : Session := se.notices.foldl placeNotice { se with notices := [] }

/-- Sends a notice to session H, whatever its subscriptions; one due on a tunnel session is discarded (R548). During a
host-core restart it stays queued (R234). -/
def noticeTo (x : Sess) (cls : Nat) (t : Text) (s : State) : State :=
  if x == .h && (s.ses x).isOpen then
    let r := queueNotice { cls := cls, text := t } (s.ses x)
    when_ r.2 (bump 0x783C) (s.modSes x fun _ => if s.host.restart.isSome then r.1 else flushNotices 16 r.1)
  else s

/-- Sends a notice of a class of Table 5-6 to every session that has subscribed to it (R157): classes 0-4 in the order
fault, state, chg, bus, log; 5 is `always`. -/
def notice (cls : Nat) (t : Text) (s : State) : State :=
  forAll sessions (fun x s => if cls = 5 || (s.ses x).subs.getLsbD cls then noticeTo x cls t s else s) s

/-- Whether a reply of a session is held: a host-core restart runs (R234); a subscribed session's line finished reception
at or after the tick of a Peony assertion whose notice has not yet been sent (R160, R161); or an earlier reply is held
(R172). -/
def holdsReply (s : State) (x : Sess) (lineTick : W32) : Bool :=
  s.host.restart.isSome || !(s.ses x).held.isEmpty ||
  ((s.ses x).subs.getLsbD 0 && s.log.await.any fun a => !a.2.2.2 && tickLe a.1 lineTick)

/-- Puts a reply line of a session into its output, or into its hold. -/
def emit (x : Sess) (lineTick : W32) (t : Text) (s : State) : State :=
  let l : OutLine := { notice := false, chars := t ++ crlf, rate := none }
  if holdsReply s x lineTick then s.modSes x fun se => { se with held := se.held ++ [l] }
  else s.modSes x fun se => let se := drainNotices se; { se with out := se.out ++ [l] }

/-- Releases held replies once no notice stands before them (R161). -/
def releaseHeld (s : State) : State :=
  forAll sessions (fun x s =>
    if s.host.restart.isSome then s
    else if s.log.await.any (fun a => !a.2.2.2) && (s.ses x).subs.getLsbD 0 then s
    else s.modSes x fun se =>
      if se.held.isEmpty then flushNotices 16 se
      else let se := drainNotices se; { se with out := se.out ++ se.held, held := [] }) s

/-- A started line: its session, the line, the word it begins with and the tick in which it started, for violations
(R219). -/
structure Call where
  x    : Sess
  line : RxLine
  word : Text
  tick : W32
  deriving DecidableEq, Repr

/-- Sends the final reply of a line and completes it: the reply is stored for R141, R218, counted for R733, and the session
is ready for its next line. A machine line that came in typed mode takes session H to machine mode (R132, R137). A reply
of a session that has closed is discarded (R171). -/
def answer (k : Call) (t : Text) (s : State) : State :=
  let err := startsWith t (txt "err ")
  let had := (s.ses k.x).data
  if !(s.ses k.x).isOpen then s.modSes k.x fun se => { se with running := none, cancel := false }
  else
    let s := emit k.x k.line.tick (frameReply k.line.frame t) s
    s.modSes k.x fun se =>
      let se := { se with running := none, cancel := false, data := false, lines := min 65535 (se.lines + 1),
                          errs := if err then min 65535 (se.errs + 1) else se.errs, doneAt := s.etime,
                          machine := se.machine || k.line.enter }
      match k.line.frame with
      | .seq n c => { se with stored := some (n, c, t, had), lastSeq := n }
      | _ => se

/-- `ok`. -/
def ok (k : Call) (s : State) : State := answer k (txt "ok") s

/-- `= <value>`. -/
def okValue (k : Call) (v : Text) (s : State) : State := answer k (txt "= " ++ v) s

/-- `@0x<id>`. -/
def atId (id : Nat) : Text := txt "@0x" ++ hex 4 id

/-- The names of the error codes (Table 5-7). -/
def errName (n : Nat) : String :=
  ((([(10, "SYNTAX"), (11, "LINE_LONG"), (12, "BAD_CRC"), (13, "RANGE"), (14, "UNIT"), (15, "OVERFLOW"),
     (16, "UNKNOWN_CMD"), (17, "TYPE"), (18, "ARGS"), (20, "NO_PARAM"), (21, "READ_ONLY"), (22, "LEVEL"),
     (23, "LOCKED"), (24, "AUTH_FAIL"), (25, "AUTH_REQUIRED"), (26, "NO_CHALLENGE"), (30, "STATE"),
     (31, "BUSY_STAGE"), (32, "NOT_ARMED"), (33, "FAULT_LATCHED"), (34, "AXIS_ARMED"), (35, "LEDGER_FIT"),
     (36, "CAUSE_PRESENT"), (37, "CAL_STATE"), (38, "NOTHING_STAGED"), (40, "RESTART"), (41, "BUSY"),
     (42, "TOO_LARGE"), (43, "CANCELLED"), (44, "REMOTE_TIMEOUT"), (45, "FRAM_FAIL"), (50, "OTP_SEALED"),
     (51, "OTP_BAD"), (52, "OTP_FULL"), (53, "TEMP_WINDOW"), (54, "OTP_WEAK"), (55, "OTP_FINAL"), (56, "SIG_FAIL"),
     (57, "BURN_FAIL"), (60, "BUS_OFF"), (61, "NO_NODE"), (62, "SCHED_HASH"), (63, "TUNNEL_FULL"),
     (64, "NOT_MASTER"), (70, "NO_PROFILE"), (71, "DIAG_FAIL"), (72, "BRIDGE_LOCKED"), (73, "VM_LOW"),
     (74, "DIRECT_DIS"), (75, "LEARN_ABORT")] : List (Nat × String)).find? fun p => p.1 == n).map (·.2)).getD ""

/-- The text of an error reply (Table 5-4). -/
def errText (n : Nat) (id : Option Nat) : Text :=
  txt "err " ++ dec n ++ ' ' :: txt (errName n) ++ (match id with | some i => ' ' :: atId i | none => [])

/-- Adds a violation of a line (R219): a ring of 64, VSEQ saturating (Table 20-3). -/
def violate (k : Call) (sess : Nat) (level : Level) (code : Nat) (addr : Option (Bool × Nat)) (s : State) : State :=
  let v : Violation := { vseq := s.log.vseq, tick := k.tick, sess := sess, level := level, code := code, addr := addr,
                         cmdw := k.word.take 4 }
  let full := s.log.vlog.length ≥ 64
  let s := bump 0x7852 (s.modLog fun l =>
    { l with vlog := (if full then l.vlog.drop 1 else l.vlog) ++ [v], vseq := min 0xFFFFFFFF (l.vseq + 1) })
  when_ full (bump 0x7853) s

/-- `err <nn> <NAME>` without a parameter, and no violation entry but for the codes 20-23 (R168). -/
def fail (k : Call) (n : Nat) (s : State) : State :=
  let s := if 20 ≤ n ∧ n ≤ 23 then violate k (sessNum k.x) (s.ses k.x).level n none s else s
  answer k (errText n none) s

/-- `err <nn> <NAME> @0x<id>`. -/
def failAt (k : Call) (n id : Nat) (s : State) : State :=
  let s := if 20 ≤ n ∧ n ≤ 23 then violate k (sessNum k.x) (s.ses k.x).level n (some (false, id)) s else s
  answer k (errText n (some id)) s

/-- An error that concerns an OTP word: the violation entry has ASPACE 1 (R219). -/
def failWord (k : Call) (n w : Nat) (s : State) : State :=
  let s := if 20 ≤ n ∧ n ≤ 23 then violate k (sessNum k.x) (s.ses k.x).level n (some (true, w)) s else s
  answer k (errText n none) s

/-- Lets a started line wait for an event. -/
def waitFor (k : Call) (w : Wait) (s : State) : State :=
  s.modSes k.x fun se => { se with running := some { line := k.line, tick := k.tick, wait := w } }

/-- The call of the line that a session runs. -/
def runningCall (s : State) (x : Sess) : Option (Call × Wait) :=
  (s.ses x).running.map fun r =>
    ({ x := x, line := r.line, word := (tokens r.line.body).headD [], tick := r.tick }, r.wait)

/-- The running lines of all sessions whose wait satisfies a test. -/
def waiters (s : State) (p : Wait → Bool) : List (Call × Wait) :=
  (sessions.map fun x => match runningCall s x with
    | some r => if p r.2 then [r] else []
    | none => []).flatten

/-- Sends a data line of a line in progress as it stands. -/
def dataText (k : Call) (t : Text) (s : State) : State :=
  emit k.x k.line.tick (frameReply k.line.frame t) (s.modSes k.x fun se => { se with data := true })

/-- Sends a data line of a line in progress (R149). -/
def dataLine (k : Call) (d : Text) (s : State) : State := dataText k ('|' :: ' ' :: d) s

/-- Emits data lines while the reply buffer has room, then the final reply; otherwise the rest waits for space
(R108, R149). -/
def emitData (k : Call) : List Text → Text → State → State
  | [], fin, s => answer k fin s
  | d :: ds, fin, s =>
    if (s.ses k.x).free < 164 then waitFor k (.chunk (d :: ds) fin) s
    else emitData k ds fin (dataLine k d s)

/-- The frame of a command that does not come through the receive buffer: plain in typed mode, and without a seq in
machine mode (log 21). -/
def directFrame (se : Session) : Frame := if se.machine then .noSeq else .plain

/-- Whether lines start: Forul runs, no sleep entry or exit is under way (R482), and no `reset` waits for the drain (R156,
log 52). -/
def State.starts (s : State) : Bool := s.forul && s.pwr.step == .awake && !s.host.resetting

/-- A session has received a line: its idle times start again (R235, R602). -/
def lineHeard (x : Sess) (s : State) : State := s.modSes x fun se => { se with lineAt := s.etime }

/-- Runs a command as the line of a session that starts now: lines start, the session is open and no line of it is in
progress; otherwise the command finds no turn and nothing happens (log 21). -/
def direct (x : Sess) (word : String) (f : Call → State → State) (s : State) : Out :=
  let se := s.ses x
  let l : RxLine := { len := 0, body := txt word, frame := directFrame se, err := none, tick := s.tick, at_ := s.etime,
                      enter := false, cut := false }
  if s.starts && se.isOpen && se.running.isNone then .next (f { x := x, line := l, word := txt word, tick := s.tick } (lineHeard x s))
  else .next s

/-! ### FRAM port (R103-R106) -/

/-- The order of service: an aged request ranks after priority 2 and before priority 3; among aged and among equals the
oldest goes first (R104, R106). The release of pins goes before a fault entry (R658). -/
def framRank (r : FramReq) : Nat := match r.op with
  | .pins _ => 15
  | _ => if r.aged then 25 else 10 * r.prio

/-- The request that goes next, and the rest. -/
def framBest : List FramReq → Option (FramReq × List FramReq)
  | [] => none
  | r :: rs => match framBest rs with
    | none => some (r, rs)
    | some (b, others) => if framRank b < framRank r then some (b, r :: others) else some (r, rs)

/-- Serves the next waiting request when the port is free; the wait of priority 1 is recorded (R106). -/
def framPick (s : State) : State := match s.fram.cur with
  | some _ => s
  | none => match framBest s.fram.queue with
    | none => s
    | some (r, rest) =>
      let s := s.modFram fun f => { f with cur := some r, queue := rest }
      if r.prio = 1 then peak 0x7833 (1000 * s.since r.at_) s else s

/-- Places a request of a number of transactions at the port. -/
def framAsk (prio : Nat) (op : FramOp) (left : Nat) (s : State) : State :=
  framPick (s.modFram fun f =>
    { f with queue := f.queue ++ [{ prio := prio, op := op, left := max 1 left, tries := 0, aged := false, at_ := s.etime }] })

/-- Whether a request is waiting or in progress. -/
def framBusy (s : State) (op : FramOp) : Bool :=
  s.fram.queue.any (fun r => r.op == op) || (match s.fram.cur with | some r => r.op == op | none => false)

/-- Transactions for a number of bytes (R103). -/
def framParts (bytes : Nat) : Nat := (bytes + 63) / 64

/-! ### Event log (R116-R118, R221, R646) -/

/-- Names of the fault kinds (Table 20-2). -/
def kindText (k : Nat) : Text := txt <|
  ((([(0x01, "S:SC_LEG"), (0x02, "S:SC_HARD"), (0x03, "E:OV"), (0x04, "E:OT"), (0x05, "E:LINK_GAP"), (0x06, "E:LINK_GAP"),
     (0x07, "E:STALL"), (0x08, "E:OBSTRUCT"), (0x09, "E:PHASE_OPEN"), (0x0A, "E:SENSE"), (0x0B, "E:ENC_IDX"),
     (0x0C, "E:SINCOS_AMP"), (0x0D, "E:OVERRUN"), (0x0E, "E:TS_SUSPECT"), (0x0F, "FLT_PEONY"), (0x1F, "QUEUE_LOST"),
     (0x20, "CLEAR"), (0x21, "COMMIT"), (0x22, "BOOT"), (0x23, "SAFE"), (0x24, "SLEEP_ABORT"), (0x25, "TIME_DISC"),
     (0x26, "VCORE_FAIL"), (0x27, "XTAL_FAIL"), (0x28, "IMAGE_FAIL"), (0x29, "RESTART"), (0x30, "SENSE_RECON"),
     (0x31, "PHASE_LIMP"), (0x32, "OBSTRUCT_REV"), (0x33, "LEARN_DONE"), (0x34, "ASSIST"), (0x35, "OPS_SAT"),
     (0x36, "GRP_FAIL"), (0x38, "CHG"), (0x39, "TS_XCHK"), (0x3A, "TS_UNTRIMMED"), (0x40, "BT_LOW"), (0x41, "VGD_LOW"),
     (0x42, "VM_UVLO"), (0x48, "AUTH_FAIL"), (0x49, "BUNDLE_FAIL"), (0x50, "OTP_INTERRUPT"), (0x51, "OTP_TABLE_LOST"),
     (0x52, "CFG_LOST"), (0x53, "CFG_RANGE"), (0x54, "CFG_UNSAVED"), (0x5F, "LOG_RESTART")] : List (Nat × String)).find?
    fun p => p.1 == k).map (·.2)).getD ""

/-- `A`, `B`, `AB` or `-`. -/
def axesText (m : BitVec 2) : Text :=
  if m = 0 then ['-'] else (if m.getLsbD 0 then ['A'] else []) ++ (if m.getLsbD 1 then ['B'] else [])

/-- Whether a kind is a fault entry (R647). -/
def isFaultKind (k : Nat) : Bool := 1 ≤ k && k ≤ 0x1F

/-- The counters of R732: one for the device and one for each axis named. -/
def bumpKind (k : Nat) (axes : BitVec 2) (s : State) : State :=
  let s := bump (0x7A00 + k) s
  if axisKind k then
    let s := when_ (axes.getLsbD 0) (bump (0x1F00 + k)) s
    when_ (axes.getLsbD 1) (bump (0x2F00 + k)) s
  else s

/-- The priority of the head of the log queue: 2 when it or any entry behind it is a fault entry, else 4 (R116). -/
def logPrio (q : List LogEntry) : Nat := if q.any fun e => isFaultKind e.kind then 2 else 4

/-- Keeps exactly one request of the log queue at the port, at the priority of R116. Without FRAM the entries leave the
queue unwritten (R633). -/
def syncLogReq (s : State) : State :=
  if s.log.queue.isEmpty then s
  else if !s.fram.present then s.modLog fun l => { l with queue := [] }
  else
    let p := logPrio s.log.queue
    if framBusy s .logEntry then
      s.modFram fun f => { f with queue := f.queue.map fun r =>
        if r.op == .logEntry then { r with prio := p, aged := r.aged && p != 2 } else r }
    else framAsk p .logEntry 1 s

/-- The queue-overflow entry of Aster (R118). -/
def isOverflow (e : LogEntry) : Bool := e.kind == 0x1F && !e.flags.getLsbD 0

/-- One more lost fault entry is counted in the overflow entry that stands in the queue (R118). -/
def overflowMore : List LogEntry → List LogEntry
  | [] => []
  | e :: r => if isOverflow e then { e with arg0 := BitVec.ofNat 16 (min 65535 (e.arg0.toNat + 1)) } :: r else e :: overflowMore r

/-- Enters an entry into the log queue, where it takes its LSEQ (R116-R118, R656). The head may be displaced while its own write is in
progress; the transaction that ends then writes the new head (DESIGN CHOICE, log 119). -/
def logEnter (e : LogEntry) (s : State) : State :=
  if s.log.next > 0xFFFFFFFF then bump 0x7835 s
  else
    let q := s.log.queue
    let e := { e with lseq := s.log.next }
    let put (q : List LogEntry) (s : State) : State :=
      let s := s.modLog fun l => { l with queue := q ++ [e], next := l.next + 1 }
      syncLogReq (peak 0x7836 (q.length + 1) s)
    if q.length < 64 then put q s
    else if !isFaultKind e.kind then bump 0x7835 (s.modLog fun l => { l with next := l.next + 1 })
    else if q.any (fun f => !isFaultKind f.kind) then put (q.eraseP fun f => !isFaultKind f.kind) (bump 0x7835 s)
    else if q.any isOverflow then
      bump 0x7837 (s.modLog fun l =>
        { l with queue := overflowMore q, next := l.next + 1 })
    else match q.reverse with
      | [] => s
      | y :: r =>
        let o : LogEntry := { y with kind := 0x1F, flags := (y.flags &&& 0x08) ||| 0x02, axes := 0, mask := 0,
                                     arg0 := 2, arg1 := 0 }
        bumpBy 0x7837 2 (bumpKind 0x1F 0 (s.modLog fun l => { l with queue := (o :: r).reverse, next := l.next + 1 }))

/-- Whether Aster holds every Peony record of a tick or earlier (R221). -/
def holdsUpTo (s : State) (t : W32) : Bool := match s.log.upTo with
  | some u => tickLe t u
  | none => false

/-- The merge order of held entries: by tick, a record of Peony first, then a COMMIT entry, then by die sequence number
(R27, R224). -/
def entryBefore (a b : LogEntry) : Bool :=
  if a.tick = b.tick then
    if a.flags.getLsbD 0 != b.flags.getLsbD 0 then a.flags.getLsbD 0
    else if (a.kind == 0x21) != (b.kind == 0x21) then a.kind == 0x21 else a.dseq < b.dseq
  else modDist a.tick b.tick > 0

/-- Inserts an entry into the hold in merge order. -/
def holdPut (e : LogEntry × W48) : List (LogEntry × W48) → List (LogEntry × W48)
  | [] => [e]
  | h :: r => if entryBefore e.1 h.1 then e :: h :: r else h :: holdPut e r

/-- Whether a commit runs, which holds PARAM from one step to the next (R113); the load of the complete Peony side is none. -/
def State.committing (s : State) : Bool := s.commit.any fun c => !c.load

/-- Whether a commit may still be applied at the tick t or an earlier one, so that its entry goes first (R224). -/
def commitAhead (s : State) (t : W32) : Bool :=
  s.commit.any fun c => !c.load && c.applied.isNone && c.sw.any fun u => tickLe u t

/-- Lets the entries of the hold whose condition is met enter the queue, in merge order (R221): a record of Peony needs
none. An Aster entry waits while the commit that stands before it is not decided (R224), for the 2 ms of R221 (DESIGN CHOICE,
log 126). During a host-core restart none enters (R123). -/
def releaseHold (s : State) : State :=
  let r := if s.host.restart.isSome then []
    else s.log.hold.takeWhile fun e => e.1.flags.getLsbD 0 || (holdsUpTo s e.1.tick && !commitAhead s e.1.tick)
  forAll r (fun e s => logEnter e.1 s) (s.modLog fun l => { l with hold := l.hold.drop r.length })

/-- Produces an Aster entry with its stamps: it takes its die sequence number, is counted, and waits in the hold (R27, R221,
R646). -/
def logStamped (t : W32) (at_ : W48) (kind : Nat) (axes : BitVec 2) (arg0 : Nat) (arg1 : Nat) (s : State) : State :=
  let flags : Byte := (if isFaultKind kind then 2 else 0) ||| (if s.pwr.disc then 8 else 0)
  let e : LogEntry := { lseq := 0, tick := t, etime := at_, flags := flags, kind := kind,
                        dseq := BitVec.ofNat 32 s.log.dseq, axes := axes, mask := 0, arg0 := BitVec.ofNat 16 arg0,
                        arg1 := BitVec.ofNat 32 arg1, pin := false }
  let s := s.modLog fun l => { l with dseq := min 0xFFFFFFFF (l.dseq + 1), hold := holdPut (e, s.etime) l.hold }
  releaseHold (bumpKind kind axes s)

/-- Produces an Aster entry of the present tick. -/
def logAster (kind : Nat) (axes : BitVec 2) (arg0 : Nat) (arg1 : Nat) (s : State) : State :=
  logStamped s.tick s.etime kind axes arg0 arg1 s

/-- ETIME of a tick boundary as it was recorded (R52): that of the tick, of the oldest recorded one where it lies further
back, and the present time for a tick that has not begun. -/
def State.boundary (s : State) (t : W32) : W48 := match s.bounds.find? fun b => b.1 == t with
  | some b => b.2
  | none => if modDist t s.tick > 0 then (s.bounds.getLast?.map (·.2)).getD s.etime else s.etime

/-! ### Faults and FLT_L -/

/-- The tick that a notice of a fault latched names. -/
def noticeTick (n : Notice) : Option Nat :=
  if n.cls = 0 && startsWith n.text (txt "fault ") then readDigits 10 ((n.text.dropWhile (· != '@')).drop 1) else none

/-- Places a notice of a fault latched at a tick before those of the faults latched later (R234). -/
def noticeBefore (t : W32) (n : Notice) : List Notice → List Notice
  | [] => [n]
  | m :: r =>
    if (noticeTick m).any fun u => modDist t (BitVec.ofNat 32 u) > 0 then n :: m :: r else m :: noticeBefore t n r

/-- The notices that a host-core restart holds back go out in the order in which the faults were latched (R234): the one that was
queued last, with a text and a tick, takes its place. -/
def latchOrder (text : Text) (t : W32) (s : State) : State :=
  s.modSes .h fun se => { se with notices := match se.notices.getLast? with
    | some m => if m.text == text then noticeBefore t m se.notices.dropLast else se.notices
    | none => [] }

/-- `! fault <name> <axes> @<tick>` (Table 5-6). During an entry into WATCH it waits for the exit (R486); during a host-core restart
it waits in latch order (R234). -/
def faultNotice (word : String) (name : Text) (axes : BitVec 2) (t : W32) (s : State) : State :=
  if s.pwr.watch then s
  else
    let text := txt word ++ ' ' :: name ++ ' ' :: axesText axes ++ txt " @" ++ dec t.toNat
    when_ s.host.restart.isSome (latchOrder text t) (notice 0 text s)

/-- FLT_L as it stands on the line: low in the link reset, while a die drives it outside a training attempt, and while
something outside pulls it (R79, R81, R623, R744). -/
def State.fltLine (s : State) : Bool := s.link.held || s.link.outside || (!s.link.freed && (s.link.flt || s.pe.flt))

/-- FLT_N follows R25 in RUN: low while FLT_L is low or a fault is latched; in SAFE and before B10 it is low
(R634, R684). -/
def fltPin (s : State) : State :=
  { s with fltN := if s.dev = .run then s.fltN || s.fltLine || !s.faults.isEmpty
                   else s.fltN }

/-- Aster asserts FLT_L (R22, R79); Peony answers, or acts on RELEASE, and then holds both axes (R23, R302). -/
def asterFlt (s : State) : State :=
  fltPin (s.modLink fun l => { l with flt := true, low := true, rests := 3, lowAt := if l.low then l.lowAt else s.etime })

/-- Ends a line that waits for the loop engine on an axis. -/
def endAxisWait (x : Axis) (p : AxCmd → Bool) (reply : Text) (s : State) : State :=
  forAll (waiters s fun w => match w with
    | .axis sel c => (selAxes sel).contains x && p c
    | _ => false) (fun k s => answer k.1 reply s) s

/-- Closes the clear windows of the named axes on every session (R303). -/
def closeWindows (m : BitVec 2) (s : State) : State :=
  { s with sess := s.sess.map fun se =>
      { se with clearWin := { a := if hasAxis m .a then none else se.clearWin.a,
                              b := if hasAxis m .b then none else se.clearWin.b } } }

/-- The axes whose CLEAR is on its way in the DOWN frame of this tick (R302). -/
def clearOnWay (s : State) : BitVec 2 := match s.link.down with
  | some f => (if f.ga.cmd = 6 then 1 else 0) ||| (if f.gb.cmd = 6 then 2 else 0)
  | none => 0

/-- A fault on axes stands against the `clear` lines whose CLEAR is still to go out: each ends with `err 36`, and its CLEAR does not
go out (R301, R302). A CLEAR that is on its way keeps its effect on the faults that stood when it left (log 110). -/
def refuseClears (axes : BitVec 2) (s : State) : State :=
  let way := clearOnWay s
  let s := forAll (waiters s fun w => match w with
      | .clearSent sel => (selAxes sel).any (hasAxis axes) && selMask sel &&& way == 0
      | _ => false)
    (fun k s => answer k.1 (errText 36 none) s) s
  let left := (waiters s fun w => match w with | .clearSent _ => true | _ => false).foldl (fun m k => match k.2 with
    | .clearSent sel => m ||| selMask sel
    | _ => m) 0
  s.modLink fun l => { l with clear := l.clear &&& (left ||| way) }

/-- A fault is latched on the device (R25, R301): the clear windows of its axes close, a `clear` of one of them whose CLEAR has not
left ends with `err 36`, its notice goes out and FLT_N falls. -/
def latchFault (f : AFault) (s : State) : State :=
  let s := closeWindows f.axes (fltPin { s with faults := s.faults ++ [f], fltN := true })
  let s := refuseClears f.axes s
  faultNotice "fault" (kindText f.kind) f.axes f.tick s

/-- Whether a fault is latched on an axis (R301). -/
def State.latchedOn (s : State) (x : Axis) : Bool := s.faults.any fun f => hasAxis f.axes x

/-- Whether a class S fault is latched on an axis (R154). -/
def State.classS (s : State) (x : Axis) : Bool := s.faults.any fun f => hasAxis f.axes x && (f.kind == 1 || f.kind == 2)

end Sys2Proof.Machine
end

