-- ==== Sys2Proof/Machine/Ledger.lean ====
section
/-! DEFINITION. The tick ledger and the fit of a set: the D cost of R43, the centre plan of R97, the fit test of R44 and
the test of a bus schedule of R523 and R537. A set is a function from parameter IDs to values, so that a set under
commit is judged like the set in force. -/

namespace Sys2Proof.Machine

/-- A parameter set: its value at each ID. -/
abbrev PSet := Nat → Int

/-- The set in force. -/
def State.set (s : State) : PSet := s.par

/-- The set in force with entries applied. -/
def State.setWith (s : State) (ents : Store) : PSet := fun id => (storeGet ents id).getD (s.par id)

/-- The commutation mode of an axis in a set (Table 11-1). -/
def setMode (v : PSet) (x : Axis) : Nat := (v (axId x 0x020)).toNat

/-- The operations of an axis per tick (Table 2-3): `off` and `direct` count as disarmed. -/
def axisCost (v : PSet) (x : Axis) : Nat := match setMode v x with
  | 1 => 160 + 80 + 24
  | 2 => 280 + 80 + 24
  | 3 => 400 + 80 + 24
  | 4 => 560 + 80 + 24
  | _ => 16

/-- The D cost of a set (R43). -/
def dCost (v : PSet) : Nat :=
  48 + axisCost v .a + axisCost v .b + (if v 0x0050 != 0 then 48 else 0) + (if v 0x21B0 == 1 then 32 else 0)

/-- Whether both axes are configured (R97). -/
def bothConfigured (v : PSet) : Bool := setMode v .a != 0 && setMode v .b != 0

/-- The base number of centre pairs (Table 4-2). -/
def basePairs (v : PSet) : Nat :=
  let sc := if v 0x0050 != 0 then 1 else 0
  (if bothConfigured v then 4 else if setMode v .a != 0 || setMode v .b != 0 then 2 else 1) + sc

/-- `tick.adc.repeat.eff` (R329). -/
def repeatEff (v : PSet) : Int := if v 0x0050 != 0 && bothConfigured v then min (v 0x3402) 2 else v 0x3402

/-- The number of centre pairs k: the base k plus r (R98). -/
def centrePairs (v : PSet) : Nat := basePairs v + (repeatEff v).toNat

/-- The tick length in clocks (R35). -/
def setP (v : PSet) : Nat := tickLen (v 0x3400).toNat

/-- The tick length that the fit test uses: 2 % shorter, in whole even clocks, while `bus.tick_align` is on (R537). -/
def fitP (v : PSet) : Nat := if v 0x5009 == 1 then 2 * (setP v * 98 / 200) else setP v

/-- The length of the post-centre group, T/2 - 4,400 ns - 200k ns, in units of 6.25 ns (R38, R44). -/
def groupLen (v : PSet) : Int := (fitP v : Int) - 704 - 32 * (centrePairs v : Int)

/-- `stat.tick.d_spare` in ns, rounded down (R44). -/
def dSpare (v : PSet) : Int := (groupLen v - (dCost v : Int)) * 25 / 4

/-- Whether a set fits the ledger (R44). -/
def fitsLedger (v : PSet) : Bool := (dCost v : Int) ≤ groupLen v

/-- The IDs that enter the fit (R44). -/
def fitIds : List Nat := [0x0050, 0x1020, 0x11B0, 0x2020, 0x21B0, 0x3400, 0x3402, 0x5009]

/-- The entry that `err 35 LEDGER_FIT` names (R44). -/
def fitName (s : State) (ents : Store) : Nat :=
  let worse (e : Nat × Int) : Bool :=
    let v := s.setWith [e]
    dCost s.set < dCost v || groupLen v < groupLen s.set
  match ents.find? worse with
  | some e => e.1
  | none => match ents.find? (fun e => fitIds.contains e.1) with
    | some e => e.1
    | none => match ents with
      | e :: _ => e.1
      | [] => 0

/-! ### The bus schedule -/

/-- A number of 80 MHz clocks per unit of a rate, halves rounded up (R35, R163, R518). -/
def clocksFor (rate : Nat) : Nat := (160000000 + rate) / (2 * rate)

/-- The bit time of the bus in clocks (R518). -/
def busBit (v : PSet) : Nat := clocksFor (v 0x5001).toNat

/-- The schedule word of a slot (Table 16-3). -/
def schedWord (v : PSet) (n : Nat) : Nat := (v (0x5100 + n)).toNat
def slotStart (w : Nat) : Nat := w % 2 ^ 17
def slotLen (w : Nat) : Nat := w / 2 ^ 17 % 64
def slotOwner (w : Nat) : Nat := w / 2 ^ 23 % 32
def slotKind (w : Nat) : Nat := w / 2 ^ 28 % 4

/-- The span of a slot in clocks from the cycle reference (R523). -/
def slotSpan (v : PSet) (w : Nat) : Nat × Nat :=
  (80 * slotStart w, 80 * slotStart w + ((7 + slotLen w) * 10 + 2) * busBit v + 8 * (v 0x5004).toNat)

/-- The span of the cycle start frame (R523). -/
def csfSpan (v : PSet) : Nat × Nat := (0, 102 * busBit v + 8 * (v 0x5004).toNat)

/-- Whether two spans overlap. -/
def spansMeet (a b : Nat × Nat) : Bool := a.1 < b.2 && b.1 < a.2

/-- Whether no two spans of a list overlap. -/
def spansApart : List (Nat × Nat) → Bool
  | [] => true
  | a :: r => r.all (fun b => !spansMeet a b) && spansApart r

/-- The slots that a schedule uses. -/
def usedSlots (v : PSet) : List (Nat × Nat) :=
  ((List.range 64).map fun n => (n, schedWord v n)).filter fun p => slotKind p.2 != 0

/-- Whether a slot belongs to the exchanges of a node (R523): it owns the slot, a receive buffer or the group slot names
it, or it is a tunnel slot of a peer. The master's peers are all other nodes, a slave's peer is node 0 (R545). -/
def countsFor (v : PSet) (node : Nat) (p : Nat × Nat) : Bool :=
  slotOwner p.2 == node || ((List.range 8).any fun k => v (0x5300 + 0x10 * k) == (p.1 : Int)) || v 0x500B == (p.1 : Int) ||
  (slotKind p.2 == 2 && (node == 0 || slotOwner p.2 == 0))

/-- Slot exchanges in a ms (R101, R523). -/
def exchangesPerMs (v : PSet) (node : Nat) : Nat :=
  let c := max 1 (v 0x5002).toNat
  ((usedSlots v).filter (countsFor v node)).length * ((1000 + c - 1) / c)

/-- Whether a schedule keeps the conditions of R523. -/
def scheduleOk (v : PSet) (node : Nat) : Bool :=
  let used := usedSlots v
  let spans := used.map fun p => slotSpan v p.2
  spansApart (csfSpan v :: spans) &&
  spans.all (fun sp => sp.2 + 8 * (v 0x5004).toNat ≤ 80 * (v 0x5002).toNat) &&
  v 0x5003 < v 0x5002 &&
  used.all (fun p => slotKind p.2 != 3 && (slotKind p.2 != 2 || slotLen p.2 == 32)) &&
  exchangesPerMs v node ≤ 60

/-- Whether the cycle is a whole number of ticks while `bus.tick_align` is on (R537). -/
def alignOk (v : PSet) : Bool := v 0x5009 != 1 || (80 * (v 0x5002).toNat) % setP v == 0

/-- Check 6 of Table 6-3: the ID that `err 35 LEDGER_FIT` names, none when the set fits. The tests are made in the order
R44, R523 with R101, R537 (log 12). -/
def ledgerCheck (s : State) (ents : Store) : Option Nat :=
  let v := s.setWith ents
  if !fitsLedger v then some (fitName s ents)
  else match ents.find? (fun e => 0x5000 ≤ e.1 && e.1 < 0x5800) with
    | some e => if !scheduleOk v s.bus.node then some e.1 else if !alignOk v then some 0x5009 else none
    | none => if !alignOk v then some 0x5009 else none

end Sys2Proof.Machine
end

