-- ==== Sys2Proof/Machine/Operands.lean ====
section
/-! DEFINITION. The operands of Forul lines: how a parameter is named (R143), the forms of a written value (R144-R147),
the form of a value in a reply (R150), the `.eff` twins (Table 24-5), the access checks (Table 18-2) and the data lines of
`info` and `list` (R726, R727). -/

namespace Sys2Proof.Machine

/-! ### Names -/

/-- Reads a reference to a parameter from a token (R143): `@0x` and four digits, or a dotted name, each with `.eff` or
without. -/
def readRef (t : Text) : ParRef :=
  let r := t.reverse
  let eff := startsWith r (txt "ffe.")
  let base := if eff then (r.drop 4).reverse else t
  match base with
  | '@' :: '0' :: 'x' :: ds =>
    if ds.length = 4 then match readDigits 16 ds with
      | some n => .id n eff
      | none => .name base eff
    else .name base eff
  | _ => .name base eff

/-- The parameter that a reference names; `.eff` on a parameter without a twin names nothing (R143). -/
def findRef : ParRef → Option (Par × Bool)
  | .name n eff => match parByName n with
    | some p => if eff && !hasTwin p.id then none else some (p, eff)
    | none => none
  | .id n eff => match parById n with
    | some p => if eff && !hasTwin p.id then none else some (p, eff)
    | none => none

/-- `err 20 NO_PARAM`, with the ID when the reference is one (R143, R168). -/
def noParam (k : Call) (r : ParRef) (s : State) : State := match r with
  | .id n _ => failAt k 20 n s
  | .name _ _ => fail k 20 s

/-! ### Units (Table 5-3) -/

/-- The symbols with the prefixes they accept. -/
def unitTable : List (String × List String) :=
  [ ("A", ["n", "u", "m"]), ("V", ["u", "m", "k"]), ("W", ["m", "k"]), ("Ohm", ["m", "k", "M"]), ("Hz", ["k", "M"]),
    ("s", ["n", "u", "m"]), ("tk", []), ("C", []), ("%", []), ("cnt", ["k", "M"]), ("cnt/s", ["k", "M"]), ("B", ["k"]) ]

/-- The power of ten of a prefix. -/
def prefixExp (p : String) : Int :=
  if p == "n" then -9 else if p == "u" then -6 else if p == "m" then -3 else if p == "k" then 3
  else if p == "M" then 6 else 0

/-- Reads a suffix: its prefix and symbol; none when it has not that shape (R145). -/
def readSuffix (t : Text) : Option (String × String) :=
  let all := unitTable.flatMap fun u => ("", u.1) :: u.2.map fun p => (p, u.1)
  all.find? fun u => t == txt u.1 ++ txt u.2

/-! ### Written values (R144-R147) -/

/-- A number as written: mantissa, digits after the point, and what follows the number. -/
structure Num where
  mant : Int
  frac : Nat
  rest : Text
  deriving DecidableEq, Repr

/-- Splits a run of decimal digits off a text. -/
def digitsOf (t : Text) : Text × Text := (t.takeWhile Char.isDigit, t.dropWhile Char.isDigit)

/-- Reads a decimal number with an optional sign, and with an optional point when that is allowed. -/
def readDecimal (point : Bool) (t : Text) : Option Num :=
  let sg := match t with
    | '-' :: r => (true, r)
    | '+' :: r => (false, r)
    | r => (false, r)
  let a := digitsOf sg.2
  let fr := match a.2 with
    | '.' :: r => if point then digitsOf r else ([], a.2)
    | r => ([], r)
  let ds := a.1 ++ fr.1
  match readDigits 10 ds with
  | none => none
  | some n => some { mant := if sg.1 then -(n : Int) else n, frac := fr.1.length, rest := fr.2 }

/-- The result of reading a value: its steps, or the code of the error. -/
inductive ValRes where
  | ok (v : Int)
  | err (code : Nat)
  deriving DecidableEq, Repr

/-- The range check of R147. -/
def inRange (p : Par) (v : Int) : ValRes := if p.lo ≤ v ∧ v ≤ p.hi then .ok v else .err 13

/-- A number with its suffix in steps of num / 10^k of the parameter's unit, rounded half away from zero
(R145, R146). -/
def scaled (p : Par) (num k : Nat) (n : Num) : ValRes :=
  let steps (e : Int) : Int :=
    let x := e - prefixExp p.unit.pre - n.frac + k
    roundAway (n.mant * 10 ^ x.toNat) (num * 10 ^ (-x).toNat)
  if n.rest.isEmpty then inRange p (steps (prefixExp p.unit.pre))
  else match readSuffix n.rest with
    | none => .err 17
    | some u => if u.2 != p.unit.sym then .err 14 else inRange p (steps (prefixExp u.1))

/-- Reads a value for a parameter (Table 5-2). No parameter has the type text. -/
def readValue (p : Par) (t : Text) : ValRes := match p.kind with
  | .enum ws => match ws.findIdx? fun w => txt w == t with
    | some i => .ok i
    | none => .err 17
  | .bool =>
    if t == txt "on" || t == txt "1" then .ok 1 else if t == txt "off" || t == txt "0" then .ok 0 else .err 17
  | .mask _ => match t with
    | '0' :: 'x' :: ds => match readDigits 16 ds with
      | some n => inRange p n
      | none => .err 17
    | '0' :: 'b' :: ds => match readDigits 2 ds with
      | some n => inRange p n
      | none => .err 17
    | _ => .err 17
  | .int _ _ => match t with
    | '0' :: 'x' :: ds => match readDigits 16 ds with
      | some n => inRange p n
      | none => .err 17
    | '0' :: 'b' :: ds => match readDigits 2 ds with
      | some n => inRange p n
      | none => .err 17
    | _ => match readDecimal false t with
      | some n => scaled p 1 0 n
      | none => .err 17
  | .fix num k => match readDecimal true t with
    | some n => if t.length - n.rest.length > 12 then .err 17 else scaled p num k n
    | none => .err 17
  | .u48 => .err 17
  | .text _ => .err 17

/-! ### Values in replies (R150) -/

/-- The unit as it is attached to a value. -/
def unitText (u : PUnit) : Text := txt u.pre ++ txt u.sym

/-- A value in the form of a reply. The one address among the integers, `pwr.pmbus.addr`, is hexadecimal (R10). -/
def showValue (p : Par) (v : Int) : Text := match p.kind with
  | .int _ _ => if p.id = 0x4021 then txt "0x" ++ hex 2 v.toNat else decI v ++ unitText p.unit
  | .u48 => decI v ++ unitText p.unit
  | .fix num k => fixText (v * num) k ++ unitText p.unit
  | .enum ws => txt (ws.getD (min v.toNat (ws.length - 1)) "")
  | .bool => txt (if v = 0 then "off" else "on")
  | .mask n => txt "0x" ++ hex ((n + 3) / 4) v.toNat
  | .text _ => ['"', '"']

/-- The same with `-` for a value not yet produced. -/
def showOpt (p : Par) : Option Int → Text
  | some v => showValue p v
  | none => ['-']

/-! ### Bands and twins (Table 24-5) -/

/-- The band of a zone as the limits use it; before the first evaluation that of a cleared band code (log 14). Zones:
0 ZDA, 1 ZDB, 2 ZCH, 3 ZPC, 4 ZAC, 5 ZNV. -/
def State.band (s : State) (z : Nat) : Nat := (nth s.temp.zone z none).getD 0

/-- The band of the driver zone of an axis. -/
def State.driverBand (s : State) (x : Axis) : Nat := s.band (axIdx x)

/-- The highest band among the Peony zones, B5 taken as B4 (Table 13-6). -/
def State.hotBand (s : State) : Nat := min 4 (max (max (s.band 0) (s.band 1)) (max (s.band 2) (s.band 3)))

/-- The slew cap of a band (Table 8-3), B5 as B4 (R255). -/
def slewCap (b : Nat) : Nat := match b with
  | 0 => 6
  | 1 => 8
  | 2 => 8
  | 3 => 6
  | _ => 4

/-- The minimum dead time of a band in clocks of 12.5 ns (Table 8-3), B5 as B4. -/
def deadMin (b : Nat) : Nat := match b with
  | 0 => 12
  | 1 => 8
  | 2 => 8
  | 3 => 10
  | _ => 14

/-- The effective slew step (R247). -/
def slewEff (b step : Nat) : Nat := min step (slewCap b)

/-- The effective dead time in clocks (R254). -/
def deadEff (b dead marg : Nat) : Nat := min 256 (max dead (deadMin b) + marg)

/-- The derating of a band in per cent (R360). -/
def derate (b : Nat) : Nat := match b with
  | 3 => 75
  | 4 => 40
  | _ => 100

/-- The gain of a sense amplifier by its code (R281). -/
def gainOf (c : Int) : Nat := 5 * 2 ^ c.toNat

/-- `prot.release_i` in counts of an axis: rounded down, 1-2047 (R296). -/
def releaseCounts (v : PSet) (x : Axis) : Nat :=
  max 1 (min 2047 ((v 0x4820).toNat * (v (axId x 0x071)).toNat * gainOf (v (axId x 0x070)) * 4096 / 33000000))

/-- The current limit in force in mA (R360): the written limit with its derating, and 0.9 x 1.65 V / (G x Rsh). -/
def limitOf (s : State) (v : PSet) (x : Axis) : Rat :=
  let g := gainOf (v (axId x 0x070))
  let r := (v (axId x 0x071)).toNat
  min (((v (axId x 0x040) * derate s.hotBand : Int) : Rat) / 100) (148500000 / ((g * r : Nat) : Rat))

/-- `axX.cur.limit.eff` in mA, which is the limit in force everywhere (R13, R360, log 13). -/
def limitEff (s : State) (v : PSet) (x : Axis) : Int := freeRound 0x1040 (limitOf s v x)

/-- `axX.mot.vlim` in cnt/s (R389). -/
def vlimOf (v : PSet) (x : Axis) : Int :=
  if v (axId x 0x1A2) = 1 then
    freeRound 0x118B (min 20000000 (((16 * v (axId x 0x1A1) * roundUp 800000000 (setP v) : Int) : Rat) / 10))
  else 20000000

/-- The active limit of R396 in mA: 0.6 of the limit in force in sense reconstruction, 0.5 in limp. -/
def activeLimit (s : State) (v : PSet) (x : Axis) : Rat := match (s.loop.get x).degr with
  | .none => limitEff s v x
  | .recon _ => (limitEff s v x : Rat) * 6 / 10
  | .limp _ => (limitEff s v x : Rat) / 2

/-- The ceiling of VM_CLASS in 0.1 V (R566). -/
def vmCeiling (s : State) : Int := match (s.otp.wrow.extractLsb' 4 2).toNat with
  | 0 => 780
  | 1 => 620
  | 2 => 480
  | _ => 300

/-- `prot.vov.eff`, `prot.vbrk_on.eff`, `prot.vbrk_off.eff` in 0.1 V (R566, R292). -/
def vovEff (s : State) (v : PSet) : Int := min (v 0x4813) (vmCeiling s)
def vbrkOnEff (s : State) (v : PSet) : Int := min (v 0x4810) (vovEff s v - 10)
def vbrkOffEff (s : State) (v : PSet) : Int := min (v 0x4811) (vbrkOnEff s v - 10)

/-- The charger current limit in force in mA (R458). -/
def chgLimit (v : PSet) : Rat := min 3000 (500000 / ((v 0x4402).toNat : Rat))

/-- `chg.i_max.eff` in 0.01 A (R458, log 13). -/
def chgMax (v : PSet) : Int := freeRound 0x4415 (chgLimit v / 10)

/-- A twin and the value it would have without its limit, in the steps that its reply shows (Table 24-5). The twins of
`tick.freq`, `host.h.baud` and `bus.rate` are in steps of 0.1. -/
def twinOf (s : State) (v : PSet) (id : Nat) : Int × Int :=
  let x := if 0x2000 ≤ id ∧ id < 0x3000 then Axis.b else Axis.a
  let w := v id
  let one (e : Int) : Int × Int := (e, w)
  match baseId id with
  | 0x3400 => (roundUp 800000000 (setP v), w)
  | 0x3402 => one (repeatEff v)
  | 0x5800 => (roundUp 800000000 s.host.bit, w)
  | 0x5001 => (roundUp 800000000 (busBit v), w)
  | 0x0060 => one (if s.pwr.xtal then s.bootPar 0x0060 else 0)
  | 0x1061 => one (slewEff (s.driverBand x) w.toNat)
  | 0x1062 => one (slewEff (s.driverBand x) w.toNat)
  | 0x1060 =>
    let b := s.driverBand x
    let marg := v (axId x (0x064 + min b 4))
    (deadEff b w.toNat marg.toNat, w + marg)
  | 0x1063 => one w
  | 0x1040 => one (limitEff s v x)
  | 0x1044 => one (min w (limitEff s v x))
  | 0x1072 => one (min w (freeRound 0x1072 ((limitEff s v x : Rat) / 50)))
  | 0x1190 => one (min w (freeRound 0x1190 (activeLimit s v x * 9 / 100)))
  | 0x11C4 => one (min w (freeRound 0x11C4 ((limitEff s v x : Rat) / 10)))
  | 0x4813 => one (vovEff s v)
  | 0x4810 => one (vbrkOnEff s v)
  | 0x4811 => one (vbrkOffEff s v)
  | 0x4403 => one (min w (chgMax v))
  | 0x4412 => one (min w (chgMax v))
  | 0x4415 => (chgMax v, chgMax v)
  | 0x4410 => one (min w (vbrkOnEff s v - 10))
  | 0x4010 => one (if s.pwr.batLow then max w (min (4 * w) 2000) else w)
  | i => if 0x1100 ≤ i ∧ i < 0x1180 ∧ i % 16 = 2 then one (min w (vlimOf v x)) else one w

/-- The value in force of a parameter of the set in force: its twin where it has one (R13). -/
def State.eff (s : State) (id : Nat) : Int := if hasTwin id then (twinOf s s.set id).1 else s.par id

/-- The value in force of a parameter of an axis. -/
def State.axEff (s : State) (x : Axis) (o : Nat) : Int := s.eff (axId x o)

/-- The twins whose cuts do not count, or that have no written value to cut (Table 24-5). -/
def noCount : List Nat := [0x3400, 0x5800, 0x5001, 0x0060, 0x1063, 0x4415, 0x4010]

/-- Counts the cuts of written entries once each, when they enter the set in force (R148, R184). -/
def countCuts (ents : Store) (s : State) : State :=
  forAll ents (fun e s =>
    if hasTwin e.1 && !noCount.contains (baseId e.1) then
      let t := twinOf s s.set e.1
      when_ (t.1 != t.2) (bump 0x0010) s
    else s) s

/-- The form in which a twin is shown: that of its base, or fix 0.1 (R728). -/
def twinPar (p : Par) : Par :=
  if p.id = 0x3400 ∨ p.id = 0x5800 ∨ p.id = 0x5001 then { p with kind := .fix 1 1 } else p

/-! ### Access (Table 18-2) -/

/-- Whether a level reaches another. -/
def reaches (l need : Level) : Bool := levelNum need ≤ levelNum l

/-- The read level of a parameter (R723). -/
def readLevel (p : Par) : Level := if p.id = 0x7010 then .factory else .user

/-- The bit of `sys.lock.mask` for the root of an ID (R205, Table 24-1). -/
def rootBit (id : Nat) : Nat :=
  if id < 0x1000 then 0 else if id < 0x2000 then 1 else if id < 0x3000 then 2 else if id < 0x3400 then 3
  else if id < 0x3800 then 4 else if id < 0x4000 then 5 else if id < 0x4400 then 6 else if id < 0x4800 then 7
  else if id < 0x5000 then 8 else if id < 0x5800 then 9 else if id < 0x6000 then 10 else if id < 0x6400 then 11
  else if id < 0x6800 then 12 else if id < 0x7000 then 13 else if id < 0x7800 then 14 else 15

/-- Whether a lock covers a write of an ID from a level: a root lock against USER and INSTALLER, a lock entry of CUST
against every level, TMUX_LOCK for `tmux.a.conv` (R205, R206, R666). -/
def lockedFor (s : State) (l : Level) (id : Nat) : Bool :=
  (l != .factory && id != 0x0030 && (s.parN 0x0030).testBit (rootBit id)) ||
  s.prm.locks.any (fun e => e.1 ≤ id && id ≤ e.2) || (id == 0x7002 && s.otp.wrow.getLsbD 3)

/-- The first failing check of a write at a level (Table 18-2, checks 2 to 5): the error code. -/
def writeCheck (s : State) (l : Level) (bundle : Bool) (p : Par) (eff : Bool) : Option Nat :=
  match p.write with
  | none => some 21
  | some need =>
    if eff then some 21
    else if !reaches l need then some 22
    else if lockedFor s l p.id then some 23
    else if !bundle && s.otp.wrow.getLsbD 10 && need != .user then some 25
    else none

/-- Checks a write of a session and reads its value: runs a continuation with the parameter and the value, or answers
the first check that fails (R596, R144-R147). The two selections of the test multiplexers answer `err 30` (R663). -/
def withWrite (k : Call) (r : ParRef) (t : Text) (f : Par → Int → State → State) (s : State) : State :=
  match findRef r with
  | none => noParam k r s
  | some (p, eff) => match writeCheck s (s.ses k.x).level false p eff with
    | some c => failAt k c p.id s
    | none =>
      if p.eff == .tmux then failAt k 30 p.id s
      else match readValue p t with
        | .err c => failAt k c p.id s
        | .ok v => f p v s

/-- Checks a read of a session (R596). -/
def withRead (k : Call) (r : ParRef) (f : Par → Bool → State → State) (s : State) : State :=
  match findRef r with
  | none => noParam k r s
  | some (p, eff) =>
    if !reaches (s.ses k.x).level (readLevel p) then failAt k 22 p.id s else f p eff s

/-! ### `info` and `list` (Table 24-4, R727) -/

/-- The word of an effect class. -/
def effText : Eff → Text
  | .now => txt "now"
  | .switch => txt "switch"
  | .idle => txt "idle"
  | .line => txt "line"
  | .reset => txt "reset"
  | .tmux => txt "-"

/-- The `| type` text. -/
def typeText (p : Par) : Text := match p.kind with
  | .int bits sg => txt (if sg then "int" else "uint") ++ dec bits
  | .u48 => txt "uint48"
  | .fix num k => txt "fix " ++ fixText num k ++ unitText p.unit
  | .enum ws => txt "enum " ++ joinWith [','] (ws.map txt)
  | .bool => txt "bool"
  | .mask n => txt "mask " ++ dec n
  | .text n => txt "text " ++ dec n

/-- Whether a type shows a range. -/
def hasRange (k : PKind) : Bool := match k with
  | .int _ _ => true
  | .fix _ _ => true
  | _ => false

/-- Whether a parameter is one that only the `tmux` command writes. -/
def Par.isTmux (p : Par) : Bool := p.eff == .tmux

/-- The data lines of `info` (R726). A twin has no lines of its own: those of its base are given, read-only. -/
def infoLines (s : State) (p : Par) (eff : Bool) : List Text :=
  let q := if eff then twinPar p else p
  let w := if eff then none else p.write
  [ txt "id 0x" ++ hex 4 p.id,
    txt "type " ++ typeText q,
    txt "unit " ++ (if q.unit.sym == "" then ['-'] else txt q.unit.sym),
    txt "range " ++ (if w.isNone || !hasRange q.kind then ['-'] else showValue q q.lo ++ txt ".." ++ showValue q q.hi),
    txt "default " ++ (if w.isNone then ['-'] else showValue q (s.defaultOf p.id)),
    txt "access " ++ levelText (readLevel p) ++ ' ' :: (match w with | some l => levelText l | none => ['-']),
    txt "effect " ++ (if w.isNone then ['-'] else effText p.eff ++ (if p.vol then txt " volatile" else [])) ]

/-- Whether a name begins with a prefix, segment by segment (R727). A point at the end of the prefix, as Table 24-1 writes
a root, ends its last segment. -/
def segPrefix (pre name : Text) : Bool :=
  let pre := match pre.reverse with
    | '.' :: r => r.reverse
    | _ => pre
  startsWith name pre && (match name.drop pre.length with | [] => true | c :: _ => c == '.')

/-- The data lines of `list` (R727). -/
def listLines (l : Level) (pre : Text) : List Text :=
  (allPars.filter fun p => reaches l (readLevel p) && segPrefix pre p.name.toList).map fun p => p.name.toList

end Sys2Proof.Machine
end

