-- ==== Sys2Proof/Machine/Axis.lean ====
section
/-! DEFINITION. How an axis stops: the end of a motion and its record (R397, R730), the stop of an axis (R397, Table
11-3), and a fault that Aster decides (R22, R79, R294). -/

namespace Sys2Proof.Machine

/-- Both axes. -/
def axes2 : List Axis := [.a, .b]

/-- The position of an axis as ARG1 of a log entry (Table 20-2). -/
def posArg (s : State) (x : Axis) : Nat := (s.pos.get x).pos.toNat

/-- A group command is not executed (R540). -/
def grpFail (gseq : Byte) (axes : BitVec 2) (pos : Nat) (s : State) : State :=
  bump 0x78AB (logAster 0x36 axes gseq.toNat pos s)

/-- The hand-over of a group command that waits comes to nothing: it is recorded (R540, R541, R552). -/
def ungroup (x : Axis) (s : State) : State := match (s.loop.get x).grpHand with
  | none => s
  | some g => grpFail g (axBit x) (posArg s x) (s.modLoop x fun l => { l with grpHand := none })

/-- A signed number in 16 bits, for ARG0 (Table 20-2). -/
def arg16 (i : Int) : Nat := ofSigned 16 i

/-- Milliamperes of a current, rounded half up. -/
def mA (q : Rat) : Int := freeRound 0x198 (q * 1000)

/-- Whether a motion state counts as moving (R397). -/
def MotState.moving : MotState → Bool
  | .run | .stopping | .reversing | .assist => true
  | .idle | .hold => false

/-- Whether an axis moves. -/
def State.moving (s : State) (x : Axis) : Bool := (s.mot.get x).st.moving

/-- `axX.state` is READY or MOVING: the loop engine's READY covers both (R397). -/
def State.ready (s : State) (x : Axis) : Bool := (s.loop.get x).st == .ready || (s.loop.get x).st == .moving

/-- Whether an axis is armed: it has left DISARMED and is not LATCHED. -/
def State.armed (s : State) (x : Axis) : Bool := !s.disarmed x

/-- A coupled pair (R401). -/
def State.coupled (s : State) : Bool := s.axp .b 0x1B0 == 1

/-- Ends the motion of an axis with a result: the state that follows, and the record of R730 when the motion entered RUN
from IDLE or HOLD. The open record holds the reference at the start in `dist`, and -1 in `iMax` until F has been computed. A leader keeps its profile for the reaction of a follower that still moves
(R404). -/
def endMotion (x : Axis) (r : MotResult) (next : MotState) (s : State) : State :=
  let p := (s.pos.get x).pos
  let now := s.etime
  let lead := (s.mot.get (otherAxis x)).follow.isSome
  s.modMot x fun m =>
    let recs := match m.cur with
      | some c =>
        ({ c with result := r, dur := (now - c.etime).toNat / 1000, dist := toSigned 32 (ofSigned 32 (ratRound m.ref - c.dist)),
                  endPos := p, iMax := max 0 c.iMax } :: m.recs).take 16
      | none => m.recs
    { m with st := next, result := r, recs := recs, cur := none, vref := 0, aref := 0, copy := if lead then m.copy else none, grp := false,
             follow := none, entry := false, overN := 0, aborting := false, endFound := false, revBack := false, homeAt := none,
             pushAt := none, pushEnd := none }

/-- The axis leaves READY or MOVING for DISARMED or LATCHED: a motion ends with the result, and the motion state is IDLE
(R397). -/
def leaveMotion (x : Axis) (r : MotResult) (s : State) : State :=
  if s.moving x then endMotion x r .idle s
  else s.modMot x fun m => { m with st := .idle, vref := 0, aref := 0, follow := none, pushAt := none, pushEnd := none }

/-- Whether a fault is latched on either die as Aster knows it: a latched one, or one that Peony has asserted and whose `clear` has
not been accepted (R17, R23). -/
def State.faulty (s : State) : Bool := !s.faults.isEmpty || s.link.off

/-- The reply of lines that a stop ends: a fault stands on the device, or a supply event disarmed the axis, for which
Table 11-3 has the row of `disarm` (log 22). -/
def stopText (s : State) : Text := errText (if s.faulty then 33 else 30) none

/-- Ends the calibration lines of an axis; `cal offset` continues, since it runs on a latched axis too (R377). -/
def endCal (x : Axis) (reply : Text) (s : State) : State :=
  let s := forAll (waiters s fun w => match w with
    | .calAlign y => y == x
    | .calLearn y => y == x || s.coupled
    | _ => false) (fun k s => answer k.1 reply s) s
  let s := s.modLoop x fun l => { l with cal := match l.cal with
    | some (.offset n a b) => some (.offset n a b)
    | _ => none }
  s.modMot x fun m => { m with learn := none }

/-- The loop engine's state after an axis has stopped: bridge off, references 0 (R22, R294). A `clear` that waits for its
acceptance goes on waiting. A degradation ends with a fault of the axis; a disarmed axis keeps it with its time (R373, R374). -/
def stopLoop (st : AxState) (cmd : BitVec 4) (now : W48) (l : AxLoop) : AxLoop :=
  { l with st := st, since := now, hand := if l.hand == some .clear then l.hand else none, grpHand := none, disarming := false, offWait := false,
           word := { GateWord.off with cmd := cmd }, openLoop := none, stallAt := none, senseDue := none, iq := 0, id := 0,
           intD := 0, intQ := 0, v := .all 0, degr := if st == .latched then .none else l.degr, sumRun := 0,
           openRun := .all { ticks := 0, since := 0 } }

/-- Whether a line waits for a diagnosis of an axis (R303, R306). -/
def diagAsked (s : State) (x : Axis) : Bool := !(waiters s fun w => match w with
  | .diag y => y == x
  | .clearDiag sel => (selAxes sel).contains x
  | _ => false).isEmpty

/-- The fault that a degraded axis meets at its next hold point: KIND, and the channel or phase 1-3 (R373, R374, R375). -/
def degradedFault : Degraded → Option (Nat × Nat)
  | .none => none
  | .recon p => some (0x0A, phIdx p + 1)
  | .limp p => some (0x09, phIdx p + 1)

/-- Stops an axis: its motion and its lines end, and it is LATCHED or disarmed (Table 11-3, R294, R397). A diagnosis that a
line still waits to have started goes on waiting (R303, R306); that of an `arm` is dropped. A group move that waits is recorded as
not executed (R541). -/
def stopAxis (x : Axis) (cmd : BitVec 4) (s : State) : State :=
  let t := stopText s
  let m := (s.mot.get x).st
  let ran := s.armed x && (m == .run || m == .stopping || m == .reversing)
  let s := when_ (s.armed x) (leaveMotion x (if s.faults.isEmpty then .aborted else .fault)) s
  let s := when_ ((s.loop.get x).hand != some .stop) (ungroup x) s
  let s := s.modLoop x (stopLoop (if s.latchedOn x then .latched else .disarmed) cmd s.etime)
  let s := s.modLoop x fun l => { l with wantDiag := l.wantDiag && diagAsked s x,
                                         holdDue := if ran && l.st == .disarmed then l.degr else l.holdDue }
  let s := s.modLoop x fun l => { l with diagPass := if s.faulty then none else l.diagPass }
  let s := endAxisWait x (fun c => match c with | .arm => true | .move _ => true | .stop => true | _ => false) t s
  let s := endAxisWait x (fun c => c == .disarm) (txt "ok") s
  endCal x t s

/-- Both axes stop. -/
def haltBoth (cmd : BitVec 4) (s : State) : State := stopAxis .b cmd (stopAxis .a cmd s)

/-- What Aster knows of a *release* that a fault starts (R301): one begins now on an axis whose word in force turns gates on; the
start of one that goes on stays. -/
def noteRelease (s : State) : State :=
  let now := s.etime
  forAll axes2 (fun x s => s.modLoop x fun l =>
    { l with relAt := if l.word.cmd == 1 || l.word.cmd == 3 || l.word.cmd == 7 then some now else l.relAt }) s

/-- One fault that Aster decides (R22, R79, R294): its entry, FLT_L, its latch and notice, and the stop of both axes with
RELEASE in the gate words. The axes are those of its log entry. -/
def oneFault (kind : Nat) (axes : BitVec 2) (arg0 arg1 info : Nat) (s : State) : State :=
  let s := logAster kind axes arg0 arg1 s
  let s := asterFlt s
  let s := latchFault { kind := kind, die := .aster, axes := axes, tick := s.tick, info := info } s
  haltBoth 4 (noteRelease s)

/-- A stop that disarms a degraded axis out of its motion is a hold point of it (R398): its fault follows (R373, R374). -/
def heldFaults (s : State) : State := forAll axes2 (fun x s => match degradedFault (s.loop.get x).holdDue with
  | some f => oneFault f.1 (axBit x) f.2 (posArg s x) 0 (s.modLoop x fun l => { l with holdDue := .none })
  | none => s) s

/-- Stops both axes. -/
def stopBoth (cmd : BitVec 4) (s : State) : State := heldFaults (haltBoth cmd s)

/-- A fault that Aster decides, with the hold points that its stop of both axes makes. -/
def asterFault (kind : Nat) (axes : BitVec 2) (arg0 arg1 info : Nat) (s : State) : State :=
  heldFaults (oneFault kind axes arg0 arg1 info s)

/-- Enters an axis in IDLE or HOLD at a hold point without a fault: its degradation becomes the fault of R373 or R374
(R398). -/
def holdPoint (x : Axis) (s : State) : State := match degradedFault (s.loop.get x).degr with
  | none => s
  | some f => asterFault f.1 (axBit x) f.2 (posArg s x) 0 s

end Sys2Proof.Machine
end

