-- ==== Sys2Proof/Machine/Gate.lean ====
section
/-! DEFINITION. The gates of Peony: the interlock, tick classes, effective slew and dead time, the CMD codes of the gate
command word, bootstrap, direct bridge mode and the brake chopper (chapter 08, R70, R745). Gates are shown as they stand
after the reload, after the centre and after each event; dead times, the edges between and the tail of a tick before its
reload are not separate steps (log 24). -/

namespace Sys2Proof.Machine

/-! ### Legs -/

/-- The slew step of a gate after a change: that of its transition, or that of the last one. -/
def stepAfter (on off : Nat) (was is_ : Bool) (old : Nat) : Nat := if is_ && !was then on else if was && !is_ then off else old

/-- Drives a leg with the given steps of its turn-ons and turn-offs. Both sides are never on together (R253); no high side
turns on while its bootstrap supply is low (R260); a turn-on ends the hold-off clamp and starts the blanking window of the
leg (R248, R286). -/
def Leg.drive (on off : Nat) (hi lo : Bool) (l : Leg) : Leg :=
  let hi := hi && !lo && (l.hi || !l.bstLow)
  { l with hi := hi, lo := lo, clampHi := l.clampHi && !hi, clampLo := l.clampLo && !lo,
           stepHi := stepAfter on off l.hi hi l.stepHi, stepLo := stepAfter on off l.lo lo l.stepLo,
           blank := l.blank || (hi && !l.hi) || (lo && !l.lo) }

/-- A leg with both sides off at a step (R247, R249). -/
def Leg.off (n : Nat) (l : Leg) : Leg := l.drive n n false false

/-- Whether a leg conducts. -/
def Leg.on (l : Leg) : Bool := l.hi || l.lo

/-- Whether driving a leg to the second state turns a gate on. -/
def Leg.turnsOn (a b : Leg) : Bool := (b.hi && !a.hi) || (b.lo && !a.lo)

/-- The gates that are off are held by the hold-off clamp (R248, R271). -/
def Leg.seat (l : Leg) : Leg := { l with passive := false, clampHi := !l.hi, clampLo := !l.lo }

/-- The gates that are off are held by the passive pull-down (R271, R693). -/
def Leg.float (l : Leg) : Leg := { l with passive := true, clampHi := false, clampLo := false }

/-- The base of the gate-drive fields of an axis (Table 8-4). -/
def gateBase : Axis → Nat
  | .a => 0x040
  | .b => 0x060

/-- The base of the protection fields of an axis (Table 9-10). -/
def protBase : Axis → Nat
  | .a => 0x0A0
  | .b => 0x0B0

/-- Changes the legs of an axis. A turn-on starts the blanking windows of its leg and of the bus comparator under the
lengths in force (R286, R314). -/
def setLegs (x : Axis) (f : Tri Leg → Tri Leg) (s : State) : State :=
  let old := (s.pe.ax.get x).leg
  let n := memLe s.pe.active (protBase x + 2) 1
  let new := old.zip (fun a b => if a.turnsOn b then { b with blankN := n } else b) (f old)
  let on := ((old.zip Leg.turnsOn new).toList).any id
  (s.modPax x fun a => { a with leg := new }).modAn fun k =>
    { k with busBlank := k.busBlank || on, busBlankN := if on then memLe s.pe.active 0x0C2 1 else k.busBlankN }

/-- Turns every gate of an axis off at a step. -/
def gatesOffAt (n : Nat) (x : Axis) (s : State) : State := setLegs x (Tri.map (Leg.off n)) s

/-- Turns every gate of an axis off at its effective off step. -/
def gatesOff (x : Axis) (s : State) : State := gatesOffAt (s.pe.ax.get x).stepOff x s

/-- Whether any gate of an axis is on. -/
def State.conducts (s : State) (x : Axis) : Bool := (s.pe.ax.get x).leg.toList.any Leg.on

/-- The bit of a leg in MASK (Table 3-5). -/
def legBit (x : Axis) (p : Phase) : Byte := BitVec.ofNat 8 (2 ^ (3 * axIdx x + phIdx p))

/-- The legs of an axis in MASK. -/
def legMask : Axis → Byte
  | .a => 0x07
  | .b => 0x38

/-! ### Peony's values in force -/

/-- The period of Peony: that of the active area, or of the last training header until the first swap (R742, R743). -/
def Peony.baseP (p : Peony) : Nat := if p.configured then memLe p.active 0x002 2 else p.hdrP

/-- The tick length of Peony: its period with the trim in force (R538). -/
def Peony.tickP (p : Peony) : Nat := ((p.baseP : Int) + p.trim).toNat

/-- The gap limit in force on Peony (R76, R743). -/
def Peony.gapLimit (p : Peony) : Nat := if p.configured then memLe p.active 0x000 1 else 3

/-- `min_on` of an axis in clocks. -/
def Peony.minOn (p : Peony) (x : Axis) : Nat := memLe p.active (gateBase x + 4) 1

/-- Recomputes the effective slew steps and dead time of an axis from the active area and the band in force (R256,
R257). -/
def gateEff (x : Axis) (s : State) : State :=
  let m := s.pe.active
  let g := gateBase x
  s.modPax x fun a =>
    { a with stepOn := slewEff a.band (memLe m (g + 2) 1), stepOff := slewEff a.band (memLe m (g + 3) 1),
             dead := deadEff a.band (memLe m g 2) (memLe m (g + 5 + min a.band 4) 1) }

/-- BRIDGE_PERMIT as Peony holds it; 0 until latched (R20). -/
def Peony.permit (p : Peony) : Bool := match p.wrow with
  | some w => w.getLsbD 0
  | none => false

/-- DIRECT_DIS of an axis as Peony holds it; 1 until latched (R20). -/
def Peony.directDis (p : Peony) (x : Axis) : Bool := match p.wrow with
  | some w => w.getLsbD (1 + axIdx x)
  | none => true

/-! ### Tick classes (R250, R251) -/

/-- h = round(D x P / 8192), halves rounded up. -/
def highHalf (d p : Nat) : Nat := (d * p + 4096) / 8192

/-- The class of a tick of a phase; times in clocks. -/
def tickClass (d p dead minOn : Nat) : TickClass :=
  let h := 2 * highHalf d p
  if (p : Int) - h - dead < minOn then .high else if (h : Int) - dead < minOn then .low else .normal

/-- A leg at its reload under RUN: its class, and the side that conducts through the reload. The high-side interval around
the reload is the tail of the tick that ends and the first h clocks of the next; a turn-on that the dead time leaves
without length is not issued (R252). A BT_LOW episode runs as full-low (R260). -/
def Leg.reload (on off d p dead minOn : Nat) (l : Leg) : Leg :=
  let c := if l.btLow then .low else tickClass d p dead minOn
  let l' := { l with cls := c }
  let len := l.tail + highHalf d p
  match c with
  | .low => l'.drive on off false true
  | .high => l'.drive on off true false
  | .normal => if (0 < l.tail || (l.flat && l.lo)) && decide (len ≤ dead) then l'.drive on off false false else l'.drive on off true false

/-- A leg at the centre of the tick under RUN: the low side of a normal tick conducts (R28, R250, R252). -/
def Leg.centre (on off d p dead : Nat) (l : Leg) : Leg := match l.cls with
  | .normal => if p - 2 * highHalf d p ≤ dead then l.drive on off false false else l.drive on off false true
  | _ => l

/-- What a leg does at the end of the tick that has begun: under RUN the high side of a normal tick is commanded on in its
last h clocks; a low side that the whole tick commands on conducts to its end (R250, R252). -/
def Leg.settle (run : Bool) (d p : Nat) (l : Leg) : Leg :=
  let normal := run && l.cls == .normal
  { l with tail := if normal then highHalf d p else 0, flat := !normal }

/-- A leg under CMD DIRECT (Table 8-5). A BT_LOW episode keeps its low side on whatever the pins say: R260 and Table 8-5
both reach such a leg, and the spec does not say which yields (DESIGN CHOICE, log 89). -/
def Leg.direct (on off : Nat) (l : Leg) : Leg :=
  if l.btLow then l.drive on off false true else l.drive on off (l.en && l.pls) (l.en && !l.pls)

/-- A leg under LOWS. -/
def Leg.lows (on off : Nat) (l : Leg) : Leg := l.drive on off false true

/-! ### Diagnosis and latches of an axis on Peony -/

/-- Abandons a running diagnosis with DONE and the given bits (Table 9-9). -/
def abandonDiag (x : Axis) (bits : W16) (s : State) : State :=
  s.modPax x fun a => if a.diag.getLsbD 14 then { a with diag := 0x8000#16 ||| bits } else a

/-- MOVED of the result word. -/
def diagMoved : W16 := 0x2000#16

/-- Sets the latch of an axis; no command stays in force. -/
def setLatch (x : Axis) (l : PLatch) (s : State) : State :=
  s.modPax x fun a => { a with latch := l, cmd := 0, hasDuty := false }

/-- An axis enters *rest*: every gate is turned off at step 8, one that a soft turn-off has taken down as well (R297, Table 9-3). -/
def enterRest (x : Axis) (s : State) : State :=
  setLegs x (Tri.map fun l => { l.off 8 with stepHi := 8, stepLo := 8 }) (setLatch x .rest s)

/-- A *release* starts under the values in force (R295, R296, R314). -/
def startRelease (x : Axis) (l : PLatch) (s : State) : State :=
  let m := s.pe.active
  (setLatch x l s).modPax x fun a =>
    { a with rel := { since := s.etime, i := memLe m (protBase x + 4) 2, t := memLe m 0x0CB 2, soft := memLe m 0x0CD 2, low := false } }

/-- The three low sides of an axis on at its effective steps, its high sides off. -/
def lowsOn (x : Axis) (s : State) : State :=
  let a := s.pe.ax.get x
  setLegs x (Tri.map (Leg.lows a.stepOn a.stepOff)) s

/-- Class E reaches an axis (Table 9-5, Table 9-7, R274, R298). -/
def enterE (x : Axis) (s : State) : State :=
  match (s.pe.ax.get x).latch with
  | .free =>
    let s := abandonDiag x diagMoved s
    if !s.conducts x || s.pe.an.vgdLow || s.pe.an.uvlo then enterRest x s
    else lowsOn x (startRelease x .relE s)
  | _ => s

/-- Class S reaches an axis: its conducting gates go off at step 1 (R295, Table 9-5). -/
def enterS (x : Axis) (s : State) : State :=
  match (s.pe.ax.get x).latch with
  | .free => gatesOffAt 1 x (startRelease x .relS (abandonDiag x diagMoved s))
  | .relE => gatesOffAt 1 x (startRelease x .relS s)
  | _ => s

/-! ### Gate commands -/

/-- Whether the outputs of an axis are held off whatever its command (R245, R291, R305). -/
def State.gateHeld (s : State) (x : Axis) : Bool :=
  let a := s.pe.ax.get x
  a.vgdHold || s.pe.an.vgdLow || s.pe.an.uvlo || a.diag.getLsbD 14

/-- Applies the command in force to the gates of an axis at a reload (Table 3-8). -/
def applyGates (x : Axis) (s : State) : State :=
  let a := s.pe.ax.get x
  let p := s.pe.tickP
  let m := s.pe.minOn x
  if a.latch != .free then s
  else if s.gateHeld x then gatesOff x s
  else match a.cmd.toNat with
    | 1 => setLegs x (fun t =>
        { u := t.u.reload a.stepOn a.stepOff a.duty.u.toNat p a.dead m, v := t.v.reload a.stepOn a.stepOff a.duty.v.toNat p a.dead m,
          w := t.w.reload a.stepOn a.stepOff a.duty.w.toNat p a.dead m }) s
    | 3 => lowsOn x s
    | 7 => setLegs x (Tri.map (Leg.direct a.stepOn a.stepOff)) s
    | _ => gatesOff x s

/-- The legs of an axis settle into the tick that has begun. -/
def settleGates (x : Axis) (s : State) : State :=
  let p := s.pe.tickP
  s.modPax x fun a =>
    let run := a.cmd == 1
    { a with leg := { u := a.leg.u.settle run a.duty.u.toNat p, v := a.leg.v.settle run a.duty.v.toNat p,
                      w := a.leg.w.settle run a.duty.w.toNat p } }

/-- The centre of the tick on an axis. -/
def centreGates (x : Axis) (s : State) : State :=
  let a := s.pe.ax.get x
  let p := s.pe.tickP
  if a.latch == .free && a.cmd == 1 && !s.gateHeld x then
    setLegs x (fun t =>
      { u := t.u.centre a.stepOn a.stepOff a.duty.u.toNat p a.dead, v := t.v.centre a.stepOn a.stepOff a.duty.v.toNat p a.dead,
        w := t.w.centre a.stepOn a.stepOff a.duty.w.toNat p a.dead }) s
  else s

/-- Whether Peony takes part in the link. -/
def Peony.live (p : Peony) : Bool := p.powered && p.linked

/-- Whether Peony's ticks advance: its core is powered and NCK runs (R18, R80). -/
def Peony.runs (p : Peony) : Bool := p.powered && p.nck

/-- A gate command word acts on an axis that is in neither *release* nor *rest* (R24). -/
def gateWord (x : Axis) (f : State → State) (s : State) : State := if (s.pe.ax.get x).latch != .free then s else f s

/-- Puts a command without duties in force. -/
def putCmd (x : Axis) (c : BitVec 4) (s : State) : State :=
  applyGates x (s.modPax x fun a => { a with cmd := c, hasDuty := false })

/-- OFF in force: the gates go off, and the hold of R245 ends once VGD has recovered: an OFF that arrives after the recovery ends it
(DESIGN CHOICE, log 123). -/
def putOff (x : Axis) (s : State) : State :=
  let ok := !s.pe.an.vgdLow
  putCmd x 0 (s.modPax x fun a => { a with vgdHold := a.vgdHold && !ok })

/-- A word treated as OFF and counted in `stat.lnk.bad_cmd` (R745, R265, Table 3-8). A diagnosis that runs goes on
(R745). No message carries Peony's count to the counter that a line reads: that it shows there at once is a DESIGN CHOICE (log 116). -/
def badCmd (x : Axis) (s : State) : State := putOff x (bump 0x7829 s)

/-- CMD OFF (Table 3-8). -/
def cmdOff (x : Axis) (s : State) : State := gateWord x (putOff x) s

/-- CMD RUN with its duties (R70, R745); it abandons a diagnosis (Table 9-9). -/
def cmdRun (x : Axis) (d : Tri (BitVec 12)) (s : State) : State := gateWord x (fun s =>
  if !s.pe.permit then badCmd x s
  else applyGates x ((abandonDiag x diagMoved s).modPax x fun a => { a with cmd := 1, duty := d, hasDuty := true })) s

/-- CMD HELD: the duties in force stay, an axis under DIRECT keeps its pins (R277), and with no duty in force it acts as
OFF (R70) and leaves a diagnosis running. The spec speaks of duties only: HELD while LOWS is in force, which holds no
duty, is taken as OFF (DESIGN CHOICE, log 90). -/
def cmdHeld (x : Axis) (s : State) : State := gateWord x (fun s =>
  let a := s.pe.ax.get x
  if (a.cmd == 1 && a.hasDuty) || a.cmd == 7 then applyGates x s else putOff x s) s

/-- CMD LOWS. -/
def cmdLows (x : Axis) (s : State) : State := gateWord x (fun s =>
  if s.pe.permit then putCmd x 3 (abandonDiag x diagMoved s) else badCmd x s) s

/-- CMD RELEASE: class E *release*, then *rest* (R296). -/
def cmdRelease (x : Axis) (s : State) : State := gateWord x (enterE x) s

/-- CMD REST (R297). -/
def cmdRest (x : Axis) (s : State) : State := gateWord x (fun s => enterRest x (abandonDiag x diagMoved s)) s

/-- Ends the faults that Peony holds for an axis; it drives FLT_L while it still holds one (R79). -/
def peonyClear (x : Axis) (s : State) : State :=
  s.modPe fun p =>
    let fs := (p.faults.map fun f => (f.1, f.2 &&& ~~~ ((axBit x).zeroExtend 8))).filter fun f => f.2 != 0
    { p with faults := fs, flt := !fs.isEmpty }

/-- CMD CLEAR: ends *release* and *rest* and leaves the gates off (R24, R302). -/
def cmdClearWord (x : Axis) (s : State) : State :=
  let s := abandonDiag x diagMoved s
  let s := s.modPax x fun a => { a with latch := .free, cmd := 0, hasDuty := false }
  peonyClear x (gatesOff x s)

/-- CMD DIRECT (R263, R265, R745). -/
def cmdDirect (x : Axis) (s : State) : State := gateWord x (fun s =>
  if !s.pe.permit || s.pe.directDis x || memRead s.pe.active (gateBase x + 10) == 0 then badCmd x s
  else putCmd x 7 (abandonDiag x diagMoved s)) s

/-- What Peony does with a gate command word at the reload that its frame serves (Table 3-8). -/
def actWord (x : Axis) (w : GateWord) (s : State) : State := match w.cmd.toNat with
  | 0 => cmdOff x s
  | 1 => cmdRun x { u := w.du, v := w.dv, w := w.dw } s
  | 2 => cmdHeld x s
  | 3 => cmdLows x s
  | 4 => cmdRelease x s
  | 5 => cmdRest x s
  | 6 => cmdClearWord x s
  | 7 => cmdDirect x s
  | _ => gateWord x (badCmd x) s

/-- Peony has accepted a DOWN frame for the next reload (R75), and part of it acts. -/
def downRow (f : State → State) (s : State) : State :=
  if s.pe.live then f (s.modPe fun p => { p with gotDown := true }) else s

/-- CMD_OFF. -/
def execCmdOff (ax : Axis) (s : State) : Out := .next (downRow (cmdOff ax) s)

/-- CMD_RUN. -/
def execCmdRun (ax : Axis) (du dv dw : BitVec 12) (s : State) : Out := .next (downRow (cmdRun ax { u := du, v := dv, w := dw }) s)

/-- CMD_HELD. -/
def execCmdHeld (ax : Axis) (s : State) : Out := .next (downRow (cmdHeld ax) s)

/-- CMD_LOWS. -/
def execCmdLows (ax : Axis) (s : State) : Out := .next (downRow (cmdLows ax) s)

/-- CMD_RELEASE. -/
def execCmdRelease (ax : Axis) (s : State) : Out := .next (downRow (cmdRelease ax) s)

/-- CMD_REST. -/
def execCmdRest (ax : Axis) (s : State) : Out := .next (downRow (cmdRest ax) s)

/-- CMD_CLEAR. -/
def execCmdClear (ax : Axis) (s : State) : Out := .next (downRow (cmdClearWord ax) s)

/-- CMD_DIRECT. -/
def execCmdDirect (ax : Axis) (s : State) : Out := .next (downRow (cmdDirect ax) s)

/-- CMD_RESERVED: a reserved CMD acts as OFF and is counted (Table 3-8). -/
def execCmdReserved (ax : Axis) (code : BitVec 4) (s : State) : Out :=
  .next (if code.toNat < 8 then s else downRow (gateWord ax (badCmd ax)) s)

/-- The driver-zone band code of an axis in a CONTROL field (R256). -/
def bandCode (x : Axis) (code : Byte) (s : State) : State :=
  if code.toNat > 5 then s
  else gateEff x ((s.modPe fun p => { p with runtime := memWrite p.runtime (0xF00 + axIdx x) code }).modPax x
    fun a => { a with band := code.toNat })

/-- BAND_CODE_WRITE (R256, R273). -/
def execBandCodeWrite (ax : Axis) (code : Byte) (s : State) : Out :=
  .next (if s.pe.live then bandCode ax code s else s)

/-! ### Records and faults of Peony -/

/-- Whether two causes of one tick share a record (R289, R435, R260). -/
def recShares (a b : PRec) : Bool :=
  ((a.code == 1 || a.code == 2) && (b.code == 1 || b.code == 2)) || (a.code == 0x40 && b.code == 0x40) ||
  (a.code == 4 && b.code == 4 && a.mask == b.mask)

/-- Joins a cause to a record; CODE 0x02 when MASK bit 7 is set (R289). -/
def recJoin (a b : PRec) : PRec :=
  let m := a.mask ||| b.mask
  { a with mask := m, code := if a.code == 1 || a.code == 2 then (if m.getLsbD 7 then 2 else 1) else a.code }

/-- Adds a cause of the present tick: it joins the record it shares, or makes one of its own (R67). -/
def addRec (r : PRec) : List PRec → List PRec
  | [] => [r]
  | h :: t => if recShares h r then recJoin h r :: t else h :: addRec r t

/-- A cause of the present tick on Peony. VGD_LOW stands before the fault records of its tick (R274, R310). -/
def peonyRec (code mask : Byte) (s : State) : State :=
  s.modPe fun p =>
    let r : PRec := { dseq := 0, code := code, mask := mask, tick := p.tick }
    { p with tickRecs := if code = 0x41 then r :: p.tickRecs else addRec r p.tickRecs }

/-- The line FLT_L falls when a die begins to drive it. -/
def fltFall (s : State) : State :=
  fltPin (s.modLink fun l => { l with low := true, lowAt := if l.low then l.lowAt else s.etime })

/-- A fault that Peony detects is latched on it: its record, FLT_L and its axes (R21, R294). -/
def peonyFault (code mask : Byte) (axes : BitVec 2) (s : State) : State :=
  let s := peonyRec code mask s
  let s := s.modPe fun p => { p with faults := p.faults ++ [(code, axes.zeroExtend 8)], flt := true }
  fltFall s

/-! ### Gate supply and bootstrap -/

/-- VGD falls below 8.5 V (5 mV per count): every gate goes off at its effective off step, a record, and the hold of R245;
an axis in class E *release* passes to *rest* (R274), a soft turn-off goes on (R310). The clamps can no longer hold the
gates, and the passive pull-downs hold them (R693). -/
def execVgdLow (code : BitVec 12) (s : State) : Out :=
  .next (if !s.pe.powered || s.pe.an.vgdLow || code.toNat ≥ 1700 then s
    else
      let s := peonyRec 0x41 Config.vgdMask (s.modAn fun n => { n with vgdLow := true })
      forAll axes2 (fun x s =>
        let s := s.modPax x fun a => { a with vgdHold := true }
        let s := match (s.pe.ax.get x).latch with
          | .relE => enterRest x s
          | .relS => s
          | _ => gatesOff x s
        s.modPax x fun a => { a with leg := a.leg.map Leg.float }) s)

/-- VGD rises above 9.0 V (R245): the clamps hold again. -/
def execVgdRecover (code : BitVec 12) (s : State) : Out :=
  .next (if !(s.pe.powered && code.toNat > 1800) then s
    else
      let low := s.pe.an.vgdLow
      let s := s.modAn fun n => { n with vgdLow := false }
      if low then forAll axes2 (fun x s => s.modPax x fun a => { a with leg := a.leg.map Leg.seat }) s else s)

/-- The bootstrap supply of a leg falls below 6.8 V: no high-side turn-on until it has risen above 7.4 V. A high side that
is on goes off at its effective off step, and the leg runs as full-low (R260); no record while VGD_LOW holds (R275). -/
def execBtLow (ax : Axis) (p : Phase) (s : State) : Out :=
  let a := s.pe.ax.get ax
  let l := a.leg.get p
  let low (l : Leg) : Leg := { l with bstLow := true }
  .next (if !s.pe.powered || l.btLow then s
    else if !l.hi then s.modPax ax fun a => { a with leg := a.leg.mod p low }
    else
      let s := setLegs ax (fun t => t.mod p fun l => { (low l).drive a.stepOn a.stepOff false true with btLow := true, cls := .low, tail := 0, flat := true }) s
      when_ (!s.pe.an.vgdLow) (peonyRec 0x40 (legBit ax p)) s)

/-- The bootstrap supply has risen above 7.4 V (R260). An axis under DIRECT follows its pins at once; a PWM leg follows
its class from the next reload. -/
def execBtRecover (ax : Axis) (p : Phase) (s : State) : Out :=
  let s := s.modPax ax fun a => { a with leg := a.leg.mod p fun l => { l with btLow := false, bstLow := false } }
  .next (if s.pe.powered && (s.pe.ax.get ax).cmd == 7 then applyGates ax s else s)

/-- A gate that is off is switched to its hold-off clamp (R248); below 8.5 V of VGD and in a state without the core's
supply the passive pull-down holds it instead (R271, R693). -/
def execHoldOffClamp (g : GateOut) (s : State) : Out := .next (match g with
  | .brk => s.modIsl fun i => { i with brkClamp := i.brkClamp || (!i.gbrk && !i.brkPassive) }
  | .bridge x p .high => s.modPax x fun a => { a with leg := a.leg.mod p fun l => { l with clampHi := l.clampHi || !(l.hi || l.passive) } }
  | .bridge x p .low => s.modPax x fun a => { a with leg := a.leg.mod p fun l => { l with clampLo := l.clampLo || !(l.lo || l.passive) } })

/-- A change of the direct pins of a leg, taken after 2 clocks (R263). The pins act only under CMD DIRECT (R264), and a
fault reaction wins (R279). -/
def execDirectPinChange (ax : Axis) (p : Phase) (en pls : Bool) (s : State) : Out :=
  let s := s.modPax ax fun a => { a with leg := a.leg.mod p fun l => { l with en := en, pls := pls } }
  let a := s.pe.ax.get ax
  .next (if s.pe.powered && a.cmd == 7 && a.latch == .free && !s.gateHeld ax then setLegs ax (fun t => t.mod p (Leg.direct a.stepOn a.stepOff)) s else s)

/-! ### Brake chopper -/

/-- GBRK takes a level; a transition runs at the island's slew step (R269). -/
def Island.brake (on : Bool) (i : Island) : Island :=
  { i with gbrk := on, brkStep := if i.gbrk == on then i.brkStep else i.slew }

/-- VM exceeds vbrk_on (R268); VM in counts of 20 mV. -/
def execBrakeOn (vm : BitVec 12) (s : State) : Out :=
  .next (if vm.toNat > s.pe.isl.brkOn then s.modIsl fun i => { i.brake true with brkClamp := false, brkPassive := false } else s)

/-- VM falls below vbrk_off (R268). -/
def execBrakeOff (vm : BitVec 12) (s : State) : Out :=
  .next (if vm.toNat < s.pe.isl.brkOff then s.modIsl (Island.brake false) else s)

end Sys2Proof.Machine
end

