-- ==== Sys2Proof/Machine/Protection.lean ====
section
/-! DEFINITION. Power-stage protection on Peony: short circuits around blanking, overvoltage, undervoltage lockout, the
ends of *release*, the off-state diagnosis, the answers to FLT_L (chapter 09, R23) and the clear window (R154). Voltages
of VM are in counts of 20 mV. -/

namespace Sys2Proof.Machine

/-- The axes that a tripped shunt stops (Table 9-2). -/
def shuntAxes : Shunt → BitVec 2
  | .leg x _ => axBit x
  | .bus => 3

/-- The bit of a shunt in MASK (Table 3-5). -/
def shuntBit : Shunt → Byte
  | .leg x p => legBit x p
  | .bus => 0x40

/-- Whether the blanking window of a shunt runs (R286). -/
def State.blanking (s : State) : Shunt → Bool
  | .leg x p => ((s.pe.ax.get x).leg.get p).blank
  | .bus => s.pe.an.busBlank

/-- Ends the blanking window of a shunt. -/
def endBlank (sh : Shunt) (s : State) : State := match sh with
  | .leg x p => s.modPax x fun a => { a with leg := a.leg.mod p fun l => { l with blank := false } }
  | .bus => s.modAn fun n => { n with busBlank := false }

/-- Peony takes a short circuit (R287-R289): class S *release* of the axes of its shunt, FLT_L, and the record of the
tick. -/
def takeShort (sh : Shunt) (hard : Bool) (s : State) : State :=
  let s := forAll axes2 (fun x s => when_ (hasAxis (shuntAxes sh) x) (enterS x) s) s
  peonyFault (if hard then 2 else 1) (shuntBit sh ||| (if hard then 0x80 else 0)) (shuntAxes sh) s

/-- The last clock of a blanking window: the normal comparator is sampled (R287). -/
def execBlankingEnd (sh : Shunt) (above : Bool) (s : State) : Out :=
  .next (if !s.pe.powered || !s.blanking sh then s
    else when_ above (takeShort sh false) (endBlank sh s))

/-- The normal comparator has been above threshold for 2 clocks: a short circuit outside blanking, ignored inside
(R287). -/
def execSScLeg (sh : Shunt) (s : State) : Out :=
  .next (if !s.pe.powered || s.blanking sh then s else takeShort sh false s)

/-- The hard comparator trips outside its mask, during blanking and outside it alike (R288). -/
def execSScHard (sh : Shunt) (s : State) : Out := .next (if s.pe.powered then takeShort sh true s else s)

/-- The overvoltage threshold of Peony (R290, R743). -/
def Peony.vov (p : Peony) : Nat := if p.configured then memLe p.active 0x0C4 2 else 3500

/-- VM has risen above `prot.vov` and stayed there for 1 us (R290): class E on both axes, and a record of each such event
(R299). The chopper goes on (R315). -/
def execEOv (vm : BitVec 12) (s : State) : Out :=
  .next (if !s.pe.powered || vm.toNat ≤ s.pe.vov then s
    else
      let s := s.modAn fun n => { n with ov := true }
      peonyFault 0x03 0x3F 3 (forAll axes2 enterE s))

/-- VM falls below 7.0 V (R291): every gate off at step 8 with its clamp, the diagnosis abandoned (R312), a record; an axis
in class E *release* enters *rest*; the island loses its thresholds and its store, and GBRK
has its passive pull-down alone (R270, R271, R479). -/
def execVmUvlo (vm : BitVec 12) (s : State) : Out :=
  .next (if s.pe.an.uvlo || vm.toNat ≥ 350 then s
    else
      let s := s.modAn fun n => { n with uvlo := true, buck := false, iTarget := 0 }
      let s := s.modIsl fun i => { i.brake false with brkOn := 3300, brkOff := 3150, slew := 8, brkClamp := false, brkPassive := true, store := [], valid := false }
      if !s.pe.powered then s
      else
        let s := forAll axes2 (fun x s =>
          let s := abandonDiag x 0x1000 s
          match (s.pe.ax.get x).latch with
          | .relE => enterRest x s
          | _ => gatesOffAt 8 x s) s
        peonyRec 0x42 0x3F s)

/-- VM rises above 7.5 V (R291): the island has its supply again and holds GBRK with its clamp (R269, R271). -/
def execVmUvloEnd (vm : BitVec 12) (s : State) : Out :=
  .next (if vm.toNat > 375 then
      (s.modAn fun n => { n with uvlo := false }).modIsl fun i => { i with brkPassive := false, brkClamp := i.brkClamp || (i.brkPassive && !i.gbrk) }
    else s)

/-- `prot.sc.soft_t` has elapsed (R295). -/
def execSoftTurnOffEnd (ax : Axis) (s : State) : Out :=
  .next (if (s.pe.ax.get ax).latch == .relS then enterRest ax s else s)

/-- A class E *release* ends (R296, R299, R311, R314): the phase results of a SAMPLE slot since its start all lay below
`prot.release_i`, or `prot.release_t` has elapsed since its start. -/
def execReleaseEEnd (ax : Axis) (s : State) : Out :=
  let a := s.pe.ax.get ax
  .next (if a.latch != .relE then s
    else if a.rel.low then enterRest ax s
    else timeUp a.rel.since a.rel.t (enterRest ax) s)

/-! ### Off-state diagnosis -/

/-- VMX is set when VM is below 8.0 V at any time of a diagnosis (R312). -/
def vmxBit (s : State) : W16 := if (nth s.pe.an.vmH 0 0).toNat < 400 then 0x1000#16 else 0

/-- The CONTROL entry 0xF02 or 0xF03 (R305): 1 starts the diagnosis with every gate of the axis off. An axis with another
command than OFF in force, or in *release*, ends at once with MOVED, and one whose VM lies below 7.0 V with VMX (R312). A
diagnosis that runs goes on. -/
def diagStart (x : Axis) (v : Byte) (s : State) : State :=
  let s := s.modPe fun p => { p with runtime := memWrite p.runtime (0xF02 + axIdx x) v }
  let a := s.pe.ax.get x
  if v != 1 || a.diag.getLsbD 14 then s
  else if a.cmd != 0 || a.latch == .relS || a.latch == .relE then
    s.modPax x fun a => { a with diag := 0x8000#16 ||| diagMoved }
  else if s.pe.an.uvlo then s.modPax x fun a => { a with diag := 0x9000#16 }
  else
    let w := 0x4000#16 ||| vmxBit s
    gatesOff x (s.modPax x fun a => { a with diag := w, diagClk := 0, diagH := [] })

/-- DIAG_START (R305). -/
def execDiagStart (ax : Axis) (v : Byte) (s : State) : Out :=
  .next (if s.pe.live then diagStart ax v s else s)

/-- The clocks at which the steps S0 to S4 of a diagnosis end (Table 9-8). -/
def diagEnds : List Nat := [40000, 90000, 140000, 190000, 240000]

/-- Four times the mean of a terminal over the last 4 ticks, in counts of 20 mV (R284, R305). -/
def diagSum (h : List (Tri (BitVec 12))) (p : Phase) : Int := ((h.take 4).map fun t => ((t.get p).toNat : Int)).foldl (· + ·) 0

/-- The findings of a step (Table 9-8) from the terminal results of its last 4 ticks: 2.0 V, 1.0 V and 0.5 V are 100, 50 and
25 counts of 20 mV. -/
def diagStep (k : Nat) (h : List (Tri (BitVec 12))) : W16 :=
  let v (p : Phase) : Int := diagSum h p
  let n : Int := (h.take 4).length
  let any (f : Phase → Bool) : Bool := phases.any f
  if k = 0 then (if any fun p => 100 * n < v p then 1 else 0)
  else if k = 1 then (if 50 * n < v .u - v .v then 4 else 0)
  else if k = 2 then (if 50 * n < v .v - v .w then 8 else 0)
  else if k = 3 then (if 50 * n < v .w - v .u then 16 else 0)
  else (if any fun p => v p < 25 * n then 2 else 0)

/-- A tick of a running diagnosis has passed on Peony: each step that ends in it sets its findings (R305). -/
def diagTick (clocks : Nat) (a : PAxis) : PAxis :=
  if !a.diag.getLsbD 14 then a
  else
    let c := a.diagClk + clocks
    let found := (diagEnds.zipIdx.filter fun e => a.diagClk < e.1 && e.1 ≤ c).foldl (fun w e => w ||| diagStep e.2 a.diagH) a.diag
    { a with diag := found, diagClk := c }

/-- The terminal results of a tick of a running diagnosis (R99, R305). -/
def diagTerms (u v w : BitVec 12) (a : PAxis) : PAxis :=
  if a.diag.getLsbD 14 then { a with diagH := ({ u := u, v := v, w := w } :: a.diagH).take 4 } else a

/-- AZ_x of step S0 (Table 9-8): a phase amplifier result at the centre more than 64 counts from 2048. Any one result within S0 sets
the bit (DESIGN CHOICE, log 124). -/
def diagZero (u v w : BitVec 12) (a : PAxis) : PAxis :=
  let far (c : BitVec 12) (b : W16) : W16 := if 64 < ((c.toNat : Int) - 2048).natAbs then b else 0
  if a.diag.getLsbD 14 && a.diagClk < 40000 then
    { a with diag := a.diag ||| far u 0x100 ||| far v 0x200 ||| far w 0x400 }
  else a

/-- The result word from the findings of the steps of Table 9-8: phase x is open when both pairs that contain x have
failed (R306). -/
def diagWord (w : W16) : W16 :=
  let uv := w.getLsbD 2
  let vw := w.getLsbD 3
  let wu := w.getLsbD 4
  (w &&& 0x371F#16) ||| (if uv && wu then 0x20 else 0) ||| (if uv && vw then 0x40 else 0) |||
  (if vw && wu then 0x80 else 0) ||| 0x8000#16

/-- DIAG_COMPLETE (R305, R306): the 3,000 us of a diagnosis have passed, and its word is formed from its findings; or a
back-EMF comparator has changed state, and the diagnosis is abandoned with MOVED (Table 9-9). Aster learns the word from
the telemetry items 0x06 and 0x07. -/
def execDiagComplete (ax : Axis) (moved : Bool) (s : State) : Out :=
  .next (if moved then abandonDiag ax diagMoved s
    else s.modPax ax fun a =>
      if a.diag.getLsbD 14 && decide (240000 ≤ a.diagClk) then { a with diag := diagWord a.diag } else a)

/-! ### FLT_L and the clear window -/

/-- Aster answers the falling edge of FLT_L (R23): it latches the tick and ETIME and sends gate-off commands until a `clear`
is accepted; the axes stop, and the record that names those latched follows. In a tick that is an overrun the consecutive
count of its run stops (R56). -/
def asterAnswer (s : State) : State :=
  let s := s.modLink fun l => { l with mark := some (s.tick, s.etime), off := true, overStop := l.overStop || l.overNow }
  let s := s.modLog fun l => { l with await := l.await ++ [(s.tick, s.etime, none, false)] }
  stopBoth 0 (noteRelease s)

/-- The other die answers an assertion of FLT_L (R23). Peony answers Aster with class E *release* on both axes. A line that
falls while neither die drives it is answered by both (R79, R81, log 41). -/
def execFltLAssert (d : Die) (s : State) : Out := .next (match d with
  | .aster => if (s.link.flt || s.link.held) && s.link.low && s.pe.powered then forAll axes2 enterE s else s
  | .peony =>
    if s.inReset then s
    else if s.pe.flt then (if s.link.low && s.link.mark.isNone then asterAnswer s else s)
    else if s.ticking && !s.link.low then
      let s := fltFall (s.modLink fun l => { l with outside := true, rests := 3 })
      let s := asterAnswer s
      if s.pe.powered then forAll axes2 enterE s else s
    else s)

/-- The second `clear` did not come within 1 s of `= armed` (R154). -/
def execClearWindowExpiry (x : Sess) (ax : Axis) (s : State) : Out :=
  .next (match (s.ses x).clearWin.get ax with
    | some t => timeUp t 1000000 (fun s => s.modSes x fun se => { se with clearWin := se.clearWin.set ax none }) s
    | none => s)

end Sys2Proof.Machine
end

