-- ==== Sys2Proof/Machine/Control.lean ====
section
/-! DEFINITION. The Peony configuration space: blocks and runs into the shadow copy, the switch, ABORT, TIME and CONTROL
(chapter 03, R82-R85), the entries of the run-time area, the swap of a commit, the gap limit on Peony and the reset of the
Peony core (R623). The rows that apply a DOWN frame come before the reload that the frame serves. -/

namespace Sys2Proof.Machine

/-- The staged area ends below this address (R71). -/
def stagedEnd : Nat := 0xF00

/-- The entries of a field (R71): address and data bytes, up to a header with N = 0. An entry that the end of the field
cuts short ends the entries as well (log 26). -/
def parseEntries : Nat → List Byte → List (Nat × List Byte)
  | 0, _ => []
  | k + 1, a :: b :: r =>
    let n := b.toNat / 16
    if n = 0 ∨ r.length < n then [] else (a.toNat + 256 * (b.toNat % 16), r.take n) :: parseEntries k (r.drop n)
  | _ + 1, _ => []

/-- Opens staging with block 0 when BST bit 0 is clear (R82). -/
def openStaging (blk : Nat) (s : State) : State :=
  if blk = 0 && !s.pe.staging then
    s.modPe fun p => { p with shadow := p.active, staging := true, rejected := false, armed := none, held := [] }
  else s

/-- Holds a block. -/
def holdBlock (blk : Nat) (s : State) : State :=
  s.modPe fun p => if p.held.contains blk then p else { p with held := p.held ++ [blk] }

/-- BACK: the highest n such that Peony holds blocks 0 to n, if it holds block 0 (Table 3-3, Table 3-9 bit 1). -/
def backOf (held : List Nat) : Nat → Option Nat → Option Nat
  | 0, b => b
  | k + 1, b => let n := match b with | none => 0 | some x => x + 1
    if held.contains n then backOf held k (some n) else b

/-- BACK of Peony. -/
def Peony.back (p : Peony) : Option Nat := backOf p.held (p.held.length + 1) none

/-- Writes an entry into the shadow copy; one outside the staged area is ignored and sets BST bit 3 (R71). An entry that
starts inside and runs past 0xEFF: its bytes inside are written, those past the end are ignored, and bit 3 is not set. The
spec says this of a RUN only; for an entry it is the model's choice (DESIGN CHOICE, log 91). -/
def stageEntry (e : Nat × List Byte) (s : State) : State := s.modPe fun p =>
  if e.1 < stagedEnd then { p with shadow := memWrites p.shadow e.1 (e.2.take (stagedEnd - e.1)) }
  else { p with rejected := true }

/-- DTYPE BLOCK (R82). A block other than 0 while staging is closed writes nothing (log 26). -/
def deltaBlock (blk : Byte) (entries : List Byte) (s : State) : State :=
  let s := openStaging blk.toNat s
  if s.pe.staging then holdBlock blk.toNat (forAll (parseEntries 16 (entries.take 31)) stageEntry s) else s

/-- DTYPE RUN: 29 bytes from a run address; bits 15:12 of the address are reserved (R71). A run that is ignored for its address counts
as a held block all the same (DESIGN CHOICE, log 117). -/
def deltaRun (blk : Byte) (addr : BitVec 16) (data : List Byte) (s : State) : State :=
  let s := openStaging blk.toNat s
  if s.pe.staging then holdBlock blk.toNat (stageEntry (addr.toNat % 4096, data.take 29) s) else s

/-- DTYPE SWITCH: Peony arms only when it holds blocks 0 to LASTBLK (R83). -/
def deltaSwitch (sw : W32) (lastBlk : Byte) (s : State) : State := s.modPe fun p =>
  if p.staging && (List.range (lastBlk.toNat + 1)).all p.held.contains then { p with armed := some sw } else p

/-- DTYPE ABORT: the shadow copy is discarded and BST bits 0-3 are cleared (R82). -/
def deltaAbort (s : State) : State := s.modPe fun p =>
  { p with shadow := [], staging := false, rejected := false, armed := none, held := [] }

/-- DELTA_BLOCK. -/
def execDeltaBlock (blk : Byte) (entries : List Byte) (s : State) : Out := .next (downRow (deltaBlock blk entries) s)

/-- DELTA_RUN. -/
def execDeltaRun (blk : Byte) (addr : BitVec 16) (data : List Byte) (s : State) : Out := .next (downRow (deltaRun blk addr data) s)

/-- DELTA_SWITCH. -/
def execDeltaSwitch (sw : W32) (lastBlk : Byte) (s : State) : Out := .next (downRow (deltaSwitch sw lastBlk) s)

/-- DELTA_ABORT. -/
def execDeltaAbort (s : State) : Out := .next (downRow deltaAbort s)

/-! ### The gap limit on Peony -/

/-- The gap limit is reached: class E on both axes, FLT_L, and an E:LINK_GAP record (R76, Table 9-2). The charger stops
until a run byte 1 arrives (R459). -/
def peonyGap (code : Byte) (s : State) : State :=
  let s := s.modPe fun p => { p with gapFired := true }
  let s := s.modAn fun n => { n with chgStop := if n.chgStop.contains .gap then n.chgStop else n.chgStop ++ [.gap],
                                     buck := false, iTarget := 0, needRun := true }
  peonyFault code 0x3F 3 (forAll axes2 enterE s)

/-- Consecutive gaps on Peony with the present tick, as far as it has gone (R75). -/
def Peony.gapNow (p : Peony) : Nat :=
  let uc := match p.uc with | .acked => false | _ => true
  if !p.gotDown || uc then p.gapRun + 1 else p.gapRun

/-- The consecutive gap count on Peony has reached its limit (R76). -/
def execLinkGapLimit (s : State) : Out :=
  .next (if s.pe.runs && s.ticking && !s.pe.gapFired && s.pe.gapNow ≥ s.pe.gapLimit then peonyGap 0x05 s else s)

/-- NCK has stopped for a Peony that runs on it (R80): class E on both axes with the lost-clock code; no segment and no verdict
until a training attempt passes. -/
def nckLost (s : State) : State :=
  if s.pe.runs then peonyGap 0x06 (s.modPe fun p => { p with nck := false, linked := false, rx := none, reply := none }) else s

/-- NCK_LOSS: no NCK edge for 100 ns. -/
def execNckLoss (s : State) : Out := .next (nckLost s)

/-- DTYPE TIME: bits 31:8 of tick t+1; a disagreement is a third gap (R85). -/
def deltaTime (hi : BitVec 24) (s : State) : State :=
  if (s.pe.tick + 1).extractLsb' 8 24 = hi || s.pe.gapFired then s else peonyGap 0x05 s

/-- DELTA_TIME. -/
def execDeltaTime (hi : BitVec 24) (s : State) : Out := .next (downRow (deltaTime hi) s)

/-! ### The run-time area -/

/-- A two-byte field of the run-time area. -/
def Peony.run16 (p : Peony) (a : Nat) : Nat := memLe p.runtime a 2

/-- VM exceeds `regen_v.eff` and V_regen is not 0 (R469). -/
def Peony.overRegen (p : Peony) : Bool := p.run16 0xF0C != 0 && memLe p.active 0x142 2 < (nth p.an.vmH 0 0).toNat

/-- Whether R469 adds regeneration current. -/
def Peony.regen (p : Peony) : Bool := p.overRegen && memLe p.active 0x145 2 != 0

/-- The regeneration current in mA (R293, R469): `regen_g` x (VM - `regen_v.eff`), at most `i_regen.eff`. One count of 0.1 A/V
and one of 20 mV make 2 mA. -/
def Peony.regenCurrent (p : Peony) : Nat :=
  if p.regen then min (2 * memLe p.active 0x144 1 * ((nth p.an.vmH 0 0).toNat - memLe p.active 0x142 2)) (memLe p.active 0x145 2) else 0

/-- The current that Peony regulates to while the buck switches: I_set and the regeneration current, within `i_max.eff`
(R469). -/
def Peony.chargeCurrent (p : Peony) : Nat := min (p.run16 0xF08 + p.regenCurrent) (memLe p.active 0x140 2)

/-- The buck switches while no stop condition holds and the run byte or the regeneration asks for it (R459, R469,
R478), at the current of R469. -/
def syncBuck (s : State) : State := s.modPe fun p =>
  let on := p.powered && p.an.chgStop.isEmpty && !p.an.needRun && !p.an.uvlo && (memRead p.runtime 0xF0E == 1 || p.regen)
  { p with an := { p.an with buck := on, iTarget := if on then p.chargeCurrent else 0 } }

/-- One byte of the run-time area and what follows from it: band codes (R256), the diagnosis start (R305), the run byte
(R459), the power-down entry (R481, Table 15-10), the TMUX_A output (R668). The tick trim of 0xF20 is taken at the reload (R538). -/
def runtimeByte (a : Nat) (b : Byte) (s : State) : State :=
  if a = 0xF00 then bandCode .a b s
  else if a = 0xF01 then bandCode .b b s
  else if a = 0xF02 then diagStart .a b s
  else if a = 0xF03 then diagStart .b b s
  else
    let s := s.modPe fun p => { p with runtime := memWrite p.runtime a b }
    if a = 0xF0E ∧ b = 1 then s.modAn fun n => { n with needRun := false }
    else if a = 0xF10 ∧ b = 0x5A then s.modPe fun p => { p with downIn := 2 }
    else if a = 0xF30 then s.modAn fun n => { n with tmuxA := b &&& 0x9F }
    else s

/-- The bytes of an entry from an address upward. -/
def runtimeBytes : Nat → List Byte → State → State
  | _, [], s => s
  | a, b :: bs, s => runtimeBytes (a + 1) bs (if a < 0x1000 then runtimeByte a b s else s)

/-- A CONTROL entry; one outside the run-time area is ignored and sets BST bit 3 (R71). -/
def controlEntry (e : Nat × List Byte) (s : State) : State :=
  if stagedEnd ≤ e.1 ∧ e.1 < 0x1000 then syncBuck (runtimeBytes e.1 e.2 s)
  else s.modPe fun p => { p with rejected := true }

/-- DTYPE CONTROL (R85). -/
def execDeltaControl (entries : List Byte) (s : State) : Out :=
  .next (downRow (forAll (parseEntries 16 (entries.take 32)) controlEntry) s)

/-- A CONTROL entry of the charger's run-time fields (Table 14-1, R460). -/
def execChargerSetpoint (addr : BitVec 12) (data : List Byte) (s : State) : Out :=
  .next (if s.pe.live && 0xF08 ≤ addr.toNat && addr.toNat + data.length ≤ 0xF0F && data.length ≤ 15 then
      controlEntry (addr.toNat, data) s
    else s)

/-- The CONTROL entry 0xF10: with 0x5A the reload that it serves copies the active staged area into the island store, and the
core loses its power at the end of that tick (R479, R481). -/
def execPowerDown (v : Byte) (s : State) : Out :=
  .next (if s.pe.live then controlEntry (0xF10, [v]) s else s)

/-- The CONTROL entry 0xF20: the trim that every tick from the reload on carries (R538). -/
def execTickTrim (t : BitVec 16) (s : State) : Out :=
  .next (if s.pe.live then controlEntry (0xF20, leBytes 2 t.toNat) s else s)

/-- The CONTROL entry 0xF30 (R668). -/
def execTmuxAEntry (v : Byte) (s : State) : Out :=
  .next (if s.pe.live then controlEntry (0xF30, [v]) s else s)

/-! ### The swap -/

/-- The island takes its thresholds and its slew step at a switch tick, while VM is above the lockout (R270): a switch tick that does not
change them leaves what the island holds, and the first one after a loss brings them back. -/
def islandThresholds (m : Memory) (s : State) : State :=
  if s.pe.an.uvlo then s else s.modIsl fun i => { i with brkOn := memLe m 0x0C6 2, brkOff := memLe m 0x0C8 2, slew := (memRead m 0x0CA).toNat }

/-- The reload that begins the armed tick: the copies swap, SETP toggles and BST bits 0-2 clear (R83); the effective
values follow in that tick (R257). -/
def swap (s : State) : State :=
  let s := s.modPe fun p =>
    { p with active := p.shadow, shadow := p.active, setp := !p.setp, staging := false, armed := none, held := [],
             configured := true }
  forAll axes2 (fun x s => applyGates x (gateEff x s)) (islandThresholds s.pe.active s)

/-- The swap at the reload that begins tick t (R83, R121). -/
def swapAt (t : W32) (s : State) : State := if s.pe.armed == some t then swap s else s

/-- Whether the UC of the present tick has had its verdict, so that Peony has nothing left to do under the plan of the tick. -/
def Peony.ucOver (p : Peony) : Bool := match p.uc with
  | .acked | .lost => true
  | _ => false

/-- CONFIG_SWAP: the reload that begins the armed switch tick. The row stands for that reload as soon as the last tick under
the old set has sampled and its UC has had its verdict (R121); TICK_RELOAD swaps at the reload itself in any case (log 92). -/
def execConfigSwap (s : State) : Out :=
  .next (if s.pe.runs && s.pe.ucOver then swapAt (s.pe.tick + 1) s else s)

/-! ### Power-down and reset of the Peony core -/

/-- The core of Peony loses its power (R481, R618): its gates are off under the passive pull-down (R271), and it no longer
takes part in the link. -/
def peonyDown (s : State) : State :=
  let s := s.modPe fun p => { p with powered := false, nck := false, linked := false, rx := none, reply := none, an := { p.an with buck := false, iTarget := 0 } }
  forAll axes2 (fun x s => (gatesOff x s).modPax x fun a => { a with leg := a.leg.map Leg.float, cmd := 0, hasDuty := false }) s

/-- The reload that the power-down entry serves copies the active staged area into the island store (Table 15-3). -/
def downCopy (s : State) : State :=
  if s.pe.downIn = 2 then s.modPe fun p => { p with downIn := 1, isl := { p.isl with store := p.active, valid := !p.an.uvlo } } else s

/-- The end of the tick that this reload begins takes the power of the core (Table 15-3). -/
def downEnd (s : State) : State := if s.pe.downIn = 1 then peonyDown (s.modPe fun p => { p with downIn := 0 }) else s

/-- An axis after a core reset: its gates off under the clamp, or under the pull-down while VGD is low (R271, R693), its
pins as they are. -/
def PAxis.coreReset (low : Bool) (a : PAxis) : PAxis :=
  let leg (l : Leg) : Leg :=
    let l := { l.off 8 with btLow := false, blank := false, cls := .low, flat := false, tail := 0 }
    if low then l.float else l.seat
  { PAxis.reset with leg := a.leg.map leg }

/-- Every reset of the Peony core (R623). The island keeps its thresholds and BATFET; the valid mark of its store is
cleared unless the core powers up from the island, and a core that finds it set takes the store as its active area. -/
def coreReset (fromIsland : Bool) (s : State) : State :=
  let s := s.modPe fun p =>
    { Peony.reset with powered := true, nck := p.nck, hdrP := p.hdrP,
                       ax := { a := p.ax.a.coreReset p.an.vgdLow, b := p.ax.b.coreReset p.an.vgdLow },
                       an := { p.an with cmps := 0, ov := false, busBlank := false, chgStop := [], buck := false, iTarget := 0, needRun := false,
                                         tmuxA := 0, conv := List.replicate 16 0, aux := List.replicate 8 0, pcnt := 0,
                                         pcntLat := 0 },
                       isl := { p.isl with valid := p.isl.valid && fromIsland } }
  let s := s.modPe fun p => if p.isl.valid then { p with active := p.isl.store, configured := true } else p
  forAll axes2 gateEff s

/-- The link reset has held for 20 us with both axes in *rest* (R623, R629). -/
def execPeonyCoreReset (s : State) : Out :=
  .next (if s.link.held && s.pe.powered && (axes2.all fun x => (s.pe.ax.get x).latch == .rest) then coreReset false s
    else s)

end Sys2Proof.Machine
end

