-- ==== Sys2Proof/Machine/Flags.lean ====
section
/-! DEFINITION. The status bytes, telemetry items and flag pins that other state decides: BST (Table 3-9), CMPS (Table
3-6), PSTAT (R88), the telemetry items (Tables 3-4, 14-2), RTS_N (R164) and IRQ_N (R683). -/

namespace Sys2Proof.Machine

/-- A number whose bits are the given flags, the first in bit 0. -/
def flagBits : List Bool → Nat
  | [] => 0
  | b :: bs => (if b then 1 else 0) + 2 * flagBits bs

/-- BST, the staging status of a UT (Table 3-9). -/
def bstByte (p : Peony) : Byte :=
  BitVec.ofNat 8 (flagBits [p.staging, p.back.isSome, p.armed.isSome, p.rejected, p.flt])

/-- Bits 0-6 of CMPS as a SAMPLE slot latches them: the short-circuit comparators, OV, UVLO and GBRK (R68, Table 3-6). -/
def cmpsNow (p : Peony) (sc : BitVec 4) : BitVec 7 :=
  BitVec.ofNat 7 (sc.toNat + 16 * flagBits [p.an.ov, p.an.uvlo, p.isl.gbrk])

/-- CMPS of a UC: the comparator state at the end of the SAMPLE slot, and SETP (R68, Table 3-6). -/
def cmpsByte (p : Peony) : Byte := (if p.setp then 1#1 else 0#1) ++ p.an.cmps

/-- PSTAT of the training reply (R88). -/
def pstatByte (p : Peony) : Byte :=
  BitVec.ofNat 8 (flagBits [p.setp, !p.an.uvlo, !p.faults.isEmpty, p.fresh])

/-- The mean of the last 8 conversions as a count (R284, R461, log 27). -/
def mean8 (h : List (BitVec 12)) : Nat :=
  (freeRound 0 ((((h.map BitVec.toNat).foldl (· + ·) 0 : Nat) : Rat) / 8)).toNat

/-- The voltage limit in force, in counts of 10 mV: V_set, and max(V_set, V_regen) while VM exceeds `regen_v.eff` (R469). -/
def Peony.vLimit (p : Peony) : Nat := if p.overRegen then max (p.run16 0xF0A) (p.run16 0xF0C) else p.run16 0xF0A

/-- The voltage limit governs the buck: the latest battery voltage stands at the limit; otherwise the current limit does
(log 27). -/
def Peony.atVLimit (p : Peony) : Bool := p.vLimit ≤ 2 * (nth p.an.batH 0 0).toNat

/-- The charger status item 0x05 (Table 14-2). -/
def chgItem (p : Peony) : Nat :=
  let st := p.an.chgStop
  flagBits [p.an.buck, p.an.buck && !p.atVLimit, p.an.buck && p.atVLimit, p.an.buck && p.regen, p.isl.batfet,
    st.contains .clamp, st.contains .zch || st.contains .gap || p.an.needRun, st.contains .headroom]

/-- A telemetry item (Table 3-4). -/
def telItem (p : Peony) : Nat → W16
  | 0 => BitVec.ofNat 16 (mean8 p.an.vmH)
  | 1 => BitVec.ofNat 16 (mean8 p.an.vgdH)
  | 2 => BitVec.ofNat 16 (mean8 p.an.batH)
  | 3 => BitVec.ofNat 16 (mean8 p.an.chgH)
  | 4 => BitVec.ofNat 16 (mean8 p.an.ntcH)
  | 5 => BitVec.ofNat 16 (chgItem p)
  | 6 => p.ax.a.diag
  | _ => p.ax.b.diag

/-- Free bytes of a 512-byte receive buffer: the lines that wait and the partial line, each waiting line with its
terminator (R164, R165). -/
def Session.rxUsed (se : Session) : Nat :=
  (se.waiting.map fun l => l.len + 1).foldl (· + ·) 0 + se.part.length

/-- Free bytes of the receive buffer. -/
def Session.rxFree (se : Session) : Nat := 512 - se.rxUsed

/-- RTS_N: high until B3 and during a restart, and by the fill of the receive buffer while flow control is on (R164,
R232). -/
def syncRts (s : State) : State := s.modHost fun h =>
  let free := s.sess.h.rxFree
  let flow := s.par 0x5801 == 1
  { h with rts := if h.deaf then h.rts
                  else flow && (h.restart.isSome || free < 64 || (h.rts && free < 256)) }

/-- IRQ_N is low while session H has a notice that has not completely left TXD (R683). -/
def State.irqLow (s : State) : Bool :=
  (s.dev == .safe || s.dev == .run) && (!s.sess.h.notices.isEmpty || s.sess.h.out.any (·.notice))

/-- The level of FLT_N (R25, R684): low while FLT_L is low or a fault is latched. -/
def State.fltNow (s : State) : Bool :=
  !(s.dev == .off || s.dev == .stop || s.dev == .watch) && (s.dev != .run || s.link.low || !s.faults.isEmpty)

end Sys2Proof.Machine
end

