-- ==== Sys2Proof/Machine/Trig.lean ====
section
/-! DEFINITION. Arithmetic of the loop engine and of the temperature conversions: integer square root, arc tangent, sine
and cosine, and natural logarithm, in fixed point of 2^60 by series. The spec gives no precision for the datapath; where it
rounds a result, the error of the series lies far below the distance of any result from a half (log 28). -/

namespace Sys2Proof.Machine

/-- The fixed-point scale. -/
def fx : Int := 2 ^ 60

/-- pi, ln 2, the square root of 3 and atan 1/2 in fixed point. -/
def fxPi : Int := 3622009729038561421
def fxLn2 : Int := 799144290325165978
def fxSqrt3 : Int := 1996918623117814387
def fxAtanHalf : Int := 534549298976576474

/-- Product of two fixed-point numbers. -/
def fxMul (a b : Int) : Int := a * b / fx

/-- Quotient of two integers as a fixed-point number. -/
def fxDiv (a b : Int) : Int := a * fx / b

/-- A fixed-point number as a rational. -/
def fxRat (a : Int) : Rat := (a : Rat) / (fx : Rat)

/-- A rational as a fixed-point number. -/
def ratFx (q : Rat) : Int := q.num * fx / q.den

/-! ### Square root -/

/-- Integer square root by bits, from bit n down. -/
def sqrtBits : Nat → Nat → Nat → Nat
  | 0, _, r => r
  | n + 1, m, r => let t := r + 2 ^ n
    if t * t ≤ m then sqrtBits n m t else sqrtBits n m r

/-- The integer square root of a number below 2^64. -/
def isqrt (m : Nat) : Nat := sqrtBits 33 m 0

/-- The square root rounded to the nearest whole number: m > r^2 + r exactly when the root lies above r + 1/2. -/
def sqrtRound (m : Nat) : Nat := let r := isqrt m
  if m > r * r + r then r + 1 else r

/-- The square root of a non-negative rational, to about 2^-30. -/
def ratSqrt (q : Rat) : Rat := if q ≤ 0 then 0 else ((isqrt (q * 2 ^ 40).floor.toNat : Nat) : Rat) / 2 ^ 20

/-! ### Arc tangent -/

/-- The series of the arc tangent: n terms from term k, with the power p of u. -/
def atanSeries (u2 : Int) : Nat → Int → Int → Int → Int
  | 0, _, _, acc => acc
  | n + 1, k, p, acc => atanSeries u2 n (k + 2) (-(fxMul p u2)) (acc + p / k)

/-- atan of y / x for 0 ≤ y ≤ x, 0 < x, through atan 1/2 + atan ((2y - x) / (2x + y)). -/
def atanUnit (y x : Int) : Int :=
  let u := fxDiv (2 * y - x) (2 * x + y)
  fxAtanHalf + atanSeries (fxMul u u) 30 1 u 0

/-- The angle of (y, x) in [0, 2 pi), 0 at the origin. -/
def fxAtan2 (y x : Int) : Int :=
  let ay : Int := y.natAbs
  let ax : Int := x.natAbs
  let a := if ax = 0 ∧ ay = 0 then 0 else if ay ≤ ax then atanUnit ay ax else fxPi / 2 - atanUnit ax ay
  let b := if x < 0 then fxPi - a else a
  if y < 0 then (if b = 0 then 0 else 2 * fxPi - b) else b

/-- theta = round(atan2(s, c) x n / 2 pi) mod n, halves rounded up (R332). -/
def angleSteps (n : Nat) (s c : Int) : Nat := ((2 * fxAtan2 s c * n + 2 * fxPi) / (4 * fxPi)).toNat % n

/-! ### Sine and cosine -/

/-- The series of the sine or the cosine: n terms from term k, with term p. -/
def sinSeries (u2 : Int) : Nat → Int → Int → Int → Int
  | 0, _, _, acc => acc
  | n + 1, k, p, acc => sinSeries u2 n (k + 2) (-(fxMul p u2) / ((k + 1) * (k + 2))) (acc + p)

/-- Sine of an angle in 0 to pi/4. -/
def sinSmall (a : Int) : Int := sinSeries (fxMul a a) 12 1 a 0

/-- Cosine of an angle in 0 to pi/4. -/
def cosSmall (a : Int) : Int := sinSeries (fxMul a a) 12 0 fx 0

/-- Sine of the first half turn and of the whole, by octants; the angle is 0-65535 (R351). -/
def fxSin (t : Nat) : Int :=
  let t := t % 65536
  let neg := 32768 ≤ t
  let t := t % 32768
  let t := if t > 16384 then 32768 - t else t
  let v := if t ≤ 8192 then sinSmall (2 * fxPi * t / 65536) else cosSmall (2 * fxPi * (16384 - t) / 65536)
  if neg then -v else v

/-- Sine of an electrical angle (R351). -/
def angSin (t : W16) : Rat := fxRat (fxSin t.toNat)

/-- Cosine of an electrical angle. -/
def angCos (t : W16) : Rat := fxRat (fxSin (t.toNat + 16384))

/-- The square root of 3. -/
def sqrt3 : Rat := fxRat fxSqrt3

/-! ### Natural logarithm -/

/-- The series 2 (u + u^3/3 + ...). -/
def lnSeries (u2 : Int) : Nat → Int → Int → Int → Int
  | 0, _, _, acc => 2 * acc
  | n + 1, k, p, acc => lnSeries u2 n (k + 2) (fxMul p u2) (acc + p / k)

/-- ln of a / b for positive a, b of less than 2^64 each: the quotient is brought into [1, 2) by halving. -/
def fxLn (a b : Nat) : Int :=
  let e : Int := (Nat.log2 a : Int) - Nat.log2 b
  let x : Nat := if 0 ≤ e then a else a * 2 ^ (-e).toNat
  let y : Nat := if 0 ≤ e then b * 2 ^ e.toNat else b
  e * fxLn2 + lnSeries (let u := fxDiv ((x : Int) - y) (x + y); fxMul u u) 40 1 (fxDiv ((x : Int) - y) (x + y)) 0

end Sys2Proof.Machine
end

