-- ==== Sys2Proof/Machine/Position.lean ====
section
/-! DEFINITION. Position and speed feedback (chapter 10): counting, the position counter and its load, index check, sin/cos
fusion and amplitude, latches, speed windows. The operand `clk` of an edge is the number of 80 MHz clocks since the last
reload, and `run` is for how many clocks the raw level of a pin has then been equal to the level given (R317). -/

namespace Sys2Proof.Machine

/-! ### Edge filters -/

/-- The filter length N of the quadrature and index pins, of the Hall pins and of LAT_X (R317). -/
def encFilt (s : State) (x : Axis) : Nat := s.axn x 0x0A2
def hallFilt (s : State) (x : Axis) : Nat := s.axn x 0x0A8
def pinFilt (s : State) (x : Axis) : Nat := s.axn x 0x0AB

/-- The filtered level of a pin: it takes the raw level once that has been equal for N clocks (R317). -/
def filtered (n run : Nat) (raw old : Bool) : Bool := if n ≤ run then raw else old

/-! ### The position counter -/

/-- The extended position (R321). -/
def AxPos.ext (p : AxPos) : Int := p.wrap.toInt * 2 ^ 32 + p.pos.toInt

/-- Sets the extended position; the wrap counter wraps modulo 2^16 (R321). -/
def AxPos.setExt (p : AxPos) (e : Int) : AxPos :=
  { p with pos := BitVec.ofInt 32 e, wrap := BitVec.ofInt 16 ((e + 2 ^ 31) / 2 ^ 32) }

/-- Whether the position inputs of Aster count: from the release of the internal reset, not in sleep (Table 22-3). -/
def State.counting (s : State) : Bool :=
  !s.inReset && (s.dev == .boot || s.dev == .safe || s.dev == .run)

/-- Whether the sin/cos channel is the position source of an axis (R320). -/
def State.scSource (s : State) (x : Axis) : Bool := s.scAxis == some x

/-- The source of an axis: `axX.fb.src` 1 enc, 2 hall, while the sin/cos channel does not name the axis (R320). -/
def State.srcIs (s : State) (x : Axis) (k : Int) : Bool := !s.scSource x && s.axp x 0x0A0 == k

/-- Applies d counts of the source at ECLK t, with the sign of `axX.fb.dir` (R320, R321, R326). -/
def countPos (x : Axis) (d : Int) (t : W32) (s : State) : State :=
  let d := if s.axp x 0x0A1 == 1 then -d else d
  if d = 0 then s
  else s.modPos x fun p =>
    let q := p.setExt (p.ext + d)
    let up := decide (0 < d)
    let turn := match p.lastCnt with
      | some l => l.2.2 != up
      | none => false
    { q with lastCnt := some (q.ext, t, up), hit := true, turned := p.turned || turn }

/-- ECLK of an edge. -/
def State.eclkAt (s : State) (clk : Nat) : W32 := s.eclk + BitVec.ofNat 32 clk

/-! ### Latches -/

/-- The filter that the stamp subtracts, by latch source (Table 10-4). -/
def latFilter (s : State) (x : Axis) (src : Int) : Nat :=
  if 1 ≤ src ∧ src ≤ 3 then pinFilt s x else if src = 4 then encFilt s x else if src = 5 then hallFilt s x else 0

/-- The parameter offset of a latch: 0x0AC for latch 0, 0x0AF for latch 1. -/
def latBase (n : Nat) : Nat := 0x0AC + 3 * n

/-- The source of a latch. -/
def State.latSrc (s : State) (x : Axis) (n : Nat) : Int := s.axp x (latBase n)

/-- Changes a latch of an axis. -/
def modLatch (x : Axis) (n : Nat) (f : Latch → Latch) (s : State) : State :=
  s.modPos x fun p => { p with lat := if n = 0 then (f p.lat.1, p.lat.2) else (p.lat.1, f p.lat.2) }

/-- A latch of an axis. -/
def AxPos.latch (p : AxPos) (n : Nat) : Latch := if n = 0 then p.lat.1 else p.lat.2

/-- The stamp of an event: ETIME and clocks since the last whole microsecond, less the filter, and its tick (R338). -/
def stamp (s : State) (clk filt : Nat) : W48 × Nat × W32 :=
  let t : Int := (s.etime.toNat : Int) * 80 + s.etFrac + clk - filt
  (BitVec.ofInt 48 (t / 80), (t % 80).toNat, if filt ≤ clk then s.tick else s.tick - 1)

/-- Whether a latch takes the next event: always in mode `last`, when armed in mode `first` (R339). -/
def latTakes (s : State) (x : Axis) (n : Nat) : Bool :=
  s.axp x (latBase n + 1) == 1 || ((s.pos.get x).latch n).armed

/-- Puts a record into a latch; in mode `first` it then holds it (R339). -/
def latPut (x : Axis) (n : Nat) (r : LatchRec) (s : State) : State :=
  let last := s.axp x (latBase n + 1) == 1
  modLatch x n (fun l => { l with rcd := { r with count := l.rcd.count, full := !last || l.rcd.full }, armed := false }) s

/-- An event of a latch (R338). For a sin/cos source the position follows in the next D-class work (R341). -/
def latEvent (x : Axis) (n : Nat) (clk : Nat) (s : State) : State :=
  let st := stamp s clk (latFilter s x (s.latSrc x n))
  let takes := latTakes s x n
  let s := modLatch x n (fun l => { l with rcd := { l.rcd with count := min 65535 (l.rcd.count + 1) } }) s
  if !takes then s
  else
    let p := s.pos.get x
    let r : LatchRec := { pos := p.pos, wrap := p.wrap, etime := st.1, frac := st.2.1, tick := st.2.2, count := 0,
                          full := false, made := true }
    if s.scSource x then
      let half := s.tickClocks / 2
      let w : LatchWait := { n := n, rcd := r, own := decide (half ≤ clk), dt := (clk : Int) - half, per := s.tickClocks, tick := s.tick,
                             samp := if s.sc.have_ then s.sc.samp else s.tick }
      (modLatch x n (fun l => { l with armed := false }) s).modPos x fun p =>
        { p with latWait := (p.latWait.filter fun w => w.n != n || w.tick != s.tick) ++ [w] }
    else latPut x n r s

/-- The events of the latches of an axis whose source is `src`. -/
def latSource (x : Axis) (src : Int) (clk : Nat) (s : State) : State :=
  forAll [0, 1] (fun n s => if s.latSrc x n = src then latEvent x n clk s else s) s

/-- Whether an edge of LAT_X is the event of a source: 1 `pin_rise`, 2 `pin_fall`, 3 `pin_both` (Table 10-4). -/
def pinEvent (src : Int) (rise : Bool) : Bool := src == 3 || src == (if rise then 1 else 2)

/-- The filtered level of LAT_X as a latch has seen it. -/
def AxPos.pin (p : AxPos) (n : Nat) : Bool := if n = 0 then p.latPin.1 else p.latPin.2

/-- Sets it. -/
def AxPos.setPin (n : Nat) (v : Bool) (p : AxPos) : AxPos :=
  { p with latPin := if n = 0 then (v, p.latPin.2) else (p.latPin.1, v) }

/-- An edge of LAT_X, at the clock at which the raw level after it has stood `run` clocks: the filtered level takes it after N, and its
edge is the event (R317, Table 10-4). The other sources come with INDEX_EDGE, HALL_CHANGE and ACTION_INSTANT. -/
def execLatchEvent (ax : Axis) (n : Fin 2) (e : RawEdge) (s : State) : Out :=
  let old := (s.pos.get ax).pin n.val
  let z := filtered (pinFilt s ax) e.run e.level old
  .next (if !s.counting then s
    else
      let s := s.modPos ax (AxPos.setPin n.val z)
      if z != old && pinEvent (s.latSrc ax n.val) z then latEvent ax n.val e.clk s else s)

/-- Arms a latch: `full` turns off, the count returns to 0, the record is kept (R339). An event from before the arming that
still waits for its position gives no record any more. -/
def armLatch (x : Axis) (n : Nat) (s : State) : State :=
  (modLatch x n (fun l => { rcd := { l.rcd with count := 0, full := false }, armed := true }) s).modPos x fun p =>
    { p with latWait := p.latWait.filter fun w => w.n != n }

/-- `on` written to `axX.latN.arm` (R339). -/
def execLatchArm (ax : Axis) (n : Fin 2) (s : State) : Out := .next (armLatch ax n.val s)

/-- The record of a waiting event: p_s + v x (t_event - t_s), rounded to the nearest count (R341); `samp` is the tick of the last sample
that the position front end now stands for. -/
def LatchWait.record (p : AxPos) (samp : W32) (v : Rat) (w : LatchWait) : LatchRec :=
  let base : Int := if w.own then p.ext else w.rcd.wrap.toInt * 2 ^ 32 + w.rcd.pos.toInt
  let t := if w.own then samp else w.samp
  let dt : Int := w.dt + modDist t w.tick * w.per
  let q := p.setExt (base + ratRound (v * dt / 80000000))
  { w.rcd with pos := q.pos, wrap := q.wrap }

/-- At the start of the D-class work the events of earlier ticks get their position (R341); an event of the present tick waits
for the next tick. The position is that before the fusion of this tick, and so the sample of the tick before. -/
def latResolve (x : Axis) (s : State) : State :=
  let p := s.pos.get x
  let v := (s.loop.get x).obs
  forAll (p.latWait.filter fun w => w.tick != s.tick) (fun w s => latPut x w.n (w.record p (if s.sc.have_ then s.sc.samp else w.tick) v) s)
    (s.modPos x fun p => { p with latWait := p.latWait.filter fun w => w.tick == s.tick })

/-! ### Quadrature and Hall -/

/-- The step of a quadrature change: +1 forward, -1 backward, none for an illegal one, 0 for no change (R318). -/
def quadStep (a b a' b' : Bool) : Option Int :=
  let ph (a b : Bool) : Int := if a then (if b then 2 else 1) else (if b then 3 else 0)
  let d := (ph a' b' - ph a b) % 4
  if d = 0 then some 0 else if d = 1 then some 1 else if d = 3 then some (-1) else none

/-- A decoder sample of the filtered levels of QA_X and QB_X (R317, R318). -/
def execQuadEdge (ax : Axis) (qa qb : RawPin) (clk : Nat) (s : State) : Out :=
  .next (if !s.counting then s
    else
      let p := s.pos.get ax
      let a := filtered (encFilt s ax) qa.run qa.level p.qa
      let b := filtered (encFilt s ax) qb.run qb.level p.qb
      let s := s.modPos ax fun p => { p with qa := a, qb := b }
      match quadStep p.qa p.qb a b with
      | none => bump (axId ax 0x0C6) s
      | some d => if s.srcIs ax 1 then countPos ax d (s.eclkAt clk) s else s)

/-- The place of a Hall state in the forward sequence 1, 3, 2, 6, 4, 5 (R319). -/
def hallIdx (h : BitVec 3) : Option Nat := [1, 3, 2, 6, 4, 5].findIdx? (· == h.toNat)

/-- The step of a Hall change and the boundary it crosses: the boundary of a state is the one through which forward
travel enters it (R319, R351). -/
def hallStep (h h' : BitVec 3) : Option (Int × Nat) := match hallIdx h, hallIdx h' with
  | some i, some j => if j = (i + 1) % 6 then some (1, j) else if i = (j + 1) % 6 then some (-1, i) else none
  | _, _ => none

/-- Counts per motor revolution of the source (R353). -/
def mRev (s : State) (x : Axis) : Nat := (if s.scSource x then 1024 else 4) * s.axn x 0x0A3

/-- The angle of a Hall boundary (R351). -/
def hallAng (s : State) (x : Axis) (k : Nat) : Int := s.axp x (0x026 + k)

/-- Counts that an electrical angle stands for, rounded. -/
def angCounts (s : State) (x : Axis) (ang : Int) : Int :=
  ratRound ((ang * mRev s x : Int) / (65536 * s.axp x 0x021 : Int) : Rat)

/-- A boundary crossed, as the loop engine uses it: ECLK and interval (R352), the run-time offset that waits for it
(Table 11-4, R387), and the crossings of `cal align` at the commanded angle (Table 11-9). -/
def hallCross (x : Axis) (d : Int) (k : Nat) (t : W32) (s : State) : State :=
  let pos := (s.pos.get x).pos.toInt
  let off := pos - angCounts s x (hallAng s x k)
  s.modLoop x fun l =>
    let at_ := s.etime + BitVec.ofNat 48 ((t - s.eclk).toNat / 80)
    -- ECLK wraps within 53.7 s; a longer interval is that of ETIME
    let us := (at_ - l.bndAt).toNat
    let step := match l.bnd with
      | some b => d * (if us < 50000000 then (t - b.2).toNat else 80 * us : Int)
      | none => 0
    let cal := match l.cal with
      | some (.align st at_ p0 p1 p2 f b) =>
        let c : Nat × Rat := (k, (l.angle.toNat : Rat))
        if st = 2 then some (.align st at_ p0 p1 p2 (f ++ [c]) b)
        else if st = 4 then some (.align st at_ p0 p1 p2 f (b ++ [c])) else some (.align st at_ p0 p1 p2 f b)
      | c => c
    { l with bnd := some (k, t), bndStep := step, bndAt := at_, cal := cal,
             offRt := if l.offWait then some off else l.offRt, offWait := false }

/-- The filtered Hall state HW x 4 + HV x 2 + HU from the raw one (R317, R319). -/
def hallFiltered (n : Nat) (hs old : BitVec 3) (runU runV runW : Nat) : BitVec 3 :=
  BitVec.ofBool (filtered n runW (hs.getLsbD 2) (old.getLsbD 2)) ++ BitVec.ofBool (filtered n runV (hs.getLsbD 1) (old.getLsbD 1)) ++
  BitVec.ofBool (filtered n runU (hs.getLsbD 0) (old.getLsbD 0))

/-- A change of the filtered Hall state (R319); the latches with source `hall` take the changes that count. -/
def hallTo (ax : Axis) (hs : BitVec 3) (clk : Nat) (s : State) : State :=
  let h := (s.pos.get ax).hall
  if hs = h then s
  else
    let s := s.modPos ax fun p => { p with hall := hs }
    match hallStep h hs with
    | none => bump (axId ax 0x0C8) s
    | some (d, k) =>
      let s := if s.srcIs ax 2 then countPos ax d (s.eclkAt clk) s else s
      latSource ax 5 clk (hallCross ax d k (s.eclkAt clk) s)

/-- A change of the Hall pins (R317, R319). -/
def execHallChange (ax : Axis) (hs : RawHall) (clk : Nat) (s : State) : Out :=
  .next (if s.counting then hallTo ax (hallFiltered (hallFilt s ax) hs.code (s.pos.get ax).hall hs.runU hs.runV hs.runW) clk s
    else s)

/-! ### Index check -/

/-- The signed error of an index against the reference phase (R327). -/
def idxError (pos phi m : Int) : Int :=
  let e := (pos - phi) % m
  if 2 * e < m then e else e - m

/-- Judges a qualified index (R327, R328): the first one sets the reference phase. -/
def judgeIndex (x : Axis) (s : State) : State :=
  let p := s.pos.get x
  let m : Int := 4 * s.axp x 0x0A3
  match p.phi with
  | none => s.modPos x fun p => { p with phi := some (p.pos.toInt % m), idxBad := false }
  | some phi =>
    let e := idxError p.pos.toInt phi m
    if (e.natAbs : Int) ≤ s.axp x 0x0A6 then s.modPos x fun p => { p with idxRun := 0, idxErr := some e, idxBad := false }
    else bump (axId x 0x0C7) (s.modPos x fun p => { p with idxRun := p.idxRun + 1, idxErr := some e, idxBad := true })

/-- An edge of QZ_X: the filtered level takes it when it has stood N clocks, and a rising edge of the filtered level is the index (R317,
R327, R337, R349). -/
def execIndexEdge (ax : Axis) (e : RawEdge) (s : State) : Out :=
  let p := s.pos.get ax
  let z := filtered (encFilt s ax) e.run e.level p.qz
  .next (if !s.counting then s
    else
      let s := s.modPos ax fun p => { p with qz := z }
      if p.qz || !z || (s.axp ax 0x0A5 == 1 && !(p.qa && p.qb)) then s
      else latSource ax 4 e.clk (if s.axp ax 0x0A4 == 1 && s.srcIs ax 1 then judgeIndex ax s else s))

/-- The position is no longer valid, and with it the run-time offset (R323, R353). An armed `foc` axis waits for the next
Hall boundary (R387). -/
def posInvalid (x : Axis) (s : State) : State :=
  let run := (s.ready x) && s.commMode x == 3
  (s.modPos x fun p => { p with valid := false }).modLoop x fun l =>
    { l with offRt := none, offWait := l.offWait || run }

/-- Consecutive failed indices reach `axX.enc.idx_lim`: E:ENC_IDX (R328). -/
def execEEncIdx (ax : Axis) (s : State) : Out :=
  let p := s.pos.get ax
  .next (if (p.idxRun : Int) < s.axp ax 0x0A7 || (s.faults.any fun f => f.kind == 0x0B && hasAxis f.axes ax) then s
    else posInvalid ax (asterFault 0x0B (axBit ax) (arg16 (p.idxErr.getD 0)) (posArg s ax) 0 s))

/-! ### The load -/

/-- The position moves to another frame: what the speed estimate compares with moves along (R355), and an event that waits for
its position keeps its old frame (R343). -/
def reframe (x : Axis) (f : AxPos → AxPos) (s : State) : State :=
  let old := s.pos.get x
  let new := f old
  let keep (w : LatchWait) : LatchWait := if w.own then { w with rcd := { w.rcd with pos := old.pos, wrap := old.wrap }, own := false } else w
  (s.modPos x fun p => { f p with latWait := p.latWait.map keep }).modLoop x fun l => { l with posPrev := l.posPrev.map (· + (new.ext - old.ext)) }

/-- `axX.pos.load` at the reload that its commit names (R322, R323, R353). -/
def posLoad (x : Axis) (s : State) : State :=
  let s := reframe x (fun p => { p with pos := BitVec.ofInt 32 (s.axp x 0x0B2), wrap := 0, valid := true }) s
  let run := (s.ready x) && s.commMode x == 3
  s.modLoop x fun l => { l with offRt := none, offWait := l.offWait || run }

/-! ### The sin/cos channel -/

/-- A quadrant comparator of Peony counts PCNT (R331), while the channel is enabled (Table 10-3). -/
def execPcntCount (up : Bool) (s : State) : Out :=
  .next (if s.pe.powered && memRead s.pe.active 0x100 == 1 then
      s.modAn fun n => { n with pcnt := if up then n.pcnt + 1 else n.pcnt - 1 }
    else s)

/-- The three counts of the channel in a tick: the SIN code, the COS code and the period word. Their places follow the
plan: the sin/cos pair is the last base pair, and the period word follows the last planned result (R331, Table 4-2). -/
def scCodes (s : State) : Int × Int × BitVec 12 :=
  let v := s.set
  let b := basePairs v
  let at_ (i : Nat) : BitVec 12 := nth s.link.conv i 0
  let r := (min (repeatEff v).toNat b)
  let two (i : Nat) : Int := (at_ i).toNat
  -- a repeated pair is averaged (R98)
  let rep := decide (b ≤ r)
  let avg (j : Nat) : Int := if rep then (two (2 * (b - 1) + j) + two (2 * (b + (b - 1)) + j)) / 2
    else two (2 * (b - 1) + j)
  (avg 0, avg 1, at_ (2 * centrePairs v))

/-- The window of R334: lo^2 ≤ m ≤ hi^2 with lo = nom (1 - tol), hi = min(2047, nom (1 + tol)); both scaled by 100. -/
def ampInWindow (s : State) (m : Int) : Bool :=
  let nom := s.par 0x0053
  let tol := s.par 0x0054
  let lo := nom * (100 - tol)
  let hi := min 204700 (nom * (100 + tol))
  lo * lo ≤ m * 10000 && m * 10000 ≤ hi * hi

/-- The fusion of R333: the quadrant of theta against the extended count; none is a quadrant error. -/
def fuse (q : Int) (theta : Nat) : Option Int :=
  let d := ((theta / 256 : Nat) - q) % 4
  if d = 0 then some (q / 4 * 1024 + theta)
  else if d = 1 then some ((q + 1) / 4 * 1024 + theta)
  else if d = 3 then some ((q - 1) / 4 * 1024 + theta)
  else none

/-- The sin/cos work of a tick with an accepted UC (R331-R335). ECLK of the counts is that of the tick. The counts of R334 are
of consecutive ticks: each one ends with a tick that does not show its fault, and a tick that shows neither ends both. -/
def sincosWork (x : Axis) (s : State) : State :=
  let c := scCodes s
  let sn := c.1 - 2048 - s.par 0x0051
  let cs := c.2.1 - 2048 - s.par 0x0052
  let m := sn * sn + cs * cs
  let d := toSigned 12 (c.2.2 - s.sc.last).toNat
  let ext := toSigned 32 (ofSigned 32 (s.sc.ext + d))
  let win := ampInWindow s m
  let fused := fuse ext (angleSteps 1024 sn cs)
  let qBad := fused.isNone
  let s := when_ qBad (bump 0x0059) s
  let take := win && !qBad
  let next := fused.getD s.sc.fused
  -- PCNT has 32 bits, and so a fused position has 40
  let move := if take && s.sc.have_ then toSigned 40 (ofSigned 40 (next - s.sc.fused)) else 0
  let s := { s with sc := { s.sc with
    last := c.2.2, ext := ext, amp := some (sqrtRound m.toNat), bad := !take,
    outRun := if win then 0 else s.sc.outRun + 1,
    qRun := if qBad then s.sc.qRun + 1 else 0,
    fused := if take then next else s.sc.fused, samp := if take then s.tick else s.sc.samp, have_ := s.sc.have_ || take } }
  countPos x move s.eclk s

/-- The amplitude or the quadrant errors reach their count: E:SINCOS_AMP on the assigned axis (R334, R335). -/
def execESincosAmp (s : State) : Out :=
  .next (match s.scAxis with
    | none => s
    | some x =>
      if ((s.sc.outRun : Int) < s.par 0x0055 && s.sc.qRun < 2) ||
         (s.faults.any fun f => f.kind == 0x0C) then s
      else posInvalid x (asterFault 0x0C (axBit x) (min 65535 (s.sc.amp.getD 0)) (posArg s x) 0 s))

/-! ### Speed -/

/-- Starts a new speed window (R324, R345). -/
def newWindow (x : Axis) (s : State) : State := s.modPos x fun p =>
  { p with winTicks := 0, winPos := p.ext, hit := false, turned := false,
           winPe := match p.lastCnt with | some l => l.1 | none => p.ext,
           winTe := match p.lastCnt with | some l => l.2.1 | none => s.eclk }

/-- The reload that ends the W-th tick of a window (R324), of W ticks of a number of clocks. -/
def closeWindow (w clocks : Nat) (x : Axis) (s : State) : State :=
  let p := s.pos.get x
  let pe := match p.lastCnt with | some l => l.1 | none => p.winPe
  let te := match p.lastCnt with | some l => l.2.1 | none => p.winTe
  newWindow x (s.modPos x fun p =>
    { p with fast := p.fast || decide (20 ≤ (p.ext - p.winPos).natAbs),
             closed := some { delta := p.ext - p.winPos, ticks := w, clocks := clocks, hit := p.hit, turned := p.turned,
                              pe := pe, te := te, pe0 := p.winPe, te0 := p.winTe, tc := s.eclk,
                              had := p.lastCnt.isSome } })

/-- SPEED_WINDOW_CLOSE (R324). -/
def execSpeedWindowClose (ax : Axis) (s : State) : Out :=
  .next (if s.ticking && s.axn ax 0x0A9 ≤ (s.pos.get ax).winTicks then closeWindow (s.axn ax 0x0A9) s.tickP ax s else s)

/-- Speed of a closed window in `count` mode (R325). -/
def speedCount (w : SpeedWin) : Rat := (w.delta * 80000000 : Int) / ((w.ticks * w.clocks : Nat) : Int)

/-- Speed of a closed window in `period` mode (Table 10-2), from the previous value. -/
def speedPeriod (prev : Rat) (w : SpeedWin) : Rat :=
  let since := (w.tc - w.te).toNat
  let dt := (w.te - w.te0).toNat
  if w.turned then speedCount w
  else if w.hit then (if dt = 0 then speedCount w else ((w.pe - w.pe0) * 80000000 : Int) / (dt : Int))
  else if !w.had || 40000000 ≤ since then 0
  else
    let m := min (ratAbs prev) (80000000 / (since : Rat))
    if prev < 0 then -m else m

/-- The M-class item: `axX.speed` and `axX.speed.cnt` from the most recent closed window (R324-R326). -/
def speedItem (x : Axis) (s : State) : State := s.modPos x fun p => match p.closed with
  | none => p
  | some w =>
    { p with speedCnt := w.delta,
             speed := if s.axp x 0x0AA == 1 && !s.scSource x then speedPeriod p.speed w else speedCount w }

/-! ### Snapshots -/

/-- A `get` of `axX.latN.pos` copies the record into the session's snapshot (R340). -/
def latSnapshot (x : Sess) (ax : Axis) (n : Nat) (s : State) : State :=
  let r := ((s.pos.get ax).latch n).rcd
  s.modSes x fun se => { se with latSnap := se.latSnap.mod ax fun p =>
    if n = 0 then (some r, p.2) else (p.1, some r) }

/-- LATCH_SNAPSHOT_READ (R340). -/
def execLatchSnapshotRead (x : Sess) (ax : Axis) (n : Fin 2) (s : State) : Out :=
  .next (if (s.ses x).isOpen then latSnapshot x ax n.val s else s)

end Sys2Proof.Machine
end

