-- ==== Sys2Proof/Machine/Temperature.lean ====
section
/-! DEFINITION. Ring-oscillator temperatures (chapter 13): conversion, hardware B5, banding with hysteresis, the suspect
test, and what a suspect sensor does. Readings are in steps of 0.25 degC, trim temperatures in 0.01 degC. -/

namespace Sys2Proof.Machine

/-- The nominal conversion: 40,960 at 25 degC, -60 counts per degC (R431). -/
def nominalTrim : Trim := { n1 := 40960, t1 := 2500, n2 := 34960, t2 := 12500 }

/-- The highest count that reads 140.00 degC or more, and the lowest that reads below 137.00 degC (R436). -/
def trimOn (t : Trim) : Int :=
  let d : Int := (t.n1 : Int) - t.n2
  let sp := t.t2 - t.t1
  t.n1 - -((-((27975 - 2 * t.t1) * d)) / (2 * sp))
def trimOff (t : Trim) : Int :=
  let d : Int := (t.n1 : Int) - t.n2
  let sp := t.t2 - t.t1
  t.n1 - -((-((27375 - 2 * t.t1) * d)) / (2 * sp)) + 1

/-- A trim that R436 accepts. -/
def trimOk (t : Trim) : Bool := t.n2 < t.n1 && t.t1 < t.t2 && 0 ≤ trimOn t && trimOff t ≤ 65535

/-- The trim in use of a sensor. -/
def Sensor.tr (x : Sensor) : Trim := match x.trim with
  | some t => if trimOk t then t else nominalTrim
  | none => nominalTrim

/-- The thresholds of a sensor as counts. -/
def Sensor.nOn (x : Sensor) : Nat := (min 65535 (trimOn x.tr)).toNat
def Sensor.nOff (x : Sensor) : Nat := (trimOff x.tr).toNat

/-- A count as a reading, rounded half up to 0.25 degC (R430). -/
def convertCount (t : Trim) (n : Nat) : Int :=
  let d : Nat := t.n1 - t.n2
  roundUp (t.t1 * d + ((t.n1 : Int) - n) * (t.t2 - t.t1)) (25 * d)

/-- The zone of a sensor (Table 13-1): 0 ZDA, 1 ZDB, 2 ZCH, 3 ZPC, 4 ZAC, 5 ZNV. -/
def zoneOf (n : Nat) : Nat := nth [0, 0, 1, 1, 2, 3, 4, 5] n 5

/-- The sensors of a zone. -/
def zoneSensors (z : Nat) : List Nat := (List.range 8).filter fun n => zoneOf n == z

/-- The neighbours of a sensor (Table 13-5). -/
def neighbours (n : Nat) : List Nat :=
  nth [[1, 2, 5], [0, 3, 5], [3, 0, 5], [2, 1, 4], [1, 3, 5], [0, 2, 4], [7, 5], [6, 5]] n []

/-- A sensor. -/
def State.ts (s : State) (n : Nat) : Sensor := nth s.temp.ts n Sensor.reset

/-- Changes a sensor. -/
def modTs (n : Nat) (f : Sensor → Sensor) (s : State) : State :=
  { s with temp := { s.temp with ts := s.temp.ts.modify n f } }

/-- Whether a zone handles a suspect sensor by assume-hot (R428). -/
def State.zoneHot (s : State) (z : Nat) : Bool :=
  if z < 4 then true else if z = 4 then s.par 0x3830 == 1 else s.par 0x3831 == 1

/-! ### Bands (Table 13-2) -/

/-- The boundaries: a reading enters at the first and returns below the second. -/
def bounds : List (Int × Int) := [(-28, -40), (160, 148), (340, 328), (460, 448), (560, 548)]

/-- The band of a reading, from the band it held before; none at the first evaluation (R432, R434). -/
def bandOf (prev : Option Nat) (r : Int) : Nat :=
  ((List.range 5).map fun k =>
    let b := nth bounds k (0, 0)
    let above := if b.1 ≤ r then true else if r < b.2 then false else match prev with
      | some p => decide (k < p)
      | none => false
    if above then k + 1 else 0).foldl max 0

/-! ### Hardware B5 -/

/-- The thresholds of a sensor on Peony (R436, R743). -/
def Peony.nOn (p : Peony) (n : Nat) : Nat := if p.configured then memLe p.active (0x120 + 2 * n) 2 else 34660
def Peony.nOff (p : Peony) (n : Nat) : Nat := if p.configured then memLe p.active (0x12C + 2 * n) 2 else 34840

/-- Whether a sensor is in hardware B5. -/
def State.inB5 (s : State) (n : Nat) : Bool := if n < 6 then nth s.pe.an.b5 n false else (s.ts n).b5

/-- The core of Aster has no clock or no power: OFF, STOP and WATCH (Table 15-1). -/
def State.asleep (s : State) : Bool := s.dev == .off || s.dev == .stop || s.dev == .watch

/-- A gate of the ring oscillator ends with a count (R429); hardware B5 ends at the first count at or above N_off
(R435, R437). -/
def execTsGateCount (n : Fin 8) (count : W16) (s : State) : Out :=
  let k := n.val
  .next (if k < 6 then
      -- Peony counts against the clock lane
      if !s.pe.runs then s
      else
        let out := s.pe.nOff k ≤ count.toNat
        let s := s.modAn fun a => { a with ts := a.ts.set k count, b5 := if out then a.b5.set k false else a.b5 }
        if k = 4 ∧ out then
          syncBuck (s.modAn fun a => { a with chgStop := a.chgStop.filter (· != .zch) })
        else s
    else if s.asleep then s
    else modTs k (fun x => { x with cnt := some count, b5 := x.b5 && count.toNat < x.nOff }) s)

/-- The axes and MASK of an E:OT that Peony raises, by zone (Table 13-3). -/
def otAxes (z : Nat) : BitVec 2 := if z = 0 then 1 else if z = 1 then 2 else if z = 3 then 3 else 0
def otMask (z : Nat) : Byte := if z = 0 then 0x07 else if z = 1 then 0x38 else if z = 3 then 0x3F else 0x00

/-- The zone that a Peony E:OT record names by its MASK. -/
def zoneOfMask (m : Byte) : Nat := if m = 0x07 then 0 else if m = 0x38 then 1 else if m = 0x3F then 3 else 2

/-- The sensor of a zone whose latest count held by Aster is lowest, for ARG0 of E:OT (Table 20-2). -/
def hottest (s : State) (z : Nat) : Nat :=
  match (zoneSensors z).filter fun n => (s.ts n).cnt.isSome with
  | [] => (zoneSensors z).headD 0
  | n :: r => r.foldl (fun a b => if ((s.ts b).cnt.getD 0).toNat < ((s.ts a).cnt.getD 0).toNat then b else a) n

/-- ARG1 of the kinds 0x01-0x06: the VM count of the latest VM telemetry (Table 20-2). -/
def State.vmArg (s : State) : Nat := ((nth s.link.tel 0 none).getD 0).toNat

/-- A count at or below N_on: the sensor enters hardware B5 and E:OT is raised for its zone (R435, R437, Table 13-3). A
B5 of ZCH stops the charger (R459). -/
def execEOt (n : Fin 8) (s : State) : Out :=
  let k := n.val
  let z := zoneOf k
  .next (if s.inB5 k then s
    else if k < 6 then
      if !s.pe.powered || s.pe.nOn k < (nth s.pe.an.ts k 0xFFFF).toNat then s
      else
        let s := s.modAn fun a => { a with b5 := a.b5.set k true }
        let s := if z = 2 then s.modAn fun a => { a with chgStop := a.chgStop.filter (· != .zch) ++ [.zch], buck := false, iTarget := 0 }
          else s
        peonyFault 0x04 (otMask z) (otAxes z) (forAll axes2 (fun x s => when_ (hasAxis (otAxes z) x) (enterE x) s) s)
    else if s.asleep then s
    else match (s.ts k).cnt with
      | none => s
      | some c =>
        if (s.ts k).nOn < c.toNat then s
        else asterFault 0x04 3 k s.vmArg z (modTs k (fun x => { x with b5 := true }) s))

/-! ### Thermal banding (R433) -/

/-- The neighbour median of readings in ascending order: the mean of two is rounded half up (R439). -/
def median : List Int → Option Int
  | [] => none
  | [a] => some a
  | [a, b] => some ((a + b + 1) / 2)
  | _ :: b :: _ => some b

/-- Inserts into a rising list. -/
def insertInt (x : Int) : List Int → List Int
  | [] => [x]
  | y :: r => if x ≤ y then x :: y :: r else y :: insertInt x r

/-- The neighbour median of a sensor from the readings of this evaluation and the suspect states at its start (R439). -/
def medianOf (old : List Sensor) (raws : List (Option Int)) (n : Nat) : Option Int :=
  median ((neighbours n).foldl (fun l k => match nth raws k none with
    | some r => if (nth old k Sensor.reset).suspect then l else insertInt r l
    | none => l) [])

/-- The condition by which a sensor is suspect at once (R440). -/
def Sensor.wild (x : Sensor) : Bool :=
  x.cnt == some 0xFFFF || (match x.raw with | some r => r < -220 || 700 < r | none => false)

/-- A sensor that R440 makes suspect at this evaluation; without a neighbour median it is not judged (R439). -/
def Sensor.turns (x : Sensor) : Bool := !x.suspect && x.raw.isSome && x.med.isSome && (x.wild || 3 ≤ x.dev)

/-- The effective reading and the band of a sensor (R441, R442, R455). -/
def Sensor.settle (hot : Bool) (x : Sensor) : Sensor := match x.raw with
  | none => x
  | some r =>
    let e := if !x.suspect || hot then r else match x.med with
      | some m => m
      | none => x.eff.getD r
    { x with eff := some e, band := some (bandOf x.band e) }

/-- The counts of the suspect test of a sensor (R440). A sensor without a neighbour median is not judged and keeps them (R439). -/
def Sensor.judge (x : Sensor) : Sensor := match x.raw, x.med with
  | some r, some m =>
    let far := decide (32 < (r - m).natAbs)
    if x.suspect then { x with agree := if x.wild || far then 0 else x.agree + 1 }
    else { x with dev := if far then x.dev + 1 else 0 }
  | _, _ => x

/-- ARG1 of TS_XCHK: the reading and the median, each in 16 bits (Table 20-2). -/
def xchkArg (x : Sensor) : Nat := ofSigned 16 (x.raw.getD 0) + 65536 * ofSigned 16 (x.med.getD 0)

/-- E:TS_SUSPECT of a sensor (R442). -/
def raiseSuspect (n : Nat) (s : State) : State :=
  asterFault 0x0E 3 n (ofSigned 32 ((s.ts n).raw.getD 0)) n s

/-- The band of a zone: the highest of its sensors; B5 when a sensor is suspect under assume-hot. A change between two
bands that were set is counted (R427, R433, R442). -/
def zoneBand (z : Nat) (s : State) : State :=
  let ns := zoneSensors z
  let bs := ns.filterMap fun n => (s.ts n).band
  match bs with
  | [] => s
  | b :: r =>
    let top := if s.zoneHot z && ns.any (fun n => (s.ts n).suspect) then 5 else r.foldl max b
    let old := nth s.temp.zone z none
    let s := { s with temp := { s.temp with zone := s.temp.zone.set z (some top) } }
    match old with
    | some o => when_ (o != top) (bump 0x3842) s
    | none => s

/-- The evaluation of one sensor: its reading, median and suspect test, the begin and the end of a suspicion, and the effective
reading with its band (R433, R440, R441). TS_SUSPECT reports a suspicion that begins. -/
def evalSensor (old : List Sensor) (raws : List (Option Int)) (n : Nat) (s : State) : State :=
  match nth raws n none with
  | none => s
  | some r =>
    let hot := s.zoneHot (zoneOf n)
    let s := modTs n (fun x =>
      ({ x with raw := some r, med := medianOf old raws n, evals := min 3 (x.evals + 1) } : Sensor).judge) s
    let x := s.ts n
    let s := if x.suspect && 100 ≤ x.agree then
        let s := when_ (!hot) (logAster 0x39 0 n (xchkArg x)) s
        modTs n (fun x => { x with suspect := false, dev := 0, agree := 0 }) s
      else s
    let s := if (s.ts n).suspect && hot && !x.hot then raiseSuspect n s else s
    modTs n (fun x =>
      let x := if x.turns then { x with suspect := true, agree := 0, due := true } else x
      { x.settle hot with hot := hot }) s

/-- Thermal banding, item 2 of the M-class work (R433). -/
def thermalItem (s : State) : State :=
  let old := s.temp.ts
  let raws := (List.range 8).map fun n => match (s.ts n).cnt with
    | some c => some (convertCount (s.ts n).tr c.toNat)
    | none => none
  forAll (List.range 6) zoneBand (forAll (List.range 8) (evalSensor old raws) s)

/-- A sensor has become suspect at the evaluation (R440): in a zone under cross-check TS_XCHK is logged, under assume-hot
E:TS_SUSPECT is raised (R441, R442). No fault latches in STOP or WATCH (R513). -/
def execTsSuspect (n : Fin 8) (s : State) : Out :=
  let k := n.val
  .next (if !(s.ts k).due || s.asleep then s
    else
      let s := modTs k (fun x => { x with due := false }) s
      if (s.ts k).hot then raiseSuspect k s else logAster 0x39 0 k (xchkArg (s.ts k)) s)

/-- Every sensor has been evaluated at three ms ticks (R434). -/
def State.tempReady (s : State) : Bool := s.temp.ts.all fun x => 3 ≤ x.evals

/-- The temperature window of OTP work: TS6 and TS7 within 0.00-70.00 degC and not suspect (R444). -/
def State.otpWindow (s : State) : Bool :=
  [6, 7].all fun n => !(s.ts n).suspect && (match (s.ts n).eff with
    | some e => 0 ≤ e && e ≤ 280
    | none => false)

/-- The readings start again after a reset or an exit from sleep (R434). -/
def tempRestart (s : State) : State :=
  { s with temp := { ts := s.temp.ts.map fun x => { Sensor.reset with trim := x.trim },
                     zone := List.replicate 6 none, sent := .both none } }

/-- `temp.trimmed`: every sensor converts with its own trim (R431). -/
def State.trimmed (s : State) : Bool := s.temp.ts.all fun x => match x.trim with
  | some t => trimOk t
  | none => false

end Sys2Proof.Machine
end

