-- ==== Sys2Proof/Machine/Charger.lean ====
section
/-! DEFINITION. Battery and charging (chapter 14): the hardware stops of Peony, the ideal-diode FET, the charger state
machine of the M-class work and its set points. Battery and VM voltages of the telemetry are in counts of 20 mV, cell
voltages in mV. -/

namespace Sys2Proof.Machine

/-- Cell voltages of a chemistry (Table 14-3). -/
structure Chem where
  pre : Int
  chg : Int
  float : Int
  restart : Int
  low : Int
  deriving DecidableEq, Repr

/-- `chg.chem`: 0 none, 1 pba, 2 nimh, 3 lfp. -/
def chemOf (c : Int) : Chem :=
  if c = 1 then ⟨1750, 2400, 2270, 2100, 1900⟩ else if c = 2 then ⟨1000, 1600, 1600, 1300, 1050⟩
  else ⟨2500, 3600, 3600, 3350, 2900⟩

/-- The chemistry in force. -/
def State.chem (s : State) : Chem := chemOf (s.par 0x4400)

/-- `chg.cells` in a set. -/
def cellsOf (v : PSet) : Int := v 0x4401

/-- V_max: cells x nominal V_chg x 1.05, in counts of 10 mV, rounded down (Table 14-1). -/
def vMax (v : PSet) : Nat := (cellsOf v * (chemOf (v 0x4400)).chg * 105 / 1000).toNat

/-- V_chg of a cell with its trim, and for pba with the compensation of R463, in mV; times 40 to stay whole. -/
def vChg40 (s : State) : Int :=
  let c := (s.chem.chg + s.par 0x4406) * 40
  if s.par 0x4400 == 1 then match s.chg.tbat with
    | some t => c - s.par 0x4407 * (max 0 (min 180 t) - 100)
    | none => c
  else c

/-- V_set of a charging state in counts of 10 mV, rounded down (R460, R465). -/
def vSet (s : State) (st : ChgState) : Nat :=
  let v := if st == .float then (s.chem.float + s.par 0x4406) * 40 else vChg40 s
  (cellsOf s.set * v / 400).toNat

/-- A telemetry item as a number, if it has arrived. -/
def State.telN (s : State) (n : Nat) : Option Nat := (nth s.link.tel n none).map BitVec.toNat

/-- A bit of the charger status item. -/
def State.chgBit (s : State) (n : Nat) : Bool := (nth s.link.tel 5 none).any fun w => w.getLsbD n

/-- The battery current in mA: code x 12.5 uV / rsense (R461). -/
def ibat (s : State) : Option Rat := (s.telN 3).map fun c => (c * 125 : Nat) / (s.parN 0x4402 : Rat)

/-- BAT voltage in mV. -/
def vbat (s : State) : Option Int := (s.telN 2).map fun c => 20 * (c : Int)

/-- The battery temperature from the NTC code, in 0.25 degC (R462). -/
def tbatOf (s : State) (c : Nat) : Option Int :=
  if 4000 ≤ c ∨ c ≤ 40 then none
  else
    let ln := fxRat (fxLn (1000 * c) ((4096 - c) * s.parN 0x440D))
    let inv : Rat := 100 / 29815 + ln / (s.parN 0x440E : Rat)
    some (ratRound (4 * (1 / inv - 27315 / 100)))

/-- Whether the NTC reads open or shorted. -/
def ntcBad (s : State) : Bool := match s.telN 4 with
  | some c => 4000 ≤ c || c ≤ 40
  | none => false

/-- The pause reasons that hold, in the order of Table 14-5. -/
def pauseReasons (s : State) : List ChgReason :=
  let zch := nth s.temp.zone 2 none
  let cells := cellsOf s.set
  let temp := (zch != some 1 && zch != some 2) || !s.tempReady ||
    s.faults.any (fun f => (f.kind == 0x04 && f.info == 2 && f.die == .peony) || (f.kind == 0x0E && f.info == 4)) ||
    (match s.chg.tbat with
      | some t => t < s.par 0x440B || s.par 0x440C < t
      | none => false)
  (if cells * s.chem.chg > 56000 then [.config] else []) ++
  (match vbat s with | some v => if v < 500 * cells then [.noBat] else [] | none => []) ++
  (if ntcBad s then [.ntc] else []) ++
  (if temp then [.temp] else []) ++
  (if 5 < s.chg.tVin then [.vin] else []) ++
  (if s.chgBit 6 && zch != some 5 then [.link] else [])

/-- A charging state (R466). -/
def ChgState.charging : ChgState → Bool
  | .pre | .bulk | .absorb | .float | .trickle | .done => true
  | .off | .pause | .backup | .error => false

/-- The code of a state (Table 14-4) and of a reason (Tables 14-4, 14-5). -/
def ChgState.code : ChgState → Nat
  | .off => 0 | .pre => 1 | .bulk => 2 | .absorb => 3 | .float => 4 | .trickle => 5 | .done => 6 | .pause => 7
  | .backup => 8 | .error => 9
def ChgReason.code : ChgReason → Nat
  | .none => 0 | .config => 1 | .noBat => 2 | .ntc => 3 | .temp => 4 | .vin => 5 | .link => 6 | .preTo => 7 | .timer => 8
  | .batOv => 9

/-- Sets the state and the reason; a change of either is notified and logged (R466). -/
def chgGo (st : ChgState) (r : ChgReason) (s : State) : State :=
  if s.chg.st == st && s.chg.reason == r then s
  else
    let s := s.modChg fun c => { c with st := st, reason := r }
    let s := logAster 0x38 0 (st.code + 256 * r.code) 0 s
    notice 2 (txt "chg " ++ txt (chgWords.getD st.code "") ++ ' ' :: txt (reasonWords.getD r.code "")) s

/-- Enters a charging state; its timers start again. -/
def chgEnter (st : ChgState) (s : State) : State :=
  chgGo st .none (s.modChg fun c => { c with kept := st, tPre := 0, tAbsorb := 0, tRestart := 0, tLimit := 0, tBulk := 0,
                                             temps := [], slopes := 0 })

/-- The charger qualifies (R466); it waits for the battery voltage. -/
def qualify (s : State) : State := match vbat s with
  | none => s
  | some v =>
    let c := s.chem
    let n := cellsOf s.set
    let st : ChgState := if v < n * c.pre then .pre
      else if v < n * c.restart then .bulk
      else if s.par 0x4400 == 1 then .float else if s.par 0x4400 == 2 then .trickle else .done
    chgEnter st (s.modChg fun c => { c with qualify := false, tSafety := 0, clampMs := [] })

/-! ### Set points -/

/-- I_set in mA, V_set, V_regen and the run byte of the present state (R465, R470, R472); outside the temperatures of R468 and in
SAFE the run byte and V_regen are 0 (R634). -/
def setPoints (s : State) : Nat × Nat × Nat × Nat :=
  let st := s.chg.st
  let iChg := 10 * (s.eff 0x4403).toNat
  let i := match st with
    | .pre => iChg / 10
    | .bulk | .absorb | .float => iChg
    | .trickle => 10 * s.parN 0x4405
    | _ => 0
  let run := match st with
    | .pre | .bulk | .absorb | .float | .trickle => 1
    | _ => 0
  let regen := match st with
    | .off | .pause | .error => false
    | .trickle => s.par 0x4400 != 2
    | _ => true
  let held := s.dev == .safe || (pauseReasons s).any fun r => r == .temp || r == .ntc
  (i, vSet s st, if regen && !held then vSet s .bulk else 0, if held then 0 else run)

/-- The CONTROL entry of the charger at an ms tick, when a field has changed or 100 ms have passed (R460). -/
def chgControl (s : State) : List (Nat × List Byte) × State :=
  let p := setPoints s
  if s.chg.sent == some p && s.chg.sentMs < 99 then ([], s.modChg fun c => { c with sentMs := c.sentMs + 1 })
  else
    ([(0xF08, leBytes 2 p.1 ++ leBytes 2 p.2.1 ++ leBytes 2 p.2.2.1 ++ leBytes 1 p.2.2.2)],
     s.modChg fun c => { c with sent := some p, sentMs := 0 })

/-! ### Charger regulation at an ms tick -/

/-- The timers of the ms that has passed and the samples of this one. -/
def chgTimers (s : State) : State :=
  let st := s.chg.st
  let i := ibat s
  let v := vbat s
  let c := s.chem
  let n := cellsOf s.set
  let run (b : Bool) (k : Nat) : Nat := if b then k + 1 else 0
  let isIn (l : List ChgState) : Bool := l.contains st
  let vm := s.telN 0
  let bat := s.telN 2
  let back := match vm, bat with
    | some a, some b => b + 200 ≤ a
    | _, _ => false
  let term := match i with | some i => i < 10 * (s.par 0x4404 : Rat) | none => false
  let under := match v with | some v => v < n * c.restart | none => false
  let now := s.mtick
  s.modChg fun g =>
    { g with tSafety := if isIn [.pre, .bulk, .absorb] then g.tSafety + 1 else g.tSafety,
             tPre := if st == .pre then g.tPre + 1 else g.tPre,
             tBulk := if st == .bulk then g.tBulk + 1 else g.tBulk,
             tAbsorb := run (st == .absorb && term) g.tAbsorb,
             tRestart := run (isIn [.float, .trickle, .done] && under) g.tRestart,
             tReturn := run (st == .backup && back) g.tReturn,
             tVin := run (s.chgBit 7) g.tVin,
             tBackup := run (s.chgBit 4) g.tBackup,
             tLimit := run (st == .bulk && s.chgBit 2) g.tLimit,
             clampMs := (g.clampMs ++ (if st.charging && s.chgBit 5 then [now] else [])).filter
               fun t => (now - t).toNat < 60000 }

/-- Regeneration charge (R470): while item 0x05 shows regeneration current, the current above I_set. -/
def regenCount (s : State) : State :=
  if !s.chgBit 3 then s
  else
    let iset : Rat := match s.chg.sent with
      | some p => if p.2.2.2 = 1 then (p.1 : Rat) else 0
      | none => 0
    let add := (max 0 ((ibat s).getD 0 - iset)).floor.toNat
    let acc := s.chg.regenAcc + add
    bumpBy 0x4486 (acc / 3600000) (s.modChg fun c => { c with regenAcc := acc % 3600000 })

/-- The slope test of NiMH BULK, every 10 s (R464). -/
def nimhSlope (s : State) : State :=
  if s.chg.st != .bulk || s.par 0x4400 != 2 || s.chg.tBulk % 10000 != 0 || s.chg.tBulk = 0 then s
  else match s.chg.tbat with
    | none => s
    | some t =>
      let ts := (t :: s.chg.temps).take 7
      let up := ts.length = 7 && s.par 0x4408 * 10 ≤ (t - nth ts 6 t) * 25
      let n := if up then s.chg.slopes + 1 else 0
      let s := s.modChg fun c => { c with temps := ts, slopes := n }
      if 300000 < s.chg.tBulk && 2 ≤ n then chgEnter .trickle s else s

/-- PRE that has reached its voltage, BULK that has reached the voltage limit (Table 14-4), and the slope of R464. -/
def chgMove (s : State) : State := match s.chg.st with
  | .pre => match vbat s with
    | some v => if cellsOf s.set * s.chem.pre ≤ v then chgEnter .bulk s else s
    | none => s
  | .bulk => if s.chgBit 2 && s.par 0x4400 != 2 then chgEnter .absorb s else nimhSlope s
  | _ => s

/-- Pausing and resuming (Table 14-5, R477). -/
def chgPause (s : State) : State :=
  let r := (pauseReasons s).head?.getD .none
  match s.chg.st with
  | .pause => if r == .none then chgGo s.chg.kept .none (s.modChg fun c => { c with temps := [], slopes := 0 }) else chgGo .pause r s
  | .backup => chgGo .backup r s
  | st => if st.charging && r != .none then chgGo .pause r (s.modChg fun c => { c with kept := st }) else s

/-- Item 3 of the M-class work: the charger state machine (R466). -/
def chargerItem (s : State) : State :=
  let s := s.modChg fun c => { c with tbat := (s.telN 4).bind (tbatOf s) }
  let s := regenCount (chgTimers s)
  if s.par 0x4400 == 0 || s.par 0x440F == 0 then
    let s := chgGo .off .none (s.modChg fun c => { c with qualify := true, chem := s.par 0x4400 })
    s.modChg fun c => { c with vset := some (vSet s c.st) }
  else
    let s := when_ (s.chg.chem != s.par 0x4400 || s.chg.st == .off) (fun s => s.modChg fun c =>
      { c with qualify := true, chem := s.par 0x4400 }) s
    let s := if s.chg.qualify then qualify s else chgMove s
    let s := chgPause s
    s.modChg fun c => { c with vset := some (vSet s c.st) }

/-- An event makes the charger qualify, and a pause condition that holds then pauses it at once (R466, R468). During a host-core
restart it qualifies at the first ms tick after it (R474). -/
def requalify (s : State) : State :=
  let s := s.modChg fun c => { c with qualify := true }
  if s.host.restart.isSome || s.par 0x4400 == 0 || s.par 0x440F == 0 then s else chgPause (qualify s)

/-- A commit changes `chg.chem` or `chg.cells`: the charger qualifies, with its safety timer at 0 (R476). -/
def chgChanged (s : State) : State := requalify (s.modChg fun c => { c with tSafety := 0, chem := s.par 0x4400 })

/-- The ERROR state with its reason. -/
def chgError (r : ChgReason) (s : State) : State := chgGo .error r s

/-- A charger timer expires and the state changes (R466); during a host-core restart the state machine does not run (R474). -/
def execChargerTimeout (t : ChgTimer) (s : State) : Out :=
  let c := s.chg
  let chem := s.par 0x4400
  let s' : State := match t with
    | .pre => if c.st == .pre && s.parN 0x440A * 60000 ≤ c.tPre then chgError .preTo s else s
    | .safety => if (c.st == .pre || c.st == .bulk || c.st == .absorb) && s.parN 0x4409 * 360000 ≤ c.tSafety then
        chgError .timer s else s
    | .absorb => if c.st == .absorb && 60000 < c.tAbsorb then chgEnter (if chem == 1 then .float else .done) s else s
    | .restart => if (c.st == .float || c.st == .trickle || c.st == .done) && 60000 < c.tRestart then chgEnter .bulk s
        else s
    | .clampTime => if c.st.charging && 1000 ≤ c.clampMs.length then chgError .batOv s else s
    | .ret => if c.st == .backup && s.parN 0x4413 * 100 < c.tReturn then requalify s else s
    | .vin => if c.st.charging && 5 < c.tVin then chgPause s else s
    | .backup => if c.st != .off && c.st != .error && c.st != .backup && 1 < c.tBackup then
        bump 0x4487 (chgGo .backup ((pauseReasons s).head?.getD .none) s) else s
    | .nimhClamp => if c.st == .bulk && chem == 2 && 1000 < c.tLimit then chgEnter .trickle s else s
  .next (if s.host.restart.isSome then s else s')

/-- `on` written to `chg.retry`: ERROR ends and the charger qualifies (R466). -/
def chgRetry (s : State) : State := if s.chg.st == .error then requalify s else s

/-- CHARGER_RETRY (R466). -/
def execChargerRetry (s : State) : Out := .next (chgRetry s)

/-! ### Hardware stops of Peony (R459) -/

/-- VM below BAT plus a margin, and BAT above V_max, by the latest conversions of Peony (counts of 20 mV). That the hardware
comparisons of R459 see these values is a DESIGN CHOICE (log 113). -/
def Peony.headroom (p : Peony) (margin : Nat) : Bool := (nth p.an.vmH 0 0).toNat < (nth p.an.batH 0 0).toNat + margin
def Peony.overMax (p : Peony) : Bool := memLe p.active 0x147 2 < 2 * (nth p.an.batH 0 0).toNat

/-- Whether a stop condition of the buck still holds: headroom low clears above BAT plus 4.0 V (R459). -/
def State.stopHolds (s : State) : ChgStop → Bool
  | .zch => s.inB5 4
  | .gap => s.pe.gapFired
  | .headroom => s.pe.headroom 201
  | .clamp => s.pe.overMax

/-- Peony stops the buck on a condition that holds: headroom is low below BAT plus 3.0 V (R459). -/
def execChargerHwStop (c : ChgStop) (s : State) : Out :=
  let holds := if c == .headroom then s.pe.headroom 150 else s.stopHolds c
  .next (if !s.pe.powered || !holds then s
    else syncBuck (s.modAn fun n => { n with
      chgStop := if n.chgStop.contains c then n.chgStop else n.chgStop ++ [c],
      needRun := n.needRun || c == .gap }))

/-- Hardware stop conditions have cleared; with the last of them the buck resumes, after a gap stop at a run byte 1 (R459). -/
def execChargerHwResume (s : State) : Out :=
  .next (if !s.pe.powered then s else syncBuck (s.modAn fun n => { n with chgStop := n.chgStop.filter s.stopHolds }))

/-- BAT exceeds VM by 20 mV (R471). -/
def execBatfetOn (bat vm : BitVec 12) (s : State) : Out :=
  .next (if vm.toNat + 1 ≤ bat.toNat then s.modIsl fun i => { i with batfet := true } else s)

/-- VM exceeds BAT (R471). -/
def execBatfetOff (bat vm : BitVec 12) (s : State) : Out :=
  .next (if bat.toNat < vm.toNat then s.modIsl fun i => { i with batfet := false } else s)

end Sys2Proof.Machine
end

