-- ==== Sys2Proof/Machine/Motion.lean ====
section
/-! DEFINITION. Motion profiles, coupling, force and obstruction (chapter 12): compilation of a profile, the segments of a
move, motion states, the follower of a pair, the force estimate and its limit, the envelope and `cal learn`, the operations
counter and the manual-push assist. The loop engine's work calls these; the reactions are rows of their own, which act on
the gate command from the next D-class work (log 29). -/

namespace Sys2Proof.Machine

/-! ### Profiles (R388-R392) -/

/-- A field of a profile. -/
def profField (v : PSet) (x : Axis) (p o : Nat) : Int := v (axId x (0x100 + 16 * p + o))

/-- Quotient rounded up. -/
def ceilDiv (a b : Int) : Int := -((-a) / b)

/-- The compiled copy of a profile; none when its kind is `none` (R391, R392). A D above the 32 bits of DIST is held at the
highest DIST, which no distance to target reaches (DESIGN CHOICE, log 128). -/
def compileProf (v : PSet) (x : Axis) (p : Nat) : Option ProfCopy :=
  let g := profField v x p
  let dist32 (d : Int) : Nat := min 0xFFFFFFFF d.toNat
  let fin : SegRec := { kind := if g 8 = 1 then 5 else 7, speed := 0, rate := 0, dist := 0 }
  let copy (segs : List SegRec) : ProfCopy :=
    { pkind := (g 0).toNat, react := (g 9).toNat, flags := (g 8).toNat + 2 * (g 10).toNat, target := BitVec.ofInt 32 (g 1),
      endZone := (g 7).toNat, segs := segs ++ [fin] }
  if g 0 = 1 then
    let w := min (g 2) (vlimOf v x)
    let c : Int := (g 5).natAbs
    let d := dist32 (g 6 + ceilDiv (w * w - c * c) (2 * g 4))
    let acc : SegRec := { kind := 1, speed := w, rate := (g 3).toNat, dist := d }
    let cruise : SegRec := { kind := 2, speed := w, rate := 0, dist := d }
    if w ≤ c then some (copy [acc, cruise, { kind := 4, speed := w, rate := 0, dist := 0 }])
    else some (copy [acc, cruise, { kind := 3, speed := c, rate := (g 4).toNat, dist := 0 },
                     { kind := 4, speed := c, rate := 0, dist := 0 }])
  else if g 0 = 2 then some (copy [{ kind := 6, speed := g 5, rate := (g 3).toNat, dist := 0 }])
  else none

/-- The 128 bytes of a copy (Table 12-2). -/
def segBytes (r : SegRec) : List Byte :=
  leBytes 4 r.kind ++ leBytes 4 (ofSigned 32 r.speed) ++ leBytes 4 r.rate ++ leBytes 4 r.dist
def copyBytes (c : ProfCopy) : List Byte :=
  let b := leBytes 1 c.pkind ++ leBytes 1 c.react ++ leBytes 1 c.flags ++ leBytes 1 c.segs.length ++
    leBytes 4 c.target.toNat ++ leBytes 4 c.endZone ++ leBytes 4 0 ++ c.segs.flatMap segBytes
  b ++ List.replicate (128 - b.length) 0

/-- The key of a profile among the copies in FRAM. -/
def profKey (x : Axis) (p : Nat) : Nat := 8 * axIdx x + p

/-- The copy in force of a profile, which serves the moves that start (R390); a profile that no commit has compiled is
compiled from the set in force. -/
def profCopy (s : State) (x : Axis) (p : Nat) : Option ProfCopy :=
  match s.fram.prof.find? fun e => e.1 == (profKey x p, 0) with
  | some e => some e.2
  | none => compileProf s.set x p

/-- Writes the copy that no running move uses (R390). -/
def writeCopy (x : Axis) (p : Nat) (c : Option ProfCopy) (s : State) : State := s.modFram fun f =>
  let rest := f.prof.filter fun e => e.1 != (profKey x p, 1)
  { f with prof := match c with
      | some c => rest ++ [((profKey x p, 1), c)]
      | none => rest }

/-- From tick s the copy just written serves the moves that start (R390). -/
def useCopy (x : Axis) (p : Nat) (s : State) : State := s.modFram fun f =>
  let new := f.prof.find? fun e => e.1 == (profKey x p, 1)
  let rest := f.prof.filter fun e => e.1.1 != profKey x p
  { f with prof := match new with
      | some e => rest ++ [((profKey x p, 0), e.2)]
      | none => rest }

/-! ### References and checks -/

/-- The 32-bit modular distance from a to b (R53, R394). -/
def dist32 (a b : Int) : Int := toSigned 32 (ofSigned 32 (b - a))

/-- The present reference position: in IDLE and ASSIST it is the position (R396 closes no position loop there). -/
def refNow (s : State) (x : Axis) : Rat :=
  let m := s.mot.get x
  if m.st == .idle || m.st == .assist then ((s.pos.get x).ext : Rat) else m.ref

/-- The checks 1-5 of R400 for one axis, with R402 for an axis of a coupled pair and R394, R395: the code and the ID of the
first that fails. -/
def moveCheckOne (s : State) (x : Axis) (p : Nat) (pair : Bool) : Option (Nat × Option Nat) :=
  let kind := if p < 8 then profField s.set x p 0 else 0
  let id (o : Nat) : Nat := axId x (0x100 + 16 * p + o)
  if kind = 0 then some (70, none)
  else if pair && kind = 2 then some (30, some (id 0))
  else if !s.ready x then some (if (s.loop.get x).st == .latched then 33 else 32, none)
  else if kind = 1 && !(s.pos.get x).valid then some (30, some (axId x 0x0C2))
  else if s.coupled && (!pair && x == .b || axes2.any s.moving) then some (30, none)
  else if kind = 1 && dist32 (ratRound (refNow s x)) (profField s.set x p 1) = -(2 ^ 31 : Int) then some (13, some (id 1))
  else if kind = 2 && profField s.set x p 5 = 0 then some (13, some (id 5))
  else none

/-- The checks of `move` (R400, R402). -/
def moveCheck (s : State) (x : Axis) (p : Nat) : Option (Nat × Option Nat) :=
  if s.coupled && x == .a then
    match moveCheckOne s .a p true with
    | some e => some e
    | none => moveCheckOne s .b p true
  else moveCheckOne s x p false

/-! ### Starting -/

/-- Requests the next segment record, or at the hand-over of a `move` the header with the first one (R105, R393, log 105). -/
def prefetch (x : Axis) (s : State) : State :=
  if framBusy s (.prefetchSeg x) || !s.fram.present then s else framAsk 1 (.prefetchSeg x) 1 s

/-- Asks for the first records of a move of an axis, and on a coupled pair of both (R105, R402). -/
def askStart (x : Axis) (s : State) : State := if s.coupled && x == .a then prefetch .b (prefetch .a s) else prefetch x s

/-- The record of the next segment has arrived in the buffer that the active segment does not use (R105). -/
def segArrived (x : Axis) (s : State) : State := s.modMot x fun m =>
  match m.copy.bind fun c => c.segs[m.seg + 1]? with
  | some g => { m with segBuf := m.segBuf.filter (·.1 == m.seg) ++ [(m.seg + 1, g)] }
  | none => m

/-- Counts of the position source per electrical revolution (R356). -/
def countsPerEl (s : State) (x : Axis) : Rat :=
  if s.scSource x then 1024 * (s.axp x 0x0A3 : Rat) / (s.axp x 0x021 : Rat)
  else match s.axn x 0x0A0 with
    | 1 => 4 * (s.axp x 0x0A3 : Rat) / (s.axp x 0x021 : Rat)
    | 2 => 6
    | _ => 1024

/-- The electrical frequency in Hz, with the sign of the speed (R356). -/
def elFreq (s : State) (x : Axis) : Rat := (s.loop.get x).obs / countsPerEl s x

/-- A `move` that a sensorless axis starts from READY below the hand-over frequency runs in open loop (R367). -/
def slStart (x : Axis) (was : Bool) (s : State) : State :=
  if s.commMode x = 4 && !was && s.moving x && ratAbs (elFreq s x) < (s.axp x 0x037 : Rat) / 10 then
    s.modLoop x fun l => { l with openLoop := some ((l.angle.toNat : Rat), 0), since := s.etime, lockAt := none }
  else s

/-- Answers the `stop` lines whose axes have ended (R399); `stop` of either axis of a pair stops both (R401). -/
def answerStops (s : State) : State :=
  forAll (waiters s fun w => match w with | .axis _ .stop => true | _ => false) (fun k s =>
    match k.2 with
    | .axis sel _ =>
      let xs := if s.coupled then axes2 else selAxes sel
      if xs.any fun x => s.moving x || (s.loop.get x).hand == some .stop then s else ok k.1 s
    | _ => s) s

/-- A profile without a direction of travel (R395): HOLD or IDLE in this tick with result `done`, no record and no count. From
a motion that runs, this is a hold point (R398). -/
def startNowhere (x : Axis) (p : Nat) (hold : Bool) (s : State) : State :=
  let m := s.mot.get x
  let ran := m.st == .run || m.st == .stopping || m.st == .reversing
  let r := refNow s x
  let s := s.modMot x fun m => { m with st := if hold then .hold else .idle, result := .done, prof := some p, copy := none, segBuf := [],
                                        seg := 0, ref := r, vref := 0, aref := 0, cur := none, follow := none, grp := false,
                                        overN := 0, revBack := false, aborting := false }
  if ran then answerStops (holdPoint x s) else s

/-- The move of an axis begins on a copy: ACC or HOME from the present reference position and speed, with the first record in a
buffer and the next one asked for (Table 12-5, R105, R730). -/
def startRun (x : Axis) (p : Nat) (c : ProfCopy) (s : State) : State :=
  let m := s.mot.get x
  let r := refNow s x
  let v : Rat := if m.st == .idle then 0 else m.vref
  let p0 := ratRound r
  let d := dist32 p0 c.target.toInt
  let up := if c.pkind = 1 then decide (0 < d) else (c.segs.head?.any fun g => 0 < g.speed)
  let fresh := m.st == .idle || m.st == .hold
  let new : MotRec := { prof := p, result := .none, tick := s.tick, etime := s.etime, dur := 0, dist := p0, fMax := 0,
                        marginMin := 0, iMax := -1, endPos := 0 }
  prefetch x (s.modMot x fun m =>
    { m with st := .run, prof := some p, copy := some c, segBuf := (c.segs.take 1).map fun g => (0, g), seg := 0, ref := r, vref := v,
             aref := 0, entry := true, start := p0, target := p0 + d, pos := up, revBack := false, aborting := false, overN := 0, homeAt := none,
             endFound := false, pushAt := none, pushEnd := none, follow := none, grp := false, envBlk := [],
             cur := if fresh then some new else m.cur.map fun r => { r with prof := p } })

/-- Starts a profile on one axis (Table 12-5, R367, R395). -/
def startMove (x : Axis) (p : Nat) (s : State) : State := match profCopy s x p with
  | none => s
  | some c =>
    if c.pkind = 1 ∧ dist32 (ratRound (refNow s x)) c.target.toInt = 0 then startNowhere x p (c.flags % 2 = 1) s
    else slStart x (s.moving x) (startRun x p c s)

/-- Starts a `move`: on a coupled pair both axes, the follower under R404; without a direction of travel on either axis no
lag applies (R395, R402, R403). -/
def startGroup (x : Axis) (p : Nat) (s : State) : State :=
  if s.coupled && x == .a then
    let s := startMove .b p (startMove .a p s)
    if !(axes2.all s.moving) then s
    else
      let lag := if s.mot.a.pos then s.axp .b 0x1B1 else s.axp .b 0x1B2
      s.modMot (if 0 ≤ lag then .b else .a) fun m => { m with follow := some [] }
  else startMove x p s

/-- A motion turns to STOPPING (Table 12-5); out of ASSIST its direction of travel is that of its speed (R405). -/
def AxMot.toStop (m : AxMot) : AxMot :=
  { m with st := .stopping, follow := none, entry := false, pos := if m.st == .assist then decide (0 ≤ m.vref) else m.pos }

/-- A motion that aborts: the speed ramps to 0 (Table 12-5, last row). -/
def motAbort (x : Axis) (s : State) : State :=
  if s.moving x then s.modMot x fun m => { m.toStop with aborting := true } else s

/-- The load of a position (R322) moves the references of the axis with it; a motion aborts (Table 12-5, log 30). -/
def posLoadAxis (x : Axis) (s : State) : State :=
  let old := (s.pos.get x).ext
  let s := posLoad x s
  let d := (s.pos.get x).ext - old
  motAbort x (s.modMot x fun m => { m with ref := m.ref + (d : Rat), target := m.target + d, start := m.start + d,
                                           revTo := m.revTo + d })

/-- POS_LOAD (R322). -/
def execPosLoad (ax : Axis) (s : State) : Out := .next (posLoadAxis ax s)

/-- The position of an axis is no longer valid while it moves (R323, Table 12-5). -/
def posLost (x : Axis) (s : State) : State := motAbort x (posInvalid x s)

/-! ### Ends of a motion -/

/-- The operations counter; each increment is followed by a write of its record (R416). -/
def opsCount (x : Axis) (s : State) : State :=
  let n := (s.mot.get x).ops.1
  if 0xFFFFFFFF ≤ n then s
  else
    let sat := n + 1 = 0xFFFFFFFF
    let s := s.modMot x fun m => { m with ops := (n + 1, decide sat) }
    let s := if s.fram.present then framAsk 4 (.ops x) 1 s else s
    when_ sat (logAster 0x35 (axBit x) 0 (posArg s x)) s

/-- A motion enters HOLD or IDLE from RUN, STOPPING or REVERSING with a result: a hold point (R397, R398, R416). -/
def finishMotion (x : Axis) (r : MotResult) (hold : Bool) (s : State) : State :=
  let count := r == .done && ((s.mot.get x).copy.any fun c => c.pkind == 1 && c.flags.testBit 1)
  let s := endMotion x r (if hold then .hold else .idle) s
  let s := when_ count (opsCount x) s
  answerStops (holdPoint x s)

/-- Whether the profile of a motion ends in HOLD. -/
def AxMot.holds (m : AxMot) : Bool := match m.copy with
  | some c => c.flags.testBit 0
  | none => true

/-! ### Stepping (R392, R393, R396, R409) -/

/-- Length of a tick in seconds. -/
def State.tickSec (s : State) : Rat := (s.tickP : Rat) / 80000000

/-- A speed that moves towards another by at most a step. -/
def rampTo (v t step : Rat) : Rat := if v < t then min t (v + step) else max t (v - step)

/-- The sign of a direction. -/
def dirSign (up : Bool) : Rat := if up then 1 else -1

/-- The record of the active segment, from its buffer. -/
def AxMot.segRec (m : AxMot) : Option SegRec := (m.segBuf.find? fun e => e.1 == m.seg).map (·.2)

/-- The kind of the active segment of a running profile (`axX.mot.seg`, log 128); 0 when none runs. -/
def AxMot.segKind (m : AxMot) : Nat :=
  if m.st == .run && m.follow.isNone then (match m.segRec with | some g => g.kind | none => 0) else 0

/-- Puts a new reference speed in force for one tick of length dt. -/
def moveRef (x : Axis) (v dt : Rat) (s : State) : State := s.modMot x fun m =>
  { m with ref := m.ref + (m.vref + v) / 2 * dt, vref := v, aref := (v - m.vref) / dt }

/-- A tick of STOPPING. -/
def stepStop (x : Axis) (dt : Rat) (s : State) : State :=
  let m := s.mot.get x
  let s := moveRef x (rampTo m.vref 0 ((s.axp x 0x183 : Rat) * dt)) dt s
  if (s.mot.get x).vref = 0 then finishMotion x (if m.aborting then .aborted else .stopped) true s else s

/-- The speed, acceleration and deceleration of an interrupted profile (R409). -/
def revRates (s : State) (x : Axis) : Rat × Rat × Rat :=
  let m := s.mot.get x
  let seg (k : Nat) : Option SegRec := m.copy.bind fun c => c.segs.find? fun g => g.kind == k
  let v := match seg 1 with | some g => g.speed | none => min (profField s.set x (m.prof.getD 0) 2) (vlimOf s.set x)
  let a : Int := match seg 1 with | some g => g.rate | none => profField s.set x (m.prof.getD 0) 3
  let d : Int := match seg 3 with | some g => g.rate | none => profField s.set x (m.prof.getD 0) 4
  (v, a, d)

/-- The end of a reversal: the start of the move, or `axX.force.rev_dist` back but never past the start (R409). A learning pass
reverses to its start (R414). -/
def revTarget (s : State) (x : Axis) : Int :=
  let m := s.mot.get x
  let d := s.axp x 0x195
  let r := ratRound m.ref
  if d = 0 || m.learn.isSome then m.start else if m.pos then max m.start (r - d) else min m.start (r + d)

/-- A tick of REVERSING. -/
def stepRev (x : Axis) (dt : Rat) (s : State) : State :=
  let m := s.mot.get x
  if !m.revBack then
    let s := moveRef x (rampTo m.vref 0 ((s.axp x 0x194 : Rat) * dt)) dt s
    if (s.mot.get x).vref = 0 then
      let back := revTarget s x
      s.modMot x fun m => { m with revBack := true, revTo := back, pos := !m.pos, envBlk := [] }
    else s
  else
    let q := revRates s x
    let sg := dirSign m.pos
    let rem := sg * (m.revTo - m.ref)
    let mag := sg * m.vref
    let mag := if rem ≤ mag * mag / (2 * q.2.2) then max 0 (mag - q.2.2 * dt) else min q.1 (mag + q.2.1 * dt)
    let s := moveRef x (sg * mag) dt s
    let left := sg * (m.revTo - (s.mot.get x).ref)
    if left ≤ 0 then
      finishMotion x .reversed true (s.modMot x fun m => { m with ref := m.revTo })
    else s

/-- Enters the next segment of the profile; HOLD or END is the end of the motion (R393, Table 12-5). -/
def nextSeg (x : Axis) (s : State) : State :=
  let s := s.modMot x fun m => { m with seg := m.seg + 1 }
  match (s.mot.get x).segRec with
  | some g => if g.kind = 5 ∨ g.kind = 7 then finishMotion x .done (s.mot.get x).holds s else prefetch x s
  | none => s

/-- The reference speed of a segment at the end of a tick of length dt (Table 12-3). -/
def segSpeed (sg : Rat) (g : SegRec) (v dt : Rat) : Rat :=
  if g.kind = 1 ∨ g.kind = 3 then rampTo v (sg * g.speed) (g.rate * dt)
  else if g.kind = 4 then sg * g.speed
  else if g.kind = 6 then rampTo v g.speed (g.rate * dt)
  else v

/-- A tick of RUN (Table 12-3). At most one new segment is entered in a tick (R393): `enter` says whether none has been. -/
def stepRun (enter : Bool) (x : Axis) (dt : Rat) (s : State) : State :=
  let m := s.mot.get x
  match m.segRec with
  | none => s
  | some g =>
    let sg := dirSign m.pos
    let v := segSpeed sg g m.vref dt
    let s := moveRef x v dt s
    let left := sg * (m.target - (s.mot.get x).ref)
    let s := if g.kind = 4 ∧ left ≤ 0 then s.modMot x fun m => { m with ref := m.target } else s
    let done := (g.kind = 4 && decide (left ≤ 0)) || (g.kind = 1 && (v == sg * g.speed || left ≤ g.dist)) ||
      (g.kind = 2 && left ≤ g.dist) || (g.kind = 3 && v == sg * g.speed)
    if done && enter then nextSeg x s else s

/-- The leader's progress (R404). -/
def progress (m : AxMot) : Rat :=
  let d : Rat := m.target - m.start
  if d = 0 then 1 else (m.ref - m.start) / d

/-- The progress at an age in ms from the samples (age, value), newest first; 0 before the first (R404). -/
def ringAt (age : Rat) : List (Rat × Rat) → Rat
  | [] => 0
  | [a] => if age ≤ a.1 then a.2 else 0
  | a :: b :: r =>
    if age ≤ a.1 then a.2
    else if age ≤ b.1 then a.2 + (b.2 - a.2) * (age - a.1) / (b.1 - a.1) else ringAt age (b :: r)

/-- The samples of a ring with their ages: the present progress, and an entry for each ms tick since the start. -/
def ringAges (now frac : Rat) (ring : List Rat) : List (Rat × Rat) :=
  (0, now) :: (ring.foldl (fun (a : List (Rat × Rat) × Rat) p => ((a.2, p) :: a.1, a.2 + 1)) ([], frac)).1.reverse

/-- The applicable lag in ms (R403). -/
def lagOf (s : State) : Int := if s.mot.a.pos then s.axp .b 0x1B1 else s.axp .b 0x1B2

/-- A tick of the follower (R404): its reference from the leader's progress |lag| ms earlier, at no more than
`axB.mot.vlim`; it ends when the leader has ended and its reference has reached its target. -/
def stepFollow (x : Axis) (dt : Rat) (s : State) : State :=
  let m := s.mot.get x
  let l := s.mot.get (otherAxis x)
  let ring := m.follow.getD []
  let phi := ringAt ((lagOf s).natAbs : Rat) (ringAges (progress l) ((s.acc : Rat) / 80000) ring)
  let want : Rat := m.start + (m.target - m.start) * phi
  let cap : Rat := (vlimOf s.set .b : Rat) * dt
  let r := m.ref + max (-cap) (min cap (want - m.ref))
  let v := (r - m.ref) / dt
  let s := s.modMot x fun m => { m with ref := r, vref := v, aref := (v - m.vref) / dt }
  if !s.moving (otherAxis x) && r = (m.target : Rat) then
    finishMotion x .done m.holds (s.modMot (otherAxis x) fun m => { m with copy := none })
  else s

/-- An ms tick stores the leader's progress (R404); the ring has 4,096 entries. -/
def ringPush (s : State) : State :=
  forAll axes2 (fun x s => s.modMot x fun m =>
    { m with follow := m.follow.map fun l => (progress (s.mot.get (otherAxis x)) :: l).take 4096 }) s

/-- The loop engine stores the progress of every ms tick since its last work (R404): a tick without an accepted UC stores none (R425),
and a host-core restart does not stop it (R31). -/
def ringWork (s : State) : State := iter ringPush s.ringDue { s with ringDue := 0 }

/-- The tick in which a move is accepted: its first segment is entered and not stepped, and the reference goes on at its speed (R393,
Table 12-4). -/
def stepEntry (x : Axis) (dt : Rat) (s : State) : State :=
  moveRef x (s.mot.get x).vref dt (s.modMot x fun m => { m with entry := false })

/-- One tick of an axis that moves; `seg` is the segment that was active when the work began. -/
def stepTick (seg : Nat) (x : Axis) (dt : Rat) (s : State) : State :=
  let m := s.mot.get x
  match m.st with
  | .run => if m.follow.isSome then stepFollow x dt s else stepRun (m.seg == seg) x dt s
  | .stopping => stepStop x dt s
  | .reversing => stepRev x dt s
  | _ => s

/-- The references over the ticks elapsed (R49); a profile copy is needed until the end. -/
def stepAxis (x : Axis) (s : State) : State :=
  if (s.mot.get x).entry then stepEntry x s.tickSec s else iter (stepTick (s.mot.get x).seg x s.tickSec) (min 4096 s.link.elapsed) s

/-! ### The force estimate and the envelope (R405-R411) -/

/-- F of R405, in A. -/
def forceOf (s : State) (x : Axis) : Rat :=
  let m := s.mot.get x
  let l := s.loop.get x
  dirSign m.pos * (l.iq - (s.axp x 0x192 : Rat) * m.aref / 1000000000 - (s.axp x 0x193 : Rat) * l.obs / 1000000000)

/-- The envelope bin of a position (R410). -/
def envBin (s : State) (x : Axis) (p : Int) : Option Nat :=
  let b := (p - s.axp x 0x1A0) / s.axp x 0x1A1
  if 0 ≤ b ∧ b < 4096 then some b.toNat else none

/-- An envelope of a slot: its bins that have a value, by number; direction 0 is positive. -/
def envList (s : State) (x : Axis) (slot dir : Nat) : List (Nat × Nat) :=
  match s.fram.env.find? fun e => e.1 == (axIdx x, slot, dir) with
  | some e => e.2
  | none => []

/-- The value of a bin in the slot in force for a direction. -/
def envValue (s : State) (x : Axis) (up : Bool) (b : Nat) : Option Nat :=
  ((envList s x (s.fram.envSlot.get x) (if up then 0 else 1)).find? fun e => e.1 == b).map (·.2)

/-- Whether the envelopes of an axis are in use (R411). -/
def envOn (s : State) (x : Axis) : Bool := s.axp x 0x1A2 == 1 && s.fram.envValid.get x

/-- Bins with a value in the slot in force (`axX.env.bins`, R413): none while the envelopes are not in use (R411). -/
def envBins (s : State) (x : Axis) : Nat :=
  if !envOn s x then 0 else (envList s x (s.fram.envSlot.get x) 0).length + (envList s x (s.fram.envSlot.get x) 1).length

/-- Requests the envelope block of the position, or the next one in the direction of travel (R105, R410). -/
def envFetch (x : Axis) (s : State) : State :=
  let m := s.mot.get x
  if !envOn s x || !s.fram.present then s
  else match envBin s x (s.pos.get x).pos.toInt with
    | none => s
    | some b =>
      let blk := b / 32
      let next : Int := if m.pos then blk + 1 else (blk : Int) - 1
      let want : Option Nat := if !m.envBlk.contains blk then some blk
        else if 0 ≤ next ∧ next < 128 ∧ !m.envBlk.contains next.toNat then some next.toNat else none
      match want with
      | some k => if s.fram.queue.any (fun r => match r.op with | .prefetchEnv y _ => y == x | _ => false) ||
                     (match s.fram.cur with | some r => (match r.op with | .prefetchEnv y _ => y == x | _ => false)
                                            | none => false) then s
        else framAsk 1 (.prefetchEnv x k) 1 s
      | none => s

/-- `axX.force.thr.eff` in A (R406). -/
def forceThr (s : State) (x : Axis) : Rat := (s.axEff x 0x190 : Rat) / 100

/-- L of R406 at the present position: `axX.force.thr.eff` in a HOME segment, during `cal learn`, without a bin value, and
while the block is not in a buffer (R407, R411, R423). -/
def forceLimit (s : State) (x : Axis) : Rat :=
  let m := s.mot.get x
  let thr := forceThr s x
  if m.segKind = 6 || m.learn.isSome || !envOn s x then thr
  else match envBin s x (s.pos.get x).pos.toInt with
    | none => thr
    | some b =>
      if !m.envBlk.contains (b / 32) then thr
      else match envValue s x m.pos b with
        | none => thr
        | some e => min thr ((e : Rat) / 1000 + (s.axp x 0x191 : Rat) / 100)

/-- Puts a record into a bin: the largest F of the pass, rounded up to 1 mA (R413). -/
def learnPut (b v : Nat) : List (Nat × Nat) → List (Nat × Nat)
  | [] => [(b, v)]
  | e :: r => if b < e.1 then (b, v) :: e :: r else if b = e.1 then (b, max v e.2) :: r else e :: learnPut b v r

/-- The envelope block that the check of this tick needs has been asked for in an earlier tick and has not arrived (R120,
R423). -/
def lateEnvelope (s : State) (x : Axis) : Bool :=
  let m := s.mot.get x
  (m.st == .run || m.st == .stopping || m.st == .reversing) && m.segKind != 6 && m.learn.isNone &&
  envOn s x && (match envBin s x (s.pos.get x).pos.toInt with
    | some b => !m.envBlk.contains (b / 32) && framBusy s (.prefetchEnv x (b / 32))
    | none => false)

/-- The force check of a tick with an accepted UC (R405-R407, R413, R730). -/
def forceWork (x : Axis) (s : State) : State :=
  let m := s.mot.get x
  if m.st != .run && m.st != .stopping && m.st != .reversing then s
  else
    let s := envFetch x s
    let f := forceOf s x
    let l := forceLimit s x
    let p := s.pos.get x
    let iq := mA (ratAbs (s.loop.get x).iq)
    let bin := envBin s x p.pos.toInt
    let creepEnd := m.segKind = 4 && (m.target - p.ext).natAbs ≤ (m.copy.map (·.endZone)).getD 0 && l < f
    let press := m.segKind = 6 && (s.axp x 0x196 : Rat) / 100 < f
    s.modMot x fun m =>
      { m with est := f, lim := l, forceMade := true,
               cur := m.cur.map fun c =>
                 if c.iMax < 0 then { c with fMax := mA f, marginMin := mA (l - f), iMax := iq }
                 else { c with fMax := max c.fMax (mA f), marginMin := min c.marginMin (mA (l - f)), iMax := max c.iMax iq },
               learn := m.learn.map fun g => match bin with
                 | some b => { g with cur := learnPut b (min 65534 (f * 1000).ceil.toNat) g.cur }
                 | none => g,
               homeAt := if press then some (m.homeAt.getD s.etime) else none,
               endFound := m.endFound || creepEnd,
               overN := if creepEnd then 0 else if l < f then m.overN + 1 else 0 }

/-- A HOME segment has pressed for 20 ms without a break (R407). -/
def State.homed (s : State) (x : Axis) : Bool := match (s.mot.get x).homeAt with
  | some t => 20000 ≤ s.since t
  | none => false

/-- END_STOP (R407): the end of a HOME segment, or the force limit crossed in CREEP within `end_zone`; in a tick with an accepted UC
(R425). -/
def execEndStop (ax : Axis) (s : State) : Out :=
  let m := s.mot.get ax
  .next (if m.st != .run || !s.link.gotUc then s
    else if m.segKind = 6 && s.homed ax then
      let t := (m.copy.map fun c => c.target.toInt).getD 0
      let s := reframe ax (fun p => { p with pos := BitVec.ofInt 32 t, wrap := 0, valid := true }) s
      let s := s.modLoop ax fun l => { l with offRt := none, offWait := l.offWait || s.commMode ax == 3 }
      finishMotion ax .homed m.holds (s.modMot ax fun m => { m with ref := (t : Rat) })
    else if m.endFound then
      finishMotion ax .endstop m.holds (s.modMot ax fun m => { m with ref := ((s.pos.get ax).ext : Rat) })
    else s)

/-! ### Obstructions (R406, R408, R409, R420, R421) -/

/-- An axis has found an obstruction: F above L in two consecutive ticks. -/
def AxMot.hit (m : AxMot) : Bool := 2 ≤ m.overN && (m.st == .run || m.st == .stopping || m.st == .reversing)

/-- The entry of a reversal: F in mA and the position (R409, log 31). -/
def logReverse (x : Axis) (s : State) : State :=
  logAster 0x32 (axBit x) (arg16 (mA (s.mot.get x).est)) (posArg s x) s

/-- An axis turns to REVERSING (R409), and so does the leader of a pair that has ended its move before its follower (R404). -/
def toReverse (x : Axis) (s : State) : State :=
  let r := refNow s x
  s.modMot x fun m =>
    if m.st == .run || ((m.st == .hold || m.st == .idle) && m.copy.isSome) then
      { m with st := .reversing, ref := r, revBack := false, follow := none, overN := 0, entry := false }
    else { m with overN := 0 }

/-- The profile reaction that governs: on a pair that of the leader (R404); a learning pass reverses (R414). -/
def reacts (s : State) (x : Axis) : Bool :=
  let lead := if (s.mot.get x).follow.isSome then otherAxis x else x
  (s.mot.get x).learn.isSome || ((s.mot.get lead).copy.any fun c => c.react == 1)

/-- Whether an axis moves as one of a coupled pair. -/
def State.paired (s : State) : Bool := s.coupled && axes2.any fun x => (s.mot.get x).follow.isSome

/-- The decision of an obstruction in the D-class work of its tick (R406, R408, R409): a reversal in RUN under `reverse` while the host
core runs, whose ramp starts in this work, else a fault. A pair reacts once (R421). The stall check does not decide in the same tick
(R420). OBSTRUCTION reports it. -/
def obsDecide (s : State) : State :=
  let hits := axes2.filter fun x => (s.mot.get x).hit && (s.mot.get x).obsDue.isNone
  let react (axs : List Axis) (s : State) : State :=
    let rev := (axs.head?.any (reacts s)) && s.host.restart.isNone && axs.all fun x => (s.mot.get x).st == .run
    let s := forAll axs (fun x s => (s.modLoop x fun l => { l with stallAt := none }).modMot x fun m =>
      { m with obsDue := some rev, obsTick := some s.tick }) s
    if !rev then s else if s.paired then toReverse .b (toReverse .a s) else forAll axs toReverse s
  if hits.isEmpty then s else if s.paired then react hits s else forAll hits (fun x s => react [x] s) s

/-- OBSTRUCTION (R406, R408, R409, R421): the decision of the D-class work is reported with an OBSTRUCT_REV entry where the motion
reverses, and with E:OBSTRUCT otherwise. On a pair every axis that found an obstruction in the tick writes its entry. -/
def execObstruction (ax : Axis) (s : State) : Out :=
  let due (x : Axis) : Bool := (s.mot.get x).obsDue.isSome
  .next (match (s.mot.get ax).obsDue with
    | none => s
    | some rev =>
      let axs := if s.coupled then axes2.filter due else [ax]
      let s := forAll axs (fun x s => s.modMot x fun m => { m with obsDue := none }) s
      if rev then forAll axs logReverse s
      else forAll axs (fun x s =>
        asterFault 0x08 (axBit x) (arg16 (mA (s.mot.get x).est)) (posArg s x) 0 s) s)

/-! ### `cal learn` (R412-R415) -/

/-- The other of the two learning profiles. -/
def learnOther (s : State) (x : Axis) (p : Nat) : Nat :=
  if p = s.axn x 0x1A3 then s.axn x 0x1A4 else s.axn x 0x1A3

/-- Ends the `cal learn` line of an axis and the run; no envelope value changes. -/
def learnEnd (x : Axis) (reply : Text) (s : State) : State :=
  let s := forAll (waiters s fun w => match w with | .calLearn y => y == x || s.coupled | _ => false)
    (fun k s => answer k.1 reply s) s
  if s.coupled then (s.modMot .a fun m => { m with learn := none }).modMot .b fun m => { m with learn := none }
  else s.modMot x fun m => { m with learn := none }

/-- The axes of a learning run. -/
def learnAxes (s : State) (x : Axis) : List Axis := if s.coupled then axes2 else [x]

/-- Starts a pass with a profile (R413). -/
def learnPass (x : Axis) (p : Nat) (s : State) : State :=
  match moveCheck s x p with
  | some e => learnEnd x (errText e.1 e.2) s
  | none =>
    let s := startGroup x p s
    if !s.moving x then learnEnd x (errText 37 none) s
    else forAll (learnAxes s x) (fun y s => s.modMot y fun m =>
      { m with learn := m.learn.map fun g => { g with cur := [], run := true, asked := false, dirPos := m.pos } }) s

/-- The envelope value of a bin: the largest record over the passes; a bin that a pass did not enter has none (R413). -/
def learnMerge (first : Bool) (old cur : List (Nat × Nat)) : List (Nat × Nat) :=
  if first then cur
  else old.filterMap fun e => (cur.find? fun c => c.1 == e.1).map fun c => (e.1, max e.2 c.2)

/-- Takes the records of a complete pass. -/
def learnTake (g : Learn) : Learn :=
  if g.dirPos then { g with donePos := g.donePos + 1, recPos := learnMerge (g.donePos == 0) g.recPos g.cur, cur := [] }
  else { g with doneNeg := g.doneNeg + 1, recNeg := learnMerge (g.doneNeg == 0) g.recNeg g.cur, cur := [] }

/-- Whether every pass is complete. -/
def learnDone (s : State) (x : Axis) (g : Learn) : Bool := s.axn x 0x1A5 ≤ g.donePos && s.axn x 0x1A5 ≤ g.doneNeg

/-- Changes the learning run of all its axes. -/
def modLearn (x : Axis) (f : Learn → Learn) (s : State) : State :=
  forAll (learnAxes s x) (fun y s => s.modMot y fun m => { m with learn := m.learn.map f }) s

/-- LEARN_PASS_COMPLETE (R413, R415): the pass has run to its end. The next one goes in the other direction; when every
pass is complete the envelopes are written at priority 3. -/
def execLearnPassComplete (ax : Axis) (s : State) : Out :=
  let m := s.mot.get ax
  .next (match m.learn with
    | none => s
    | some g =>
      if !g.run || (g.pair && ax == .b) || (learnAxes s ax).any s.moving || m.result != .done then s
      else
        let s := modLearn ax (fun g => { learnTake g with run := false, next := learnOther s ax g.next }) s
        match (s.mot.get ax).learn with
        | none => s
        | some g => if learnDone s ax g then framAsk 3 (.envSlot ax) (256 * (learnAxes s ax).length) s else s)

/-- The learning run in the D-class work (R413, R414): the next pass starts once its first records stand in the buffers; a reversed pass is repeated; the third
discarded pass and every other end of a pass abort the run. -/
def learnStep (x : Axis) (s : State) : State :=
  match (s.mot.get x).learn with
  | none => s
  | some g =>
    let r := (s.mot.get x).result
    if (g.pair && x == .b) || (learnAxes s x).any s.moving || learnDone s x g then s
    else if !g.run then
      if !g.asked then modLearn x (fun g => { g with asked := true }) (forAll (learnAxes s x) prefetch s)
      else if (learnAxes s x).any fun y => framBusy s (.prefetchSeg y) then s
      else learnPass x g.next s
    else if r == .done then s
    else if r == .reversed && g.bad < 2 then modLearn x (fun g => { g with bad := g.bad + 1, run := false }) s
    else learnEnd x (errText 75 none) s

/-! ### Manual-push assist (R417, R418, R424) -/

/-- The push criterion in this tick: its direction, if one holds. -/
def pushNow (s : State) (x : Axis) : Option Bool :=
  let m := s.mot.get x
  let l := s.loop.get x
  if s.axp x 0x1C0 = 0 || l.st != .ready || l.hand.isSome || l.disarming || l.cal.isSome || m.learn.isSome ||
     (s.coupled && axes2.any s.moving) || s.commMode x == 5 then none
  else if m.st == .idle then
    if (s.axp x 0x1C2 : Rat) < ratAbs l.obs then some (decide (0 < l.obs)) else none
  else if m.st == .hold then
    if (s.axp x 0x1C1 : Rat) / 100 < ratAbs l.iq then some (decide (l.iq < 0)) else none
  else none

/-- The timers of a push and of its end. -/
def pushWork (x : Axis) (s : State) : State :=
  let now := pushNow s x
  let slow := ratAbs (s.loop.get x).obs < (s.axp x 0x1C2 : Rat)
  s.modMot x fun m =>
    { m with pushAt := match now with
               | none => none
               | some up => match m.pushAt with
                 | some (t, u) => if u == up then some (t, u) else some (s.etime, up)
                 | none => some (s.etime, up),
             pushEnd := if m.st == .assist && slow then some (m.pushEnd.getD s.etime) else none }

/-- PUSH_DETECT (R417, R418), in a tick with an accepted UC (R425): ASSIST, or under `go` the profile for the direction of the push, which is handed over as a `move`
without a line. -/
def execPushDetect (ax : Axis) (s : State) : Out :=
  let m := s.mot.get ax
  .next (match m.pushAt with
    | none => s
    | some (t, up) =>
      if !s.link.gotUc || (s.since t : Int) < s.axp ax 0x1C3 * 1000 || (pushNow s ax).isNone then s
      else
        let s := logAster 0x34 (axBit ax) 0 (posArg s ax) s
        let p := if up then s.axn ax 0x1C6 else s.axn ax 0x1C7
        if s.axp ax 0x1C0 = 2 && (s.pos.get ax).valid && profField s.set ax p 0 = 1 && (moveCheck s ax p).isNone then
          askStart ax ((s.modLoop ax fun l => { l with hand := some (.move p) }).modMot ax fun m => { m with pushAt := none })
        else s.modMot ax fun m =>
          { m with st := .assist, pushPos := up, pushHold := m.st == .hold, pushAt := none, pushEnd := none, vref := 0 })

/-- PUSH_END (R418), in a tick with an accepted UC (R425): HOLD at the present position when the push was found in HOLD, else IDLE (log 128). -/
def execPushEnd (ax : Axis) (s : State) : Out :=
  let m := s.mot.get ax
  .next (match m.pushEnd with
    | none => s
    | some t =>
      if m.st != .assist || s.since t < 500000 || !s.link.gotUc then s
      else s.modMot ax fun m =>
        { m with st := if m.pushHold then .hold else .idle, ref := ((s.pos.get ax).ext : Rat), vref := 0, aref := 0,
                 pushEnd := none })

/-- The iq demand of ASSIST (R418): `axX.assist.i.eff` in the direction of the push, falling to 0 from 0.5 to 1.0 of
`axX.assist.vmax`. -/
def assistIq (s : State) (x : Axis) : Rat :=
  let r := ratAbs (s.loop.get x).obs / (s.axp x 0x1C5 : Rat)
  let k : Rat := if r ≤ 1/2 then 1 else if 1 ≤ r then 0 else 2 - 2 * r
  dirSign (s.mot.get x).pushPos * k * (s.axEff x 0x1C4 : Rat) / 100

/-! ### The motion loop (R396) -/

/-- Limits a magnitude. -/
def clampTo (lim q : Rat) : Rat := max (-lim) (min lim q)

/-- The iq reference of a tick of length dt. -/
def motionLoop (x : Axis) (dt : Rat) (s : State) : State :=
  let m := s.mot.get x
  let l := s.loop.get x
  let act : Rat := activeLimit s s.set x / 1000
  if l.disarming then s.modMot x fun m => { m with iqRef := 0, intV := 0 }
  else match m.st with
    | .idle => s.modMot x fun m => { m with iqRef := 0, intV := 0 }
    | .assist =>
      let q := clampTo act (assistIq s x)
      s.modMot x fun m => { m with iqRef := q, intV := 0, ref := ((s.pos.get x).ext : Rat), vref := l.obs }
    | _ =>
      let lim : Rat := if m.st == .hold then (s.axEff x 0x044 : Rat) / 1000 else act
      let kp : Rat := (s.axp x 0x180 : Rat) / 10
      let kv : Rat := (s.axp x 0x181 : Rat) / 1000000
      let ti : Rat := (s.axp x 0x182 : Rat) / 10000
      let e := m.vref + kp * (m.ref - (s.pos.get x).ext) - l.obs
      let i := clampTo lim (m.intV + kv / ti * e * dt)
      let q := clampTo lim (kv * e + i + (s.axp x 0x192 : Rat) * m.aref / 1000000000)
      s.modMot x fun m => { m with intV := i, iqRef := q }

end Sys2Proof.Machine
end

