-- ==== Sys2Proof/Machine/Loop.lean ====
section
/-! DEFINITION. Commutation and the current loops (chapter 11): the centre plan and the phase currents, the electrical angle
of each mode, the current loops and the duty codes, the arming sequence, the stall, sense and open-phase checks, the running
part of the calibrations, and the D-class work of one tick. -/

namespace Sys2Proof.Machine

/-! ### The centre plan (R97, R98) -/

/-- The base pairs of Table 4-2. Results: 0-2 axis A U, V, W; 3-5 axis B; 6 BUS; 7 idle; 8 SIN; 9 COS. -/
def planBase (a b sc : Bool) : List (Nat × Nat) :=
  (if a && b then [(0, 1), (3, 4), (2, 5), (6, 7)]
   else if a then [(0, 1), (2, 6)] else if b then [(3, 4), (5, 6)] else [(6, 7)]) ++ (if sc then [(8, 9)] else [])

/-- The centre plan with its first r pairs converted again (R98), as the list of the results in their positions. Where r is larger
than the number of base pairs, the pairs left over convert nothing, and their results are 0 as those of an idle converter
(DESIGN CHOICE, log 94). -/
def planList (a b sc : Bool) (r : Nat) : List Nat :=
  let base := planBase a b sc
  (base ++ base.take r ++ List.replicate (r - base.length) (7, 7)).flatMap fun (p : Nat × Nat) => [p.1, p.2]

/-- The plan of the set in force. -/
def State.plan (s : State) : List Nat :=
  planList (s.configured .a) (s.configured .b) s.scAxis.isSome (repeatEff s.set).toNat

/-- The mean of the results of one kind in this tick, as a code (R98). -/
def State.result (s : State) (k : Nat) : Rat :=
  let vs := (s.plan.zip s.link.conv).filterMap fun e => if e.1 = k then some e.2.toNat else none
  if vs.isEmpty then 0 else (vs.foldl (· + ·) 0 : Nat) / (vs.length : Rat)

/-- The three phase results of an axis. -/
def phaseCodes (s : State) (x : Axis) : Tri Rat :=
  { u := s.result (3 * axIdx x), v := s.result (3 * axIdx x + 1), w := s.result (3 * axIdx x + 2) }

/-- The offsets of an axis (R357). -/
def offsets (s : State) (x : Axis) : Tri Int := { u := s.axp x 0x074, v := s.axp x 0x075, w := s.axp x 0x076 }

/-- A result as a current in A (R282). -/
def codeAmp (s : State) (x : Axis) (c : Rat) (off : Int) : Rat :=
  (c - 2048 - (off : Rat)) * (33 / 40960) / ((gainOf (s.axp x 0x070) : Rat) * (s.axp x 0x071 : Rat) / 100000)

/-- The bus result of this tick as a current in A (R282). The bus amplifier has no calibrated offset in the spec; it is a free value
(log 102). -/
def busAmp (s : State) : Rat :=
  (s.result 6 - 2048 - (Config.busOffset : Rat)) * (33 / 40960) / ((gainOf (s.par 0x4801) : Rat) * (s.par 0x4802 : Rat) / 100000)

/-- The effective dead time of an axis by a set under a band code, in clocks (R254). -/
def deadOf (v : PSet) (x : Axis) (b : Nat) : Nat := deadEff b (v (axId x 0x060)).toNat (v (axId x (0x064 + min b 4))).toNat
def deadIn (s : State) (x : Axis) (b : Nat) : Nat := deadOf s.set x b

/-- Whether the phase result of a leg in this tick is valid (R446), from the word, the tick length and the band code of the
reload that began the tick, as acknowledged frames show them (R30, R538): under RUN by its class and duty, else while its low side
conducts. -/
def resultValid (s : State) (x : Axis) (p : Phase) : Bool :=
  let w := s.link.words.get x
  let t := ((s.tickP : Int) + s.link.trim).toNat
  let d := ((match p with | .u => w.du | .v => w.dv | .w => w.dw) : BitVec 12).toNat
  let b := s.link.band.get x
  let dead := deadIn s x b
  if w.cmd == 3 then true
  else if w.cmd != 1 then false
  else match tickClass d t dead (s.axn x 0x063) with
    | .low => true
    | .high => false
    | .normal => (80 : Int) + s.axp x (0x07A + min b 4) ≤ (t / 2 : Nat) - (highHalf d t : Int) - dead

/-- Sum of three values. -/
def Tri.sum (t : Tri Rat) : Rat := t.u + t.v + t.w

/-- Replaces one phase by minus the sum of the other two (R373, R447). -/
def rebuild (p : Phase) (i : Tri Rat) : Tri Rat := i.set p (i.get p - i.sum)

/-! ### Speed and angle (R351-R356) -/

/-- A number of angle units as an angle. -/
def toAngle (q : Rat) : W16 := BitVec.ofInt 16 q.floor

/-- The width of a sector from boundary k forward. -/
def sectorWidth (s : State) (x : Axis) (k : Nat) : Int := (hallAng s x ((k + 1) % 6) - hallAng s x k) % 65536

/-- The centre of the present Hall sector (R352); an illegal state keeps the angle. -/
def sectorCentre (s : State) (x : Axis) : W16 := match hallIdx (s.pos.get x).hall with
  | some k => toAngle ((hallAng s x k : Rat) + (sectorWidth s x k : Rat) / 2)
  | none => (s.loop.get x).angle

/-- The interpolated angle of `hall_sine` at the sampling instant (R352). -/
def hallSine (s : State) (x : Axis) : W16 :=
  let l := s.loop.get x
  match l.bnd, hallIdx (s.pos.get x).hall with
  | some (b, t), some k =>
    -- a crossing of this tick may lie after the sampling instant
    let since := (s.eclk + BitVec.ofNat 32 (s.tickP / 2) - t).toInt.toNat
    if 100000 ≤ (s.etime - l.bndAt).toInt ∨ l.bndStep = 0 then sectorCentre s x
    else
      let w := sectorWidth s x k
      let trav := min (w : Rat) ((w : Rat) * since / (l.bndStep.natAbs : Rat))
      toAngle ((hallAng s x b : Rat) + dirSign (decide (0 < l.bndStep)) * trav)
  | _, _ => sectorCentre s x

/-- The angle of `foc` (R353, R387). -/
def focAngle (s : State) (x : Axis) : W16 := match (s.loop.get x).offRt with
  | some o => toAngle ((((s.pos.get x).pos.toInt - o) * s.axp x 0x021 * 65536 : Int) / (mRev s x : Rat))
  | none => sectorCentre s x

/-- The alpha and beta components of three phase values (R357). -/
def clarke (i : Tri Rat) : Rat × Rat := ((2 * i.u - i.v - i.w) / 3, (i.v - i.w) / sqrt3)

/-- The three phases of a vector. -/
def unclarke (a b : Rat) : Tri Rat := { u := a, v := (-a + sqrt3 * b) / 2, w := (-a - sqrt3 * b) / 2 }

/-- The terminal voltages of an axis from the AUX results, in V (R284, Table 4-3). -/
def terminals (s : State) (x : Axis) : Tri Rat :=
  let t (i : Nat) : Rat := ((nth s.link.aux i 0).toNat : Rat) / 50
  match x with
  | .a => { u := t 2, v := t 3, w := t 4 }
  | .b => { u := t 5, v := t 6, w := t 7 }

/-- The back-EMF that the observer works from (R354): with the bridge off the terminals, else v - Rs i - Ls di/dt. -/
def backEmf (s : State) (x : Axis) : Rat × Rat :=
  let l := s.loop.get x
  if l.word.cmd != 1 then clarke (terminals s x)
  else
    let rs : Rat := (s.axp x 0x022 : Rat) / 1000
    let ls : Rat := (s.axp x 0x023 : Rat) / 1000000
    let v := clarke l.v
    let i := clarke l.i
    let j := clarke l.iPrev
    let di (a b : Rat) : Rat := (a - b) / (s.tickSec * (max 1 s.link.elapsed : Nat))
    (v.1 - rs * i.1 - ls * di i.1 j.1, v.2 - rs * i.2 - ls * di i.2 j.2)

/-- Whether START aligns the rotor (Table 11-4). -/
def alignsStart (s : State) (x : Axis) : Bool :=
  s.commMode x == 3 && (s.loop.get x).offRt.isNone && s.axp x 0x02C == 1

/-- The angle and the speed of an axis in a tick with an accepted UC (R351-R355). During an align start the angle is 0. -/
def angleWork (x : Axis) (s : State) : State :=
  let l := s.loop.get x
  let mode := s.commMode x
  let ext := (s.pos.get x).ext
  if mode = 4 then
    let r := Config.slObserver l.angle (backEmf s x) (s.axp x 0x038) s.link.elapsed
    s.modLoop x fun l => { l with angle := r.1, obs := r.2, obsMade := true, posPrev := some ext }
  else
    let ang : W16 := if mode = 1 then sectorCentre s x else if mode = 2 then hallSine s x else if mode = 3 then focAngle s x
      else l.angle
    let ang := match l.cal with
      | some (.align ..) => l.angle
      | _ => if l.st == .start && alignsStart s x then 0 else ang
    -- without a position source the estimate counts 1/1,024 of an electrical revolution
    let still := !s.scSource x && s.axn x 0x0A0 = 0
    let now : Int := if still then l.posPrev.getD l.angle.toNat + (ang - l.angle).toInt else ext
    let old := l.posPrev.getD now
    let moved : Int := if still then now / 64 - old / 64 else now - old
    s.modLoop x fun l =>
      { l with angle := ang, obs := Config.obsFilter l.obs moved s.link.elapsed, obsMade := true, posPrev := some now }

/-! ### Currents and their checks (R357, R370-R372) -/

/-- `axX.cur.limit.eff` in A (R13). -/
def limitA (s : State) (x : Axis) : Rat := (limitEff s s.set x : Rat) / 1000

/-- The back-EMF of the model of R371 per phase: ke times the mechanical speed on the q axis (log 32). -/
def modelEmf (s : State) (x : Axis) : Tri Rat :=
  let e := (s.axp x 0x024 : Rat) / 100000 * (2 * fxRat fxPi) * elFreq s x / (s.axp x 0x021 : Rat)
  let a := (s.loop.get x).angle
  unclarke (-(e * angSin a)) (e * angCos a)

/-- The current that the model predicts (R371). -/
def modelCurrent (s : State) (x : Axis) : Tri Rat :=
  let l := s.loop.get x
  let e := modelEmf s x
  let rs : Rat := (s.axp x 0x022 : Rat) / 1000
  let ls : Rat := (s.axp x 0x023 : Rat) / 1000000
  let k := s.tickSec / ls
  let one (p : Phase) : Rat := l.i.get p + k * (l.v.get p - rs * l.i.get p - e.get p)
  { u := one .u, v := one .v, w := one .w }

/-- The rest of the sense check after the currents of a tick: the count of R370 and the residuals of R371. A tick with an
invalid result neither advances nor breaks it (R447). -/
def senseCheck (x : Axis) (valid : Bool) (raw pred : Tri Rat) (s : State) : State :=
  if !valid then s
  else
    let lim : Rat := (s.axEff x 0x072 : Rat) / 100
    if lim < ratAbs raw.sum then
      s.modLoop x fun l =>
        { l with sumRun := l.sumRun + 1,
                 resid := (if l.sumRun = 0 then Tri.all 0 else l.resid).zip (· + ·) (raw.zip (fun a b => ratAbs (a - b)) pred) }
    else s.modLoop x fun l => { l with sumRun := 0 }

/-- The open-phase evidence of a phase (R372): it does not run on a channel identified as failed, and an invalid result is
neither qualifying nor breaking (R447). -/
def openCheck (x : Axis) (valid : Tri Bool) (raw : Tri Rat) (s : State) : State :=
  let lim := limitA s x / 4
  let thr : Rat := (s.axp x 0x078 : Rat) / 100
  let now := s.etime
  s.modLoop x fun l =>
    let failedIs (p : Phase) : Bool := match l.failed, p with
      | .u, .u => true | .v, .v => true | .w, .w => true | _, _ => false
    let one (p : Phase) : OpenRun :=
      let r := l.openRun.get p
      if failedIs p || !valid.get p || ratAbs (l.iCmd.get p) ≤ lim then r
      else if ratAbs (raw.get p) < thr then { ticks := r.ticks + 1, since := if r.ticks = 0 then now else r.since }
      else { ticks := 0, since := now }
    { l with openRun := { u := one .u, v := one .v, w := one .w } }

/-- The channel with the largest residual, when it exceeds twice the second largest (R371). -/
def failedChannel (r : Tri Rat) : Option Phase :=
  if 2 * max r.v r.w < r.u then some .u
  else if 2 * max r.u r.w < r.v then some .v
  else if 2 * max r.u r.v < r.w then some .w
  else none

/-- The word of `axX.sense.failed`. -/
def senseFail : Option Phase → SenseFail
  | some .u => .u
  | some .v => .v
  | some .w => .w
  | none => .unknown

/-- The decision of a sense failure in the D-class work of its fourth tick (R370, R371, R373, R376): with `recon` and a channel identified
the phase is reconstructed from this work on. SENSE_FAILURE reports it. -/
def senseDecide (x : Axis) (s : State) : State :=
  let l := s.loop.get x
  if l.sumRun < 4 then s
  else
    let ch := failedChannel l.resid
    let n := match ch with | some p => phIdx p + 1 | none => 0
    let s := s.modLoop x fun l => { l with failed := senseFail ch, sumRun := 0, senseTick := some s.tick }
    match l.degr, ch with
    | .none, some p =>
      let keep := s.axp x 0x073 == 0
      s.modLoop x fun l => { l with
        senseDue := some (keep, n), degr := if keep then .recon p else l.degr, degrAt := if keep then s.etime else l.degrAt,
        i := if keep then rebuild p l.i else l.i }
    | _, _ => s.modLoop x fun l => { l with senseDue := some (false, n) }

/-- The phase currents of a tick with an accepted UC, and the checks on them in every such tick (R282, R357, R370-R373, R447). -/
def currentWork (x : Axis) (s : State) : State :=
  let l := s.loop.get x
  let c := phaseCodes s x
  let o := offsets s x
  let raw : Tri Rat := { u := codeAmp s x c.u o.u, v := codeAmp s x c.v o.v, w := codeAmp s x c.w o.w }
  let ok : Tri Bool := { u := resultValid s x .u, v := resultValid s x .v, w := resultValid s x .w }
  let bad := phases.filter fun p => !ok.get p
  let i := match l.degr with
    | .recon p => rebuild p raw
    | _ => match bad with
      | [p] => rebuild p raw
      | _ => raw
  let pred := modelCurrent s x
  let th := l.angle
  let s := s.modLoop x fun l => { l with iPrev := l.i, i := i, valid := ok }
  let sum := match l.degr with | .recon _ => i | _ => raw
  let s := senseDecide x (openCheck x ok raw (senseCheck x bad.isEmpty sum pred s))
  let ab := clarke (s.loop.get x).i
  s.modLoop x fun l => { l with id := ab.1 * angCos th + ab.2 * angSin th, iq := ab.2 * angCos th - ab.1 * angSin th, curMade := true }

/-! ### The current loops (R357-R359, R448) -/

/-- VM of the same tick in V (R358). -/
def vmNow (s : State) : Rat := ((nth s.link.aux 0 0).toNat : Rat) / 50

/-- A PI controller with its integrator: the new integrator and the output; the integrator stands while the output is
limited and its error drives it outward (R358). -/
def piStep (kp ki e dt int : Rat) (limited : Bool) : Rat × Rat :=
  let int' := int + ki * e * dt
  let v' := kp * e + int'
  if limited && 0 < e * v' then (int, kp * e + int) else (int', v')

/-- The entries that the next reload brings into force on both dies: those of a commit whose switch tick it begins (R36, R191). -/
def State.nextEnts (s : State) : Store := match s.commit with
  | some c => if c.applied.isNone && !c.load && c.sw == some (s.tick + 1) && (c.swAck || c.phase == .applyWait) then c.ents else []
  | none => []

/-- The waiting CONTROL entries that fit into one field of 32 bytes. -/
def controlFit : Nat → List (Nat × List Byte) → List (Nat × List Byte)
  | _, [] => []
  | room, e :: r => if 2 + e.2.length ≤ room then e :: controlFit (room - 2 - e.2.length) r else []

/-- The delta field of this tick carries TIME (Table 3-9). -/
def timeTurn (s : State) : Bool := (s.tick + 1).extractLsb' 0 8 == 0

/-- The CONTROL entries that the DOWN frame of this tick carries, where TIME leaves it the field: in an ms tick only (R85). -/
def controlNow (s : State) : List (Nat × List Byte) :=
  if timeTurn s || s.host.restart.isSome || !s.link.ctlOpen then [] else controlFit 32 s.link.control

/-- The value of one of those entries. -/
def carried (s : State) (a : Nat) : Option Nat := ((controlNow s).find? fun e => e.1 == a).map fun e => ofLe e.2

/-- The highest duty code that gives a valid result in the next tick, under the set, the tick length and the band code that its
reload brings with this frame (R446, R448). -/
def validDuty (s : State) (x : Axis) : Int :=
  let v := s.setWith s.nextEnts
  let base := if s.nextEnts.isEmpty then s.tickP else setP v
  let t := match carried s 0xF20 with | some n => toSigned 16 n | none => s.link.trimTo
  let p := ((base : Int) + t).toNat
  let b := (carried s (0xF00 + axIdx x)).getD (s.link.bandTo.get x)
  let h : Int := (p / 2 : Nat) - (deadOf v x b : Int) - 80 - v (axId x (0x07A + min b 4))
  min 4095 ((8192 * (h + 1) - 4097) / (p : Int))

/-- Lowers the duties so that at most one gives an invalid result, and says whether the voltage vector was scaled down for it
(R448, R457). -/
def fitDuties (top : Int) (d : Tri Int) : Tri Int × Bool :=
  let hi := max d.u (max d.v d.w)
  let lo := min d.u (min d.v d.w)
  let mid := d.u + d.v + d.w - hi - lo
  if mid ≤ top then (d, false)
  else
    let k := min (mid - top) lo
    let e := d.map fun q => q - k
    let mid := mid - k
    if mid ≤ top then (e, false) else (e.map fun q => q * max 0 top / mid, true)

/-- The duty codes of three phase voltages (R359), and whether R448 has scaled the vector down. -/
def dutyCodes (s : State) (x : Axis) (v : Tri Rat) : Tri (BitVec 12) × Bool :=
  let vm := vmNow s
  let v0 := -(max v.u (max v.v v.w) + min v.u (min v.v v.w)) / 2
  let one (q : Rat) : Int := max 0 (min 4095 (ratRound (2048 + (q + v0) * 4096 / vm)))
  let f := fitDuties (validDuty s x) (v.map one)
  (f.1.map (BitVec.ofInt 12), f.2)

/-- The duties of a limping axis (R374): the open phase at 2048, the other two as a line-to-line pair. -/
def limpDuties (s : State) (x : Axis) (p : Phase) (vq : Rat) : Tri (BitVec 12) :=
  let d := min 4095 (Config.limpDuty vq (s.loop.get x).angle)
  let a := BitVec.ofNat 12 d
  let b := BitVec.ofNat 12 (4096 - max 1 d)
  match p with
  | .u => { u := 2048, v := a, w := b }
  | .v => { u := b, v := 2048, w := a }
  | .w => { u := a, v := b, w := 2048 }

/-- The current loops with their references at an angle (R357-R359, R457); the word RUN with its duties. -/
def currentLoops (x : Axis) (th : W16) (idRef iqRef dt : Rat) (s : State) : State :=
  let l := s.loop.get x
  let lim := limitA s x
  let idRef := clampTo lim idRef
  let iqRef := clampTo lim iqRef
  let ab := clarke l.i
  let id := ab.1 * angCos th + ab.2 * angSin th
  let iq := ab.2 * angCos th - ab.1 * angSin th
  let kp : Rat := (s.axp x 0x041 : Rat) / 1000
  let ki := kp / ((s.axp x 0x042 : Rat) / 1000000)
  let vmax := (s.axp x 0x043 : Rat) / 100 * vmNow s / sqrt3
  let raw (e int : Rat) : Rat := kp * e + int + ki * e * dt
  let exceeds (a b : Rat) : Bool := vmax * vmax < a * a + b * b
  let limited := exceeds (raw (idRef - id) l.intD) (raw (iqRef - iq) l.intQ)
  let d := piStep kp ki (idRef - id) dt l.intD limited
  let q := piStep kp ki (iqRef - iq) dt l.intQ limited
  let k : Rat := if exceeds d.2 q.2 then vmax / ratSqrt (d.2 * d.2 + q.2 * q.2) else 1
  let vd := k * d.2
  let vq := k * q.2
  let adv := th + toAngle (65536 * elFreq s x * s.tickSec)
  let v := unclarke (vd * angCos adv - vq * angSin adv) (vd * angSin adv + vq * angCos adv)
  let duty := match l.degr with
    | .limp p => (limpDuties s x p vq, false)
    | _ => dutyCodes s x v
  -- a cut of R448 is a voltage limit of R358 for the integrators
  let intD := if duty.2 then (piStep kp ki (idRef - id) dt l.intD true).1 else d.1
  let intQ := if duty.2 then (piStep kp ki (iqRef - iq) dt l.intQ true).1 else q.1
  let cmd := unclarke (idRef * angCos th - iqRef * angSin th) (idRef * angSin th + iqRef * angCos th)
  s.modLoop x fun l =>
    { l with intD := intD, intQ := intQ, v := v, iCmd := cmd,
             word := { cmd := 1, du := duty.1.u, dv := duty.1.v, dw := duty.1.w } }

/-- Sends a word without duties; the loops rest. -/
def idleWord (x : Axis) (c : BitVec 4) (s : State) : State := s.modLoop x fun l =>
  { l with word := { GateWord.off with cmd := c }, v := .all 0, iCmd := .all 0, intD := 0, intQ := 0 }

/-! ### The open-loop start (R367) -/

/-- The distance of two angles, in units. -/
def angleGap (a b : W16) : Nat := (a - b).toInt.natAbs

/-- A tick of the open-loop start: the frequency rises linearly to `axX.sl.handover`, the vector turns with it, and the
agreement of the observer is timed (20 degrees are 3,640 units). -/
def openLoopWork (x : Axis) (dt : Rat) (s : State) : State :=
  let l := s.loop.get x
  match l.openLoop with
  | none => s
  | some (a, f) =>
    let top : Rat := (s.axp x 0x037 : Rat) / 10
    let f' := min top (f + top * dt / ((s.axp x 0x036 : Rat) / 1000))
    let a' := a + dirSign (s.mot.get x).pos * 65536 * f' * dt
    let a' := a' - 65536 * (a' / 65536).floor
    let near := top ≤ f' && angleGap l.angle (toAngle a') ≤ 3640
    s.modLoop x fun l =>
      { l with openLoop := some (a', f'), lockAt := if near then some (l.lockAt.getD s.etime) else none }

/-- OPEN_LOOP_HANDOVER (R367): the observer has agreed for 50 ms; the iq reference takes the projection of the vector. -/
def execOpenLoopHandover (ax : Axis) (s : State) : Out :=
  let l := s.loop.get ax
  .next (match l.openLoop, l.lockAt with
    | some (a, _), some t =>
      if s.since t < 50000 then s
      else
        let i := clampTo (limitA s ax) ((s.axp ax 0x035 : Rat) / 100)
        let q := i * angSin (toAngle a - l.angle)
        (s.modLoop ax fun l => { l with openLoop := none, lockAt := none }).modMot ax fun m => { m with intV := q, iqRef := q }
    | _, _ => s)

/-! ### Arming (R362-R368) -/

/-- The axis enters a state of Table 11-3. -/
def enterState (x : Axis) (st : AxState) (s : State) : State :=
  s.modLoop x fun l => { l with st := st, since := s.etime }

/-- READY: the `arm` line is answered (R364). -/
def toReady (x : Axis) (s : State) : State :=
  endAxisWait x (· == .arm) (txt "ok") (enterState x .ready s)

/-- The sequence ends in DISARMED with a reply to `arm`. -/
def armFails (x : Axis) (n : Nat) (s : State) : State :=
  let s := s.modLoop x fun l => { l with st := .disarmed, since := s.etime, wantDiag := false }
  endAxisWait x (· == .arm) (errText n none) (idleWord x 0 s)

/-- The end of a diagnosis in DIAG or WAIT (Table 11-3). -/
def diagResult (x : Axis) (s : State) : State :=
  let l := s.loop.get x
  let w := l.diagWord
  if w = 0x8000 then
    let s := s.modLoop x fun l => { l with diagPass := some s.etime }
    if s.commMode x = 5 then toReady x s else enterState x .precharge s
  else if w.getLsbD 13 then
    if l.st == .wait then s.modLoop x fun l => { l with wantDiag := true }
    else
      let fresh := match l.diagPass with
        | some t => s.since t ≤ s.axn x 0x031 * 1000000
        | none => false
      if s.axp x 0x030 == 1 && fresh && s.commMode x != 5 then enterState x .catching s
      else (enterState x .wait s).modLoop x fun l => { l with wantDiag := true }
  else armFails x 71 s

/-- The axis enters DISARMED at the end of `disarm` (R368). From a motion this is a hold point (R397, R398): a degraded axis gets its
fault, which stops it and answers its lines (R373, R374). -/
def disarmDone (x : Axis) (s : State) : State :=
  let m := s.mot.get x
  let ran := m.st == .run || m.st == .stopping || m.st == .reversing
  let keep := match (s.loop.get x).cal with
    | some (.align 6 ..) => true
    | _ => false
  let s := leaveMotion x .aborted s
  if ran && (s.loop.get x).degr != .none then holdPoint x s else
  let s := s.modLoop x (stopLoop .disarmed 0 s.etime)
  let s := endAxisWait x (fun c => match c with | .arm => true | .move _ => true | _ => false) (errText 30 none) s
  let s := if keep then s else endCal x (errText 30 none) s
  answerStops (answerDisarms s)
where
  answerDisarms (s : State) : State :=
    forAll (waiters s fun w => match w with | .axis _ .disarm => true | _ => false) (fun k s => match k.2 with
      | .axis sel _ =>
        if (selAxes sel).all (fun y => s.disarmed y && (s.loop.get y).hand != some .disarm) then ok k.1 s else s
      | _ => s) s

/-- Whether every phase current of an axis is below `prot.release_i` (R368). -/
def currentsLow (s : State) (x : Axis) : Bool :=
  let lim : Rat := (s.par 0x4820 : Rat) / 100
  (s.loop.get x).i.toList.all fun i => ratAbs i < lim

/-- DISARM_TIMEOUT (R368): 20 ms have passed since the `disarm` hand-over. -/
def execDisarmTimeout (ax : Axis) (s : State) : Out :=
  let l := s.loop.get ax
  .next (if l.disarming && 20000 ≤ s.since l.since then disarmDone ax s else s)

/-- Hand-overs at the start of the D-class work (R362, R368, R399, R400). -/
def acceptHand (x : Axis) (s : State) : State :=
  let l := s.loop.get x
  let off (s : State) : State := s.modLoop x fun l => { l with hand := none, grpHand := none }
  match l.hand with
  | none => s
  | some .arm =>
    if s.disarmed x then
      ((enterState x .diag (off s)).modLoop x fun l => { l with wantDiag := true, disarming := false, holdDue := .none }).modMot x fun m =>
        { m with obsDue := none }
    else off s
  | some .disarm =>
    if s.disarmed x then disarmDone.answerDisarms (off s)
    else if l.st == .diag || l.st == .wait || l.st == .catching then disarmDone x (off s)
    else (off s).modLoop x fun l => { l with disarming := true, since := s.etime }
  | some (.move p) =>
    match moveCheck s x p with
    | some e => endAxisWait x (· == .move p) (errText e.1 e.2) (off (ungroup x s))
    | none =>
      let xs := if l.grpHand.isNone then [] else if s.coupled && x == .a then axes2 else [x]
      -- a move in a pass of `cal learn` ends the run (R414)
      let s := when_ (s.mot.get x).learn.isSome (learnEnd x (errText 75 none)) s
      let s := startGroup x p (off s)
      endAxisWait x (· == .move p) (txt "ok") (forAll xs (fun y s => s.modMot y fun m => { m with grp := m.st == .run }) s)
  | some .stop =>
    let s := off s
    let m := s.mot.get x
    let s := if m.st == .run || m.st == .assist then s.modMot x AxMot.toStop else s
    let s := if m.learn.isSome then learnEnd x (errText 75 none) s else s
    answerStops s
  | some .clear => off s        -- the lines of an accepted `clear` go on when the hand-overs are done

/-- The sequence of Table 11-3 in the D-class work. -/
def armWork (x : Axis) (s : State) : State :=
  let l := s.loop.get x
  let idle := !l.wantDiag && !l.diagRun
  match l.st with
  | .diag | .wait => if idle then diagResult x s else s
  | .catching =>
    if s.commMode x = 4 then
      -- the current loops start at the present speed
      if Config.slLocked s.link.aux (s.since l.since) then (toReady x s).modLoop x fun l => { l with word := { l.word with cmd := 1 } } else s
    else toReady x (s.modLoop x fun l => { l with offWait := l.offRt.isNone && s.commMode x == 3 })
  | _ => if l.disarming && currentsLow s x then disarmDone x s else s

/-- PRECHARGE_END (R261): `axX.gate.precharge` has elapsed. -/
def execPrechargeEnd (ax : Axis) (s : State) : Out :=
  let l := s.loop.get ax
  .next (if l.st == .precharge && !l.disarming && s.axn ax 0x069 * 100 ≤ s.since l.since then enterState ax .start s else s)

/-- START_ANGLE_SET (Table 11-4): the angle stands and the axis is READY, unless a `disarm` is ending the sequence (R368). -/
def execStartAngleSet (ax : Axis) (s : State) : Out :=
  let l := s.loop.get ax
  .next (if l.st != .start || l.disarming then s
    else if alignsStart s ax then
      if s.since l.since < s.axn ax 0x034 * 1000 then s
      else toReady ax (s.modLoop ax fun l => { l with offRt := some (s.pos.get ax).pos.toInt, offWait := false })
    else toReady ax (s.modLoop ax fun l => { l with offWait := l.offRt.isNone && s.commMode ax == 3 }))

/-- STILL_TIMEOUT (R364): WAIT has lasted `axX.start.still_to`. -/
def execStillTimeout (ax : Axis) (s : State) : Out :=
  let l := s.loop.get ax
  .next (if l.st == .wait && s.axn ax 0x032 * 1000 ≤ s.since l.since then armFails ax 71 s else s)

/-- CATCH_TIMEOUT (R366): the observer has not locked within 50 ms. -/
def execCatchTimeout (ax : Axis) (s : State) : Out :=
  let l := s.loop.get ax
  .next (if l.st == .catching && 50000 ≤ s.since l.since then
      (enterState ax .wait s).modLoop ax fun l => { l with wantDiag := true }
    else s)

/-! ### Stall, sense failure and open phase (R369-R376) -/

/-- The stall criterion of a tick (R369). -/
def stallWork (x : Axis) (s : State) : State :=
  let l := s.loop.get x
  let on := (s.moving x || l.openLoop.isSome) && l.st == .ready &&
    (s.axp x 0x048 : Rat) / 100 * limitA s x ≤ ratAbs l.iq && ratAbs l.obs < (s.axp x 0x049 : Rat)
  s.modLoop x fun l => { l with stallAt := if on then some (l.stallAt.getD s.etime) else none }

/-- E_STALL (R369): the criterion held for `axX.stall.t`, or the open-loop start has run for `axX.sl.start_t`. An
obstruction of the same tick governs (R420). -/
def execEStall (ax : Axis) (s : State) : Out :=
  let l := s.loop.get ax
  let held := match l.stallAt with
    | some t => s.axn ax 0x04A * 1000 ≤ s.since t
    | none => false
  let late := l.openLoop.isSome && s.axn ax 0x039 * 1000 ≤ s.since l.since
  .next (if (held || late) && (s.mot.get ax).obsTick != some s.tick then asterFault 0x07 (axBit ax) 0 (posArg s ax) 0 s else s)

/-- E:SENSE and E:PHASE_OPEN with their channel or phase, 1-3 for U-W and 0 for unknown (R375). -/
def raiseSense (x : Axis) (n : Nat) (s : State) : State := asterFault 0x0A (axBit x) n (posArg s x) 0 s
def raiseOpen (x : Axis) (p : Phase) (s : State) : State := asterFault 0x09 (axBit x) (phIdx p + 1) (posArg s x) 0 s

/-- SENSE_FAILURE (R370, R371, R373, R376): the decision of the D-class work is reported, with a SENSE_RECON entry where the axis goes on,
and with E:SENSE otherwise. -/
def execSenseFailure (ax : Axis) (s : State) : Out :=
  .next (match (s.loop.get ax).senseDue with
    | none => s
    | some (keep, n) =>
      if s.disarmed ax then s
      else
        let s := s.modLoop ax fun l => { l with senseDue := none }
        if keep then logAster 0x30 (axBit ax) n (posArg s ax) s else raiseSense ax n s)

/-- The run of evidence for an open phase is long enough, and the channel is not one that R371 has identified as failed (R372). -/
def openProved (s : State) (x : Axis) (p : Phase) : Bool :=
  (s.loop.get x).failed != senseFail (some p) &&
  let r := (s.loop.get x).openRun.get p
  let f := ratAbs (elFreq s x)
  let need : Rat := if f ≤ 10 then 100000 else 1000000 / f
  decide (4 ≤ r.ticks) && decide (need ≤ (s.since r.since : Rat))

/-- PHASE_OPEN (R372, R374, R376). A sense failure decided in the same tick governs. -/
def execPhaseOpen (ax : Axis) (p : Phase) (s : State) : Out :=
  let l := s.loop.get ax
  .next (if !openProved s ax p || s.disarmed ax || l.senseTick == some s.tick then s
    else
      let s := s.modLoop ax fun l => { l with openPh := some p }
      match l.degr with
      | .none =>
        if s.axp ax 0x079 == 1 && s.commMode ax != 4 then
          logAster 0x31 (axBit ax) (phIdx p + 1) (posArg s ax) (s.modLoop ax fun l =>
            { l with degr := .limp p, degrAt := s.etime, openRun := .all { ticks := 0, since := 0 } })
        else raiseOpen ax p s
      | .recon _ => raiseOpen ax p s
      | .limp q => if q = p then s else raiseOpen ax p s)

/-- DEGRADED_TIMEOUT (R373, R374): `axX.degr.t` has passed. -/
def execDegradedTimeout (ax : Axis) (s : State) : Out :=
  let l := s.loop.get ax
  .next (if s.since l.degrAt < s.axn ax 0x04C * 100000 then s
    else match l.degr with
      | .none => s
      | .recon p => raiseSense ax (phIdx p + 1) s
      | .limp p => raiseOpen ax p s)

/-! ### Calibrations in the D-class work (R377, R378) -/

/-- Ends the `cal offset` of an axis. -/
def offsetEnd (x : Axis) (reply : Text) (s : State) : State :=
  let s := s.modLoop x fun l => { l with cal := none }
  forAll (waiters s fun w => w == .calOffset x) (fun k s => answer k.1 reply s) s

/-- Whether the motor stands still for `cal offset` (R377): below 20 counts in the last closed window, and during the run in every one
that has closed. -/
def stillNow (s : State) (x : Axis) : Bool := match (s.pos.get x).closed with
  | some w => decide (w.delta.natAbs < 20)
  | none => true
def stillFor (s : State) (x : Axis) : Bool := !(s.pos.get x).fast && stillNow s x

/-- A tick of `cal align` (Table 11-9): the commanded angle, positions and steps. -/
def alignTick (x : Axis) (n : Nat) (t0 : W48) (p0 p1 p2 : Int) (f b : List (Nat × Rat)) (s : State) : State :=
  let pos := (s.pos.get x).pos.toInt
  let t := s.since t0
  let turn := s.axn x 0x0E1 * 500000
  let at_ (us : Nat) : W16 := toAngle ((us : Rat) * 131072 / 1000000)
  let put (c : CalRun) (a : W16) (s : State) : State := s.modLoop x fun l => { l with cal := some c, angle := a }
  let now := s.etime
  if n = 1 then
    if t < 200000 then put (.align 1 t0 p0 p1 p2 f b) 0 s else put (.align 2 now pos p1 p2 f b) 0 s
  else if n = 2 then
    if t < turn then put (.align 2 t0 p0 p1 p2 f b) (at_ t) s else put (.align 3 now p0 p1 p2 f b) 0 s
  else if n = 3 then
    if t < 200000 then put (.align 3 t0 p0 p1 p2 f b) 0 s else put (.align 4 now p0 pos p2 f b) 0 s
  else if n = 4 then
    if t < turn then put (.align 4 t0 p0 p1 p2 f b) (at_ (turn - t)) s else put (.align 5 now p0 p1 p2 f b) 0 s
  else if n = 5 then
    if t < 200000 then put (.align 5 t0 p0 p1 p2 f b) 0 s
    else (put (.align 6 now p0 p1 pos f b) 0 s).modLoop x fun l => { l with disarming := true, since := now }
  else s

/-- The running calibration of an axis. -/
def calWork (x : Axis) (s : State) : State := match (s.loop.get x).cal with
  | none => s
  | some (.offset n sums vm) =>
    if !s.disarmed x || !stillFor s x then offsetEnd x (errText 37 none) s
    else if 1024 ≤ n then s
    else
      let c := phaseCodes s x
      let add (a : Int) (q : Rat) : Int := a + ratRound (4 * q)
      s.modLoop x fun l => { l with cal := some (.offset (n + 1)
        { u := add sums.u c.u, v := add sums.v c.v, w := add sums.w c.w } ((nth s.link.aux 0 0).toNat :: vm)) }
  | some (.align n t0 p0 p1 p2 f b) => if (s.loop.get x).st == .ready then alignTick x n t0 p0 p1 p2 f b s else s

/-! ### The D-class work of a tick -/

/-- The gate word of an axis (Table 11-3, R266, R357-R359). -/
def driveWork (x : Axis) (s : State) : State :=
  let l := s.loop.get x
  let m := s.mot.get x
  let dt := s.tickSec * (max 1 s.link.elapsed : Nat)
  match l.st with
  | .disarmed | .latched => s
  | .diag | .wait | .catching => idleWord x 0 s
  | .precharge => idleWord x 3 s
  | .start =>
    if s.commMode x = 4 then idleWord x 0 s
    else if alignsStart s x && !l.disarming then currentLoops x 0 ((s.axp x 0x033 : Rat) / 100) 0 dt s
    else currentLoops x l.angle 0 0 dt s
  | .ready | .moving =>
    if s.commMode x = 5 then idleWord x 7 s
    else if l.disarming then currentLoops x (match l.openLoop with | some (a, _) => toAngle a | none => l.angle) 0 0 dt s
    else match l.cal with
      | some (.align n ..) =>
        if n ≤ 5 then currentLoops x l.angle ((s.axp x 0x0E0 : Rat) / 100) 0 dt s else s
      | _ =>
        if s.commMode x = 4 && l.word.cmd != 1 && !m.st.moving then idleWord x 0 s
        else match l.openLoop with
          | some (a, _) => currentLoops x (toAngle a) ((s.axp x 0x035 : Rat) / 100) 0 dt s
          | none => currentLoops x l.angle 0 m.iqRef dt s

/-- The measurements of an axis. An axis in `direct` runs none of R357-R376 (R386). -/
def senseWork (x : Axis) (s : State) : State :=
  if !s.configured x || s.commMode x = 5 then s.modLoop x fun l => { l with posPrev := none } else currentWork x (angleWork x s)

/-- The force, push and stall checks of an axis. -/
def checkWork (x : Axis) (s : State) : State :=
  if !s.configured x || s.commMode x = 5 then s else stallWork x (pushWork x (forceWork x s))

/-- The references and loops of an axis. -/
def runWork (x : Axis) (s : State) : State :=
  if !s.configured x then s
  else if s.commMode x = 5 then
    driveWork x (if (s.mot.get x).st == .stopping then stepAxis x s else s)
  else
    let dt := s.tickSec * (max 1 s.link.elapsed : Nat)
    driveWork x (openLoopWork x dt (motionLoop x dt (stepAxis x s)))

/-- What Aster knows of the *release* of an axis (R301): it has ended when every phase result of an accepted UC lies below
`prot.release_i`. -/
def releaseWork (x : Axis) (s : State) : State :=
  let c := phaseCodes s x
  let low := c.toList.all fun q => ratAbs (q - 2048) < (releaseCounts s.set x : Rat)
  if (s.loop.get x).relAt.isSome && s.configured x && low && !s.classS x then s.modLoop x fun l => { l with relAt := none } else s

/-- The D-class work of a tick with an accepted UC: the sin/cos channel, the measurements, the hand-overs, the arming
sequence, calibrations and learning, the checks of both axes with the decision of an obstruction, then their references and loops
(R341, R357, R362, R393, R409). -/
def dWork (s : State) : State :=
  let s := ringWork (s.modLink fun l => { l with busI := busAmp s })
  let s := match s.scAxis with
    | some x => sincosWork x (latResolve x s)
    | none => s
  let s := forAll axes2 (fun x s => releaseWork x (senseWork x s)) s
  let s := forAll axes2 acceptHand s
  let s := forAll axes2 (fun x s => calWork x (armWork x s)) s
  let s := forAll axes2 learnStep s
  forAll axes2 runWork (obsDecide (forAll axes2 checkWork s))

/-- Whether the work could not be done because a priority-1 read has not ended (R48, R120): the first records of a move that is
accepted, the record of the segment that is entered, or the envelope block of the position. -/
def lateWork (old new : State) : Bool :=
  axes2.any fun x =>
    (framBusy old (.prefetchSeg x) && (match (old.loop.get x).hand with
      | some (.move p) => (new.loop.get x).hand.isNone && (new.mot.get x).st == .run && (new.mot.get x).prof == some p
      | _ => false)) ||
    ((new.mot.get x).st == .run && (new.mot.get x).copy.isSome && (new.mot.get x).follow.isNone && (new.mot.get x).segRec.isNone) ||
    lateEnvelope old x

end Sys2Proof.Machine
end

