-- ==== Sys2Proof/Machine/Crypto.lean ====
section
/-! DEFINITION. SHA-256, HMAC-SHA-256 (R575, R579, R599) and the verification of an ECDSA signature on P-256 (R604, R605),
over lists of bytes and natural numbers, by structural recursion. -/

namespace Sys2Proof.Machine

/-! ### SHA-256 -/

/-- The eight words of a number of 256 bits, from the most significant one. -/
def words8 (n : Nat) : List W32 := (List.range 8).map fun i => BitVec.ofNat 32 (n >>> (32 * (7 - i)))

/-- The round constants of SHA-256 (FIPS 180): the first 32 bits of the fractions of the cube roots of the first 64 primes, eight
in a number. -/
def shaRows : List Nat :=
  [0x428a2f9871374491b5c0fbcfe9b5dba53956c25b59f111f1923f82a4ab1c5ed5,
   0xd807aa9812835b01243185be550c7dc372be5d7480deb1fe9bdc06a7c19bf174,
   0xe49b69c1efbe47860fc19dc6240ca1cc2de92c6f4a7484aa5cb0a9dc76f988da,
   0x983e5152a831c66db00327c8bf597fc7c6e00bf3d5a7914706ca635114292967,
   0x27b70a852e1b21384d2c6dfc53380d13650a7354766a0abb81c2c92e92722c85,
   0xa2bfe8a1a81a664bc24b8b70c76c51a3d192e819d6990624f40e3585106aa070,
   0x19a4c1161e376c082748774c34b0bcb5391c0cb34ed8aa4a5b9cca4f682e6ff3,
   0x748f82ee78a5636f84c878148cc7020890befffaa4506cebbef9a3f7c67178f2]

/-- The round constants one by one. -/
def shaK : List W32 := shaRows.flatMap words8

/-- The working registers a to h. -/
structure ShaReg where
  a : W32
  b : W32
  c : W32
  d : W32
  e : W32
  f : W32
  g : W32
  h : W32

/-- The initial hash value (FIPS 180): the same bits of the square roots of the first eight primes. -/
def shaInit : ShaReg :=
  let w (i : Nat) : W32 := (words8 0x6a09e667bb67ae853c6ef372a54ff53a510e527f9b05688c1f83d9ab5be0cd19).getD i 0
  ⟨w 0, w 1, w 2, w 3, w 4, w 5, w 6, w 7⟩

/-- Rotation to the right. -/
def rotr (x : W32) (n : Nat) : W32 := x.rotateRight n

/-- The next word of the message schedule from the last 16, newest first. -/
def shaNext (ws : List W32) : W32 :=
  let w (i : Nat) : W32 := ws.getD (i - 1) 0
  let s0 := rotr (w 15) 7 ^^^ rotr (w 15) 18 ^^^ (w 15 >>> 3)
  let s1 := rotr (w 2) 17 ^^^ rotr (w 2) 19 ^^^ (w 2 >>> 10)
  w 16 + s0 + w 7 + s1

/-- n further words of the schedule, newest first. -/
def shaExpand : Nat → List W32 → List W32
  | 0, ws => ws
  | n + 1, ws => shaExpand n (shaNext ws :: ws)

/-- One round. -/
def shaRound (r : ShaReg) (kw : W32 × W32) : ShaReg :=
  let s1 := rotr r.e 6 ^^^ rotr r.e 11 ^^^ rotr r.e 25
  let ch := (r.e &&& r.f) ^^^ (~~~ r.e &&& r.g)
  let t1 := r.h + s1 + ch + kw.1 + kw.2
  let s0 := rotr r.a 2 ^^^ rotr r.a 13 ^^^ rotr r.a 22
  let maj := (r.a &&& r.b) ^^^ (r.a &&& r.c) ^^^ (r.b &&& r.c)
  ⟨t1 + (s0 + maj), r.a, r.b, r.c, r.d + t1, r.e, r.f, r.g⟩

/-- One block of 16 words. -/
def shaBlock (h : ShaReg) (ws : List W32) : ShaReg :=
  let r := (shaK.zip (shaExpand 48 ws.reverse).reverse).foldl shaRound h
  ⟨h.a + r.a, h.b + r.b, h.c + r.c, h.d + r.d, h.e + r.e, h.f + r.f, h.g + r.g, h.h + r.h⟩

/-- Words of four bytes, most significant byte first. -/
def beWords : Nat → List Byte → List W32
  | 0, _ => []
  | _ + 1, [] => []
  | n + 1, bs => BitVec.ofNat 32 (ofBe (bs.take 4)) :: beWords n (bs.drop 4)

/-- The blocks of a padded message. -/
def shaBlocks : Nat → ShaReg → List W32 → ShaReg
  | 0, h, _ => h
  | n + 1, h, ws => if ws.isEmpty then h else shaBlocks n (shaBlock h (ws.take 16)) (ws.drop 16)

/-- SHA-256. -/
def sha256 (m : List Byte) : List Byte :=
  let zeros := (119 - m.length % 64) % 64
  let p := m ++ [0x80#8] ++ List.replicate zeros 0 ++ beBytes 8 (8 * m.length)
  let h := shaBlocks p.length shaInit (beWords p.length p)
  [h.a, h.b, h.c, h.d, h.e, h.f, h.g, h.h].flatMap fun w => beBytes 4 w.toNat

/-- HMAC-SHA-256 under a key of at most 64 bytes. -/
def hmac (key m : List Byte) : List Byte :=
  let k := key ++ List.replicate (64 - key.length) 0
  sha256 (k.map (· ^^^ 0x5C#8) ++ sha256 (k.map (· ^^^ 0x36#8) ++ m))

/-! ### P-256 -/

/-- The prime of the field, the order of the group, the constant b and the base point of P-256. -/
def ecP : Nat := 0xFFFFFFFF00000001000000000000000000000000FFFFFFFFFFFFFFFFFFFFFFFF
def ecN : Nat := 0xFFFFFFFF00000000FFFFFFFFFFFFFFFFBCE6FAADA7179E84F3B9CAC2FC632551
def ecB : Nat := 0x5AC635D8AA3A93E7B3EBBD55769886BC651D06B0CC53B0F63BCE3C3E27D2604B
def ecGx : Nat := 0x6B17D1F2E12C4247F8BCE6E563A440F277037D812DEB33A0F4A13945D898C296
def ecGy : Nat := 0x4FE342E2FE1A7F9B8EE7EB4A7C0F9E162BCE33576B315ECECBB6406837BF51F5

/-- A difference modulo m. -/
def subMod (m a b : Nat) : Nat := (a + (m - b % m)) % m

/-- A power modulo m by the n low bits of the exponent, from the highest. -/
def powBits (m b e : Nat) : Nat → Nat → Nat
  | 0, acc => acc
  | n + 1, acc => powBits m b e n (if e.testBit n then acc * acc % m * b % m else acc * acc % m)

/-- The inverse modulo a prime, as the power m - 2. -/
def invMod (m a : Nat) : Nat := powBits m (a % m) (m - 2) 256 1

/-- A point in Jacobian coordinates; z = 0 is the point at infinity. -/
structure EcPoint where
  x : Nat
  y : Nat
  z : Nat

/-- Doubling, for a = -3. -/
def ecDouble (p : EcPoint) : EcPoint :=
  if p.z = 0 ∨ p.y = 0 then ⟨1, 1, 0⟩
  else
    let zz := p.z * p.z % ecP
    let yy := p.y * p.y % ecP
    let s := 4 * p.x * yy % ecP
    let m := 3 * (subMod ecP p.x zz * ((p.x + zz) % ecP) % ecP) % ecP
    let x := subMod ecP (m * m % ecP) (2 * s)
    ⟨x, subMod ecP (m * subMod ecP s x % ecP) (8 * (yy * yy % ecP)), 2 * p.y * p.z % ecP⟩

/-- Addition. -/
def ecAdd (p q : EcPoint) : EcPoint :=
  if p.z = 0 then q else if q.z = 0 then p
  else
    let z1 := p.z * p.z % ecP
    let z2 := q.z * q.z % ecP
    let u1 := p.x * z2 % ecP
    let u2 := q.x * z1 % ecP
    let s1 := p.y * z2 % ecP * q.z % ecP
    let s2 := q.y * z1 % ecP * p.z % ecP
    if u1 = u2 then (if s1 = s2 then ecDouble p else ⟨1, 1, 0⟩)
    else
      let h := subMod ecP u2 u1
      let r := subMod ecP s2 s1
      let hh := h * h % ecP
      let hhh := h * hh % ecP
      let v := u1 * hh % ecP
      let x := subMod ecP (subMod ecP (r * r % ecP) hhh) (2 * v)
      ⟨x, subMod ecP (r * subMod ecP v x % ecP) (s1 * hhh % ecP), h * p.z % ecP * q.z % ecP⟩

/-- A multiple of a point, by the n low bits of the factor from the highest. -/
def ecMul (k : Nat) (p : EcPoint) : Nat → EcPoint → EcPoint
  | 0, acc => acc
  | n + 1, acc => ecMul k p n (if k.testBit n then ecAdd (ecDouble acc) p else ecDouble acc)

/-- The affine x of a point. -/
def ecX (p : EcPoint) : Nat := let i := invMod ecP p.z; p.x * (i * i % ecP) % ecP

/-- Whether coordinates name a point of the curve. -/
def ecOn (x y : Nat) : Bool :=
  x < ecP && y < ecP && y * y % ecP == (x * x % ecP * x + subMod ecP ecB (3 * x)) % ecP

/-- Verification of an ECDSA signature (r, s) by a key (x, y) over a digest of 32 bytes (FIPS 186). -/
def ecdsaOk (key sig digest : List Byte) : Bool :=
  let qx := ofBe (key.take 32)
  let qy := ofBe (key.drop 32)
  let r := ofBe (sig.take 32)
  let s := ofBe (sig.drop 32)
  if r = 0 ∨ ecN ≤ r ∨ s = 0 ∨ ecN ≤ s ∨ !ecOn qx qy then false
  else
    let w := invMod ecN s
    let u1 := ofBe digest % ecN * w % ecN
    let u2 := r * w % ecN
    let inf : EcPoint := ⟨1, 1, 0⟩
    let p := ecAdd (ecMul u1 ⟨ecGx, ecGy, 1⟩ 256 inf) (ecMul u2 ⟨qx, qy, 1⟩ 256 inf)
    p.z != 0 && ecX p % ecN == r

end Sys2Proof.Machine
end

