-- ==== Sys2Proof/Machine/Otp.lean ====
section
/-! DEFINITION. One-time-programmable memory (chapter 17): regions, marks and their transitions (Table 17-4), the checks
and steps of a burn (Tables 17-7, 17-8), the wired row, finalising and digests, secrets, generations, sensing at reset,
sticky locks, and the `otp` lines. -/

namespace Sys2Proof.Machine

/-- Runs a command of a session that reaches a level; otherwise `err 22 LEVEL` (R152). -/
def needs (l : Level) (f : Call → State → State) (k : Call) (s : State) : State :=
  if reaches (s.ses k.x).level l then f k s else fail k 22 s

/-! ### Regions (Table 17-1) -/

/-- The region of a word: 0 FACT, 1 CUST, 2 KEYS, 3 SECR, 4 GEN, 5 the wired row, 6 LOCK. -/
def regionOf (w : Nat) : Nat :=
  if w < 0x080 then 0 else if w < 0x100 then 1 else if w < 0x140 then 2 else if w < 0x160 then 3
  else if w < 0x1E0 then 4 else if w < 0x200 then 6 else 5

/-- The regions of the array with their words (Table 17-1). -/
def otpRegions : List (String × Nat × Nat × Nat) :=
  [("FACT", 0, 0x000, 0x07F), ("CUST", 1, 0x080, 0x0FF), ("KEYS", 2, 0x100, 0x13F), ("SECR", 3, 0x140, 0x15F),
   ("GEN", 4, 0x160, 0x1DF), ("LOCK", 6, 0x1E0, 0x1FF)]

/-- The words from a first to a last one. -/
def wordsOf (a b : Nat) : List Nat := (List.range (b + 1 - a)).map (a + ·)

/-- The words of a finalisable region. -/
def regionWords (r : Nat) : List Nat := match otpRegions.find? fun q => q.2.1 == r with
  | some q => wordsOf q.2.2.1 q.2.2.2
  | none => []

/-- Digest word k of a region's LOCK block (R575). -/
def lockWord (r k : Nat) : Nat := 0x1E0 + 8 * r + k

/-- A region is finalised while its digest word 0 is in use (R576). -/
def State.finalised (s : State) (r : Nat) : Bool := r < 4 && (s.otpData (lockWord r 0)).isSome

/-- `otp.final` (R578). -/
def State.otpFinal (s : State) : Nat := (List.range 4).foldl (fun n r => if s.finalised r then n + 2 ^ r else n) 0

/-- Whether a region refuses every burn: LOCK, a finalised or sticky-locked region, or a final wired row (Table 17-7,
R571). -/
def State.regionShut (s : State) (r : Nat) : Bool :=
  r == 6 || s.finalised r || (r < 6 && s.otp.sticky.getLsbD r) || (r == 5 && s.otp.wrow.getLsbD 15)

/-! ### Words -/

/-- Puts a value into a list of pairs with rising keys. -/
def assocPut {α : Type} (k : Nat) (v : α) : List (Nat × α) → List (Nat × α)
  | [] => [(k, v)]
  | p :: r => if k < p.1 then (k, v) :: p :: r else if k = p.1 then (k, v) :: r else p :: assocPut k v r

/-- Sets raw bits of a word; a burned bit stays burned (R559). -/
def otpSet (w : Nat) (bits : BitVec 39) (s : State) : State :=
  let raw := s.otpRaw w ||| bits
  if raw = 0 then s else s.modOtp fun o => { o with array := assocPut w raw o.array }

/-- Sets the mark of a word in its shadow entry, which is then updated (R564, R592); the state table of FRAM follows through its
port. -/
def setMark (w : Nat) (m : WordState) (s : State) : State :=
  s.modOtp fun o => { o with marks := assocPut w m o.marks, parity := o.parity.filter (· != w) }

/-- The pattern that a word in use stands for: its decoded data with its check bits. -/
def State.otpPattern (s : State) (w : Nat) : BitVec 39 := match s.otpData w with
  | some d => eccEncode d
  | none => s.otpRaw w

/-- Whether Table 17-4 allows a burn of a pattern: the code of its refusal, none when it may run. -/
def burnRefused (s : State) (w : Nat) (v : BitVec 39) : Option Nat :=
  let m := s.otpMark w
  match m.mark with
  | .blank => none
  | .sealed => if v = s.otpPattern w ∧ m.rb < 3 then none else some 50
  | .weak => if v = s.otpPattern w then none else some 50
  | .exhausted => some 51
  | .failed | .interrupted | .uncorr =>
    if !s.regionShut (regionOf w) && s.otpRaw w &&& ~~~v == 0 && m.rb < 3 then none else some 51

/-- The mark after a burn of a word whose reads passed normal margin and the margins or not (Table 17-4). An identical
re-burn that fails normal margin fails a margin. A WEAK word has had its three re-burns at rb 3 (log 33). -/
def burnMark (m : WordState) (normal margins : Bool) : WordState := match m.mark with
  | .sealed => { mark := if normal && margins then .sealed else .weak, rb := min 3 (m.rb + 1) }
  | .weak =>
    if normal && margins then { mark := .sealed, rb := min 3 (m.rb + 1) }
    else { mark := if m.rb + 1 < 3 then .weak else .exhausted, rb := min 3 (m.rb + 1) }
  | .exhausted => m
  | .blank => { mark := if !normal then .failed else if margins then .sealed else .weak, rb := 0 }
  | .failed | .interrupted | .uncorr =>
    { mark := if !normal then .failed else if margins then .sealed else .weak, rb := min 3 (m.rb + 1) }

/-! ### Secrets (R579) -/

/-- A word as users read it: a word that is not in use counts as blank (R561). -/
def State.otpUser (s : State) (w : Nat) : W32 := (s.otpData w).getD 0

/-- The identity words 0x000-0x003, each least significant byte first. -/
def identBytes (s : State) : List Byte := (List.range 4).flatMap fun i => leBytes 4 (s.otpUser i).toNat

/-- The scrambling mask of level k, 32 bytes. -/
def secretMask (s : State) (k : Nat) : List Byte :=
  sha256 (identBytes s ++ textBytes (txt "SECR") ++ [BitVec.ofNat 8 k])

/-- Mask word i. -/
def maskWord (m : List Byte) (i : Nat) : W32 := BitVec.ofNat 32 (ofLe ((m.drop (4 * i)).take 4))

/-- The pattern burned for a value: a secret is scrambled (R579). Only the two secrets are; the reserved words of SECR
hold no secret. -/
def burnPattern (s : State) (w : Nat) (v : W32) : BitVec 39 :=
  if 0x140 ≤ w ∧ w < 0x150 then
    eccEncode (v ^^^ maskWord (secretMask s ((w - 0x140) / 8)) ((w - 0x140) % 8))
  else eccEncode v

/-! ### Digests (R575) -/

/-- The digest words of a region. -/
def digestWords (s : State) (r : Nat) : List W32 :=
  let m := sha256 (BitVec.ofNat 8 (r + 1) :: (regionWords r).flatMap fun w => leBytes 4 (s.otpUser w).toNat)
  (List.range 8).map (maskWord m)

/-! ### The run of an operation (Table 17-8) -/

/-- Answers the line of the operation. -/
def otpReply (t : Text) (s : State) : State :=
  forAll (waiters s fun w => w == .otp) (fun k s => answer k.1 t s) s

/-- Ends the operation. -/
def otpFinish (t : Text) (s : State) : State := otpReply t (s.modOtp fun o => { o with run := none })

/-- The last step of Table 17-8: FRAM takes the state table and the cleared intent record through its port, at the priority of the intent
record (R95, R104, R572). A reply or the next word follows. -/
def otpSave (t : Option Text) (s : State) : State :=
  framAsk 3 .otpState 1 (s.modOtp fun o => { o with run := o.run.map fun r => { r with saving := some t } })

/-- The operation ends when FRAM has taken that step. -/
def otpEnd (t : Text) (s : State) : State := otpSave (some t) s

/-- The next word of the operation: its intent record goes to FRAM at priority 3. -/
def otpNext (s : State) : State := match s.otp.run with
  | none => s
  | some r => match r.todo with
    | [] => otpFinish (txt "ok") s
    | (w, v) :: _ => framAsk 3 (.intent w v) 1 s

/-- What follows the last step of Table 17-8; a host core that restarts goes on after it (R573). -/
def otpGo (s : State) : State := match s.otp.run with
  | none => s
  | some r => match r.saving with
    | none => s
    | some t =>
      if s.host.restart.isSome then s
      else match t with
        | some t => otpFinish t s
        | none => otpNext (s.modOtp fun o => { o with run := some { r with saving := none } })

/-- FRAM has taken the state table; the intent record is cleared unless it is that of a pulse still to come. -/
def otpSaved (s : State) : State :=
  let open_ := s.otp.run.any fun r => r.saving.isNone
  otpGo (s.modFram fun f => { f with otp := some s.otp.marks, intent := if open_ then f.intent else none })

/-- Starts an operation. -/
def otpBegin (k : Call) (job : OtpJob) (todo : List (Nat × BitVec 39)) (s : State) : State :=
  otpNext (waitFor k .otp (s.modOtp fun o =>
    { o with run := some { job := job, by_ := k.x, todo := todo, pulse := false, again := 0, begun := false, saving := none } }))

/-- The programming pump has charged and the OTP lock is held: the second temperature check (R573), then the pulse. -/
def execOtpPulseStart (s : State) : Out := .next (match s.otp.run with
  | none => s
  | some r => match r.todo with
    | [] => s
    | p :: _ =>
      if r.pulse || r.saving.isSome || s.host.restart.isSome || s.fram.intent != some p then s
      else if !s.otpWindow then otpEnd (errText 53 none) s
      else s.modOtp fun o => { o with run := some { r with pulse := true, begun := true } })

/-- The wired row after a pulse: the bits of the three copies, and another pulse while a requested bit of some copy fails
its reads, up to three more (R567). -/
def rowPulse (r : OtpRun) (v : W16) (row : RowReads) (s : State) : State :=
  let old := s.otp.copies
  let c : Tri W16 := { u := old.u ||| (row.c0 &&& v), v := old.v ||| (row.c1 &&& v), w := old.w ||| (row.c2 &&& v) }
  let s := s.modOtp fun o => { o with copies := c }
  let bad := (~~~(c.u &&& c.v &&& c.w) ||| row.weak) &&& v
  if bad != 0 && r.again < 3 then
    otpSave none (s.modOtp fun o => { o with run := some { r with pulse := false, again := r.again + 1 } })
  else
    let maj := (c.u &&& c.v) ||| (c.u &&& c.w) ||| (c.v &&& c.w)
    otpEnd (if maj &&& v = v then txt "ok" else errText 57 none) (s.modOtp fun o => { o with run := some { r with pulse := false } })

/-- A word after a pulse: its raw bits, its mark by Table 17-4, and what the operation does next (R563, R576, R583). -/
def wordPulse (r : OtpRun) (w : Nat) (v : BitVec 39) (reads : OtpReads) (s : State) : State :=
  let s := otpSet w (reads.normal &&& v) s
  let normal := s.otpRaw w == v && reads.normal == v
  let m := burnMark (s.otpMark w) normal (reads.prog == v && reads.blank == v)
  let s := setMark w m s
  if !m.mark.inUse then otpEnd (errText 57 none) (s.modOtp fun o => { o with run := some { r with pulse := false } })
  else
    let multi := match r.job with
      | .finalise _ | .gen _ => true
      | _ => false
    if multi && m.mark == .weak && r.again < 3 then
      otpSave none (s.modOtp fun o => { o with run := some { r with pulse := false, again := r.again + 1 } })
    else
      let rest := r.todo.drop 1
      otpSave (if rest.isEmpty then some (txt "ok") else none)
        (s.modOtp fun o => { o with run := some { r with pulse := false, again := 0, todo := rest } })

/-- The burn pulse has ended and the three reads have been taken: shadow entry, state table, intent record and
`stat.otp.burns` (Table 17-8). A host core that restarts takes the reads when it is back (R573). -/
def execOtpPulseEnd (reads : OtpReads) (row : RowReads) (s : State) : Out := .next (match s.otp.run with
  | none => s
  | some r => match r.todo with
    | [] => s
    | (w, v) :: _ =>
      if !r.pulse || s.host.restart.isSome then s
      else
        let s := bump 0x78C1 s
        match r.job with
        | .wired x => rowPulse r x row s
        | _ => wordPulse r w v reads s)

/-! ### The `otp` lines -/

/-- An `otp` line: `err 41 BUSY` while another operation runs (R115). -/
def otpLine (l : Level) (f : Call → State → State) : Call → State → State :=
  needs l fun k s => if s.otp.run.isSome then fail k 41 s else f k s

/-- `otp burn` (Table 17-7). -/
def cmdOtpBurn (w : Nat) (v : W32) : Call → State → State := needs .factory fun k s =>
  if 0x200 < w then fail k 13 s
  else if s.otp.run.isSome then fail k 41 s
  else if w = 0x200 ∧ v.extractLsb' 16 16 ≠ 0 then fail k 13 s
  else if s.regionShut (regionOf w) then fail k 55 s
  else if regionOf w = 3 ∧ !((List.range 4).all fun i => (s.otpData i).isSome) then fail k 30 s
  else if !(s.tempReady && s.otpWindow) then fail k 53 s
  else if w = 0x200 then otpBegin k (.wired (v.extractLsb' 0 16)) [(w, (v.extractLsb' 0 16).zeroExtend 39)] s
  else
    let p := burnPattern s w v
    match burnRefused s w p with
    | some c => fail k c s
    | none => otpBegin k (.burn w) [(w, p)] s

/-- OTP_BURN. -/
def execOtpBurn (x : Sess) (word : Nat) (value : W32) (s : State) : Out := direct x "otp" (cmdOtpBurn word value) s

/-- WIRED_ROW_BURN: `otp burn 0x200` (R567). -/
def execWiredRowBurn (x : Sess) (value : W32) (s : State) : Out := direct x "otp" (cmdOtpBurn 0x200 value) s

/-- The margin reads of finalising over the non-blank words of a region: a word that fails a margin becomes WEAK (R574).
What the reads answer is free. The state table takes the marks that change. -/
def marginReads (r : Nat) (s : State) : State :=
  let n := s.free
  let bad := (regionWords r).filter fun w => (s.otpMark w).mark == .sealed && Config.marginFails n w
  let s := forAll bad (fun w s => setMark w { s.otpMark w with mark := .weak } s) { s with free := n + 1 }
  if bad.isEmpty then s else framAsk 3 .otpState 1 s

/-- What finalising does with a digest word (R576, R577): skip it, burn it, or refuse. -/
def digestPlan (s : State) (w : Nat) (d : W32) : Option (List (Nat × BitVec 39)) :=
  let v := eccEncode d
  let m := s.otpMark w
  match m.mark with
  | .blank => some [(w, v)]
  | .failed | .interrupted => if s.otpRaw w &&& ~~~v = 0 ∧ m.rb < 3 then some [(w, v)] else none
  | _ => if s.otpData w = some d then some [] else none

/-- The words that a finalise burns, words 1-7 first and word 0 last; none when a word holds another value. -/
def digestTodo (s : State) (r : Nat) : Option (List (Nat × BitVec 39)) :=
  let ds := digestWords s r
  [1, 2, 3, 4, 5, 6, 7, 0].foldr (fun k acc => match digestPlan s (lockWord r k) (nth ds k 0), acc with
    | some a, some b => some (a ++ b)
    | _, _ => none) (some [])

/-- `otp finalise` (R574-R577). -/
def cmdOtpFinalise (region : Text) : Call → State → State := needs .factory fun k s =>
  match (otpRegions.take 4).find? fun q => txt q.1 == region with
  | none => fail k 17 s
  | some q =>
    let r := q.2.1
    if s.otp.run.isSome then fail k 41 s
    else if !(s.tempReady && s.otpWindow) then fail k 53 s
    else if s.regionShut r then fail k 55 s
    else
      let s := marginReads r s
      let marks := (regionWords r).map fun w => (s.otpMark w).mark
      if marks.any (fun m => m != .blank && m != .sealed && m != .weak) then fail k 51 s
      else if marks.contains .weak then fail k 54 s
      else match digestTodo s r with
        | none => fail k 57 s
        | some todo => otpBegin k (.finalise r) todo s

/-- OTP_FINALISE. -/
def execOtpFinalise (x : Sess) (region : Text) (s : State) : Out := direct x "otp" (cmdOtpFinalise region) s

/-- The first word of generation slot g. -/
def genWord (g i : Nat) : Nat := 0x160 + 8 * (g - 1) + i

/-- Whether a generation slot is used (R582). -/
def genUsed (s : State) (g : Nat) : Bool := (List.range 8).any fun i => (s.otpMark (genWord g i)).mark != .blank

/-- The highest used slot, 0 when none is. -/
def genTop (s : State) : Nat := (List.range 17).foldl (fun t g => if g != 0 && genUsed s g then g else t) 0

/-- `otp.gen.count` (R582). -/
def State.genCount (s : State) : Nat := ((List.range 17).filter fun g => g != 0 && genUsed s g).length

/-- The content of a generation from the set in force (Table 17-9). -/
def genContent (s : State) (g : Nat) : List W32 :=
  let sel := s.parN 0x6001 % 32
  let on (b : Nat) (v : Nat) : W32 := if sel.testBit b then BitVec.ofNat 32 v else 0
  let off (x : Axis) : Nat := ofSigned 8 (s.axp x 0x074) + 256 * ofSigned 8 (s.axp x 0x075) + 65536 * ofSigned 8 (s.axp x 0x076)
  let ang (x : Axis) (o : Nat) : Nat :=
    let a (i : Nat) : Nat := ((s.axn x (0x026 + o + i) + 32) / 64) % 1024
    a 0 + 1024 * a 1 + 1048576 * a 2
  let body : List W32 :=
    [on 0 (off .a), on 1 (off .b), on 2 (ofSigned 16 (s.par 0x0051) + 65536 * ofSigned 16 (s.par 0x0052)),
     on 3 (ang .a 0), on 3 (ang .a 3), on 4 (ang .b 0), on 4 (ang .b 3)]
  BitVec.ofNat 32 (g + 256 * sel + 65536 * (crc16 (body.flatMap fun w => leBytes 4 w.toNat)).toNat) :: body

/-- `otp gen commit` (R583). -/
def cmdOtpGen : Call → State → State := needs .installer fun k s =>
  if s.otp.run.isSome || s.commit.isSome then fail k 41 s
  else if s.otp.sticky.getLsbD 4 then fail k 55 s
  else if !s.otpWindow then fail k 53 s
  else if 16 ≤ genTop s then fail k 52 s
  else
    let g := genTop s + 1
    let ws := genContent s g
    otpBegin k (.gen g) ([1, 2, 3, 4, 5, 6, 7, 0].map fun i => (genWord g i, eccEncode (nth ws i 0))) s

/-- OTP_GEN_COMMIT. -/
def execOtpGenCommit (x : Sess) (s : State) : Out := direct x "otp" cmdOtpGen s

/-- The name of a mark; BAD carries its cause (R585). -/
def markText : Mark → Text
  | .blank => txt "blank"
  | .sealed => txt "sealed"
  | .weak => txt "weak"
  | .exhausted => txt "bad exhausted"
  | .failed => txt "bad failed"
  | .interrupted => txt "bad interrupted"
  | .uncorr => txt "bad uncorr"

/-- The data a read shows: decoded, or a free value for a word that does not decode (log 34). -/
def State.otpShown (s : State) (w : Nat) : W32 := match eccDecode (s.otpRaw w) with
  | some d => d.1
  | none => Config.undecoded (s.otpRaw w)

/-- The present majority of the wired row. -/
def State.rowMajority (s : State) : W16 :=
  let c := s.otp.copies
  (c.u &&& c.v) ||| (c.u &&& c.w) ||| (c.v &&& c.w)

/-- `otp.wrow.split`: the bits whose copies disagree (R567). -/
def State.rowSplit (s : State) : W16 :=
  let c := s.otp.copies
  (c.u ^^^ c.v) ||| (c.u ^^^ c.w)

/-- `otp read` (R580, R585). -/
def cmdOtpRead (w : Nat) : Call → State → State := otpLine .installer fun k s =>
  if 0x200 < w then fail k 13 s
  else if w = 0x200 then okValue k (txt "0x" ++ hex 4 s.rowMajority.toNat ++ txt " wired") s
  else if regionOf w = 3 then failWord k 23 w s
  else if (s.otpMark w).mark == .blank then okValue k (txt "blank") s
  else okValue k (txt "0x" ++ hex 8 (s.otpShown w).toNat ++ ' ' :: markText (s.otpMark w).mark ++ txt " ecc 0x" ++
    hex 2 (((s.otpRaw w).extractLsb' 32 7).toNat)) s

/-- OTP_READ. -/
def execOtpRead (x : Sess) (word : Nat) (s : State) : Out := direct x "otp" (cmdOtpRead word) s

/-- The line of a region in `otp status` (R585). -/
def regionLine (s : State) (q : String × Nat × Nat × Nat) : Text :=
  let ms := (wordsOf q.2.2.1 q.2.2.2).map fun w => (s.otpMark w).mark
  let n (p : Mark → Bool) : Text := dec (ms.filter p).length
  txt q.1 ++ txt " 0x" ++ hex 3 q.2.2.1 ++ txt "-0x" ++ hex 3 q.2.2.2 ++ txt " blank " ++ n (· == .blank) ++
    txt " sealed " ++ n (· == .sealed) ++ txt " weak " ++ n (· == .weak) ++ txt " bad " ++
    n (fun m => m != .blank && m != .sealed && m != .weak) ++ txt (if s.finalised q.2.1 then " final" else " open") ++
    txt (if q.2.1 < 6 && s.otp.sticky.getLsbD q.2.1 then " sticky" else " -")

/-- The line of a word in `otp status <region>`. -/
def wordLine (s : State) (secret : Bool) (w : Nat) : Text :=
  let m := s.otpMark w
  txt "w0x" ++ hex 4 w ++ ' ' :: (if secret then txt "--------" else txt "0x" ++ hex 8 (s.otpShown w).toNat) ++
    ' ' :: markText m.mark ++ txt " rb " ++ dec m.rb

/-- `otp status` (R585). -/
def cmdOtpStatus (region : Option Text) : Call → State → State := otpLine .installer fun k s =>
  match region with
  | none => emitData k (otpRegions.map (regionLine s)) (txt "ok") s
  | some t => match otpRegions.find? fun q => txt q.1 == t with
    | none => fail k 17 s
    | some q => emitData k (((wordsOf q.2.2.1 q.2.2.2).filter fun w => (s.otpMark w).mark != .blank).map
        (wordLine s (q.2.1 == 3))) (txt "ok") s

/-- OTP_STATUS. -/
def execOtpStatus (x : Sess) (region : Option Text) (s : State) : Out := direct x "otp" (cmdOtpStatus region) s

/-! ### Sticky locks (R571) -/

/-- Sets sticky bits; no write clears one. -/
def stickySet (m : BitVec 6) (s : State) : State := s.modOtp fun o => { o with sticky := o.sticky ||| m }

/-- STICKY_LOCK_WRITE: a write of `otp.sticky`, under the access checks of Table 18-2. -/
def execStickyLockWrite (x : Sess) (mask : BitVec 6) (s : State) : Out :=
  direct x "set" (fun k s => match parById 0x6000 with
    | none => s
    | some p => match writeCheck s (s.ses k.x).level false p false with
      | some c => failAt k c p.id s
      | none => ok k (stickySet mask s)) s

/-! ### Sensing at reset (R568, R569, R571, R578) -/

/-- The wired row is sensed and latched onto its wires (R565). -/
def senseRow (s : State) : State := s.modOtp fun o => { o with wrow := s.rowMajority }

/-- The mark of a non-blank word at reset: UNCORR when it does not decode; else that of the state table, or SEALED
(R564, R568). -/
def senseMark (table : List (Nat × WordState)) (w : Nat) (raw : BitVec 39) : WordState :=
  let old := (table.find? fun p => p.1 == w).map (·.2)
  match eccDecode raw with
  | none => { mark := .uncorr, rb := (old.map (·.rb)).getD 0 }
  | some _ => old.getD { mark := .sealed, rb := 0 }

/-- Senses words 0x000-0x1FF; a state table that fails its CRC is rebuilt (R564, R568). -/
def senseWords (s : State) : State :=
  let s := match s.fram.otp with
    | some _ => s
    | none => logAster 0x51 0 0 0 s
  let table := s.fram.otp.getD []
  let marks := s.otp.array.map fun p => (p.1, senseMark table p.1 p.2)
  let fixed := (s.otp.array.filter fun p => (eccDecode p.2).any (·.2)).length
  let s := (bumpBy 0x78C0 fixed s).modOtp fun o => { o with marks := marks, parity := [] }
  s.modFram fun f => if f.present then { f with otp := some marks } else f

/-- The intent word is settled by three reads (R569). A boot step uses FRAM before its port has another user (log 127). -/
def settleIntent (s : State) : State := match s.fram.intent with
  | none => s
  | some (w, v) =>
    let n := s.free
    let s := { s with free := n + 1 }.modFram fun f => { f with intent := none }
    let s := if w = 0x200 then s
      else if s.otpRaw w = v then setMark w (burnMark { mark := .blank, rb := 0 } true (!Config.marginFails n w)) s
      else setMark w { mark := .interrupted, rb := (s.otpMark w).rb } s
    let s := s.modFram fun f => if f.present then { f with otp := some s.otp.marks } else f
    logAster 0x50 0 w 0 s

/-- Takes the words in use as sensed, and the sticky bits of finalised regions and of a final wired row (R571). -/
def senseDone (s : State) : State :=
  let used := s.otp.marks.filterMap fun p => (s.otpData p.1).map fun d => (p.1, d)
  let st := s.otpFinal + (if s.otp.wrow.getLsbD 15 then 32 else 0)
  s.modOtp fun o => { o with sensed := used, sticky := BitVec.ofNat 6 st }

/-- The digest check of the finalised regions: whether some region fails it (R578). -/
def digestFails (s : State) : Bool := (List.range 4).any fun r =>
  s.finalised r && !((digestWords s r).zipIdx.all fun q => s.otpData (lockWord r q.2) == some q.1)

/-- What a reset of Aster leaves of an OTP operation: a pulse in progress stops with some of its bits programmed
(R587). -/
def otpCut (s : State) : State := match s.otp.run with
  | some { pulse := true, todo := (w, v) :: _, job := job, .. } =>
    let n := s.free
    let cut (i : Nat) : BitVec 39 := Config.burnMask (n + i) &&& v
    let s := { s with free := n + 3 }
    let s := match job with
      | .wired _ => s.modOtp fun o =>
        { o with copies := { u := o.copies.u ||| (cut 0).truncate 16, v := o.copies.v ||| (cut 1).truncate 16,
                             w := o.copies.w ||| (cut 2).truncate 16 } }
      | _ => otpSet w (cut 0) s
    s.modOtp fun o => { o with run := none }
  | _ => s.modOtp fun o => { o with run := none }

/-- The trims of the eight sensors from FACT; a word not in use counts as blank (R430, R558). -/
def factTrim (s : State) (n : Nat) : Option Trim :=
  match s.otpSensed (0x010 + 2 * n), s.otpSensed (0x011 + 2 * n) with
  | some a, some b =>
    let t : Trim := { n1 := a.toNat % 65536, t1 := toSigned 16 (a.toNat / 65536), n2 := b.toNat % 65536,
                      t2 := toSigned 16 (b.toNat / 65536) }
    if trimOk t then some t else none
  | _, _ => none

end Sys2Proof.Machine
end

