-- ==== Sys2Proof/Machine/Trust.lean ====
section
/-! DEFINITION. Session levels, elevation and bundles (chapter 18): challenges and responses, the lockout, the return to
USER, the bundle store and its verification. The commit of a bundle stands with the other commits. -/

namespace Sys2Proof.Machine

/-! ### Elevation -/

/-- A level named in an `auth` line; `user` and other words name none (R597). -/
def authLevel (t : Text) : Option Level :=
  if t == txt "installer" then some .installer else if t == txt "factory" then some .factory else none

/-- The key of a level (R598): none when some words of the secret cannot be used. -/
def levelKey (s : State) (l : Level) : Option (List Byte) :=
  let k := levelNum l - 1
  let ws := wordsOf (0x140 + 8 * k) (0x147 + 8 * k)
  if ws.all fun w => (s.otpMark w).mark == .blank then some (List.replicate 32 0)
  else if ws.all fun w => (s.otpData w).isSome then
    some ((List.range 8).flatMap fun i => leBytes 4 (s.otpUser (0x140 + 8 * k + i) ^^^ maskWord (secretMask s k) i).toNat)
  else none

/-- The response expected from a session (R599). -/
def authResponse (s : State) (x : Sess) (l : Level) (key nonce : List Byte) : List Byte :=
  (hmac key (nonce ++ identBytes s ++ [BitVec.ofNat 8 (levelNum l), BitVec.ofNat 8 (sessNum x)])).take 16

/-- Hexadecimal digits of bytes. -/
def hexBytes (bs : List Byte) : Text := bs.flatMap fun b => hex 2 b.toNat

/-- The grouped form of 16 bytes (R597). -/
def groupHex (bs : List Byte) : Text :=
  joinWith ['-'] ((List.range 4).map fun i => hexBytes ((bs.drop (4 * i)).take 4))

/-- Reads 32 digits, grouped or unbroken (R599). -/
def readResponse (t : Text) : Option (List Byte) :=
  let ok := t.length == 32 || (t.length == 35 && [8, 17, 26].all fun i => nth t i ' ' == '-')
  let ds := t.filter (· != '-')
  if ok && ds.length == 32 then readBytes ds else none

/-- `err 24 AUTH_FAIL` with its log entry and counter (R610); the reason code is a free value (log 35). -/
def authFail (k : Call) (l : Level) (lockout : Bool) (s : State) : State :=
  fail k 24 (logAster 0x48 0 (sessNum k.x + 256 * levelNum l) (Config.authReason lockout).toNat (bump 0x78E0 s))

/-- Sets the level of a session and tells it (R600). -/
def setLevel (x : Sess) (l : Level) (s : State) : State :=
  noticeTo x 5 (txt "level " ++ levelText l) (s.modSes x fun se => { se with level := l })

/-- Returns a session to USER; it is told when the level was above USER (R602). -/
def toUser (x : Sess) (s : State) : State := if (s.ses x).level == .user then s else setLevel x .user s

/-- The ends of R594: level USER, the challenge discarded, the bundle store closed (R603). -/
def dropTrust (x : Sess) (s : State) : State :=
  toUser x (s.modSes x fun se => { se with chal := none, bundle := none })

/-- The checks that both forms of `auth` share (R597, R598, R600, R601). -/
def withAuth (k : Call) (t : Text) (f : Level → List Byte → State → State) (s : State) : State := match authLevel t with
  | none => fail k 17 s
  | some l =>
    if l == .factory && k.x != .h then fail k 30 s
    else if s.lockAt.isSome then authFail k l true s
    else match levelKey s l with
      | none => fail k 51 s
      | some key => f l key s

/-- `auth <level>` (R597). -/
def cmdChallenge (t : Text) (k : Call) (s : State) : State := withAuth k t (fun l _ s =>
  let nonce := beBytes 16 (Config.nonce s.free).toNat
  let s := { s with free := s.free + 1 }
  okValue k (groupHex nonce) (s.modSes k.x fun se =>
    { se with chal := some { level := l, nonce := nonce, at_ := s.etime } })) s

/-- AUTH_CHALLENGE. -/
def execAuthChallenge (x : Sess) (level : Text) (s : State) : Out := direct x "auth" (cmdChallenge level) s

/-- FRAM takes the count of wrong responses and the end of a lockout through its port (R95, R601; its priority is a DESIGN CHOICE,
log 127). -/
def authSave (s : State) : State :=
  framAsk 3 (.auth s.tries (s.lockAt.map fun l => l.1 + BitVec.ofNat 48 l.2)) 1 s

/-- Counts a wrong response; the lockout starts when the count is reached, with the length that `sec.auth.lock_t` then has (R601). -/
def wrongResponse (s : State) : State :=
  let n := s.tries + 1
  authSave (if s.parN 0x6401 ≤ n then { s with tries := 0, lockAt := some (s.etime, 1000000 * s.parN 0x6402) } else { s with tries := n })

/-- A correct response resets the count (R601). -/
def rightResponse (s : State) : State := if s.tries = 0 then s else authSave { s with tries := 0 }

/-- `auth <level> <response>` (R600). -/
def cmdResponse (t resp : Text) (k : Call) (s : State) : State := withAuth k t (fun l key s =>
  match readResponse resp with
  | none => fail k 17 s
  | some bs => match (s.ses k.x).chal with
    | none => fail k 26 s
    | some c =>
      if c.level != l || 1000000 * s.parN 0x6403 < s.since c.at_ then fail k 26 s
      else if bs != authResponse s k.x l key c.nonce then authFail k l false (wrongResponse s)
      else
        let s := rightResponse (s.modSes k.x fun se => { se with chal := none })
        ok k (setLevel k.x l s)) s

/-- AUTH_RESPONSE. -/
def execAuthResponse (x : Sess) (level resp : Text) (s : State) : Out := direct x "auth" (cmdResponse level resp) s

/-- `logout` (R602). -/
def cmdLogout (k : Call) (s : State) : State := ok k (toUser k.x s)

/-- LOGOUT. -/
def execLogout (x : Sess) (s : State) : Out := direct x "logout" cmdLogout s

/-- A session above USER has received no line for `sec.idle`; 0 disables this (R602). -/
def execLevelIdleTimeout (x : Sess) (s : State) : Out :=
  .next (if s.parN 0x6400 = 0 || (s.ses x).level == .user then s
    else timeUp (s.ses x).lineAt (1000000 * s.parN 0x6400) (toUser x) s)

/-- The lockout has lasted its length (R601). -/
def execAuthLockoutEnd (s : State) : Out := .next (match s.lockAt with
  | some l => timeUp l.1 l.2 (fun s => authSave { s with lockAt := none }) s
  | none => s)

/-- `sec.lockout`: the seconds that remain, rounded up (R601). -/
def State.lockoutLeft (s : State) : Nat := match s.lockAt with
  | some l => (l.2 - s.since l.1 + 999999) / 1000000
  | none => 0

/-! ### Bundles -/

/-- `bundle begin` (R603). -/
def cmdBundleBegin (k : Call) (s : State) : State := ok k (s.modSes k.x fun se => { se with bundle := some [] })

/-- BUNDLE_BEGIN. -/
def execBundleBegin (x : Sess) (s : State) : Out := direct x "bundle" cmdBundleBegin s

/-- `bundle add` (R603): it has one or more tokens, and one that is not an even number of hexadecimal digits is answered `err 17`. -/
def cmdBundleAdd (ts : List Text) (k : Call) (s : State) : State := if ts.isEmpty then fail k 18 s else match (s.ses k.x).bundle with
  | none => fail k 30 s
  | some old => match (ts.map readBytes).foldr (fun a r => match a, r with
        | some x, some y => some (x ++ y)
        | _, _ => none) (some []) with
    | none => fail k 17 s
    | some bs =>
      if 1024 < old.length + bs.length then fail k 42 s
      else ok k (s.modSes k.x fun se => { se with bundle := some (old ++ bs) })

/-- BUNDLE_ADD. -/
def execBundleAdd (x : Sess) (hex : List Text) (s : State) : Out := direct x "bundle" (cmdBundleAdd hex) s

/-- The entries of a bundle: ID, N and value bytes; none when they do not fill their area (Table 18-3). -/
def bundleEntries : Nat → List Byte → Option (List (Nat × Nat × List Byte))
  | _, [] => some []
  | 0, _ => none
  | k + 1, a :: b :: n :: r =>
    if r.length < n.toNat then none
    else (bundleEntries k (r.drop n.toNat)).map fun es => (ofLe [a, b], n.toNat, r.take n.toNat) :: es
  | _ + 1, _ => none

/-- A bundle taken apart (Table 18-3). -/
structure Bundle where
  slot    : Nat
  level   : Level
  target  : List Byte
  seq     : Nat
  entries : List (Nat × Nat × List Byte)
  signed  : List Byte
  key     : List Byte
  sig     : List Byte
  deriving DecidableEq, Repr

/-- Check 1 of Table 18-4: the form of a bundle. A LEVEL other than 1 and 2 fails it (log 35). -/
def readBundle (bs : List Byte) : Option Bundle :=
  let e := ofLe ((bs.drop 26).take 2)
  let n := ofLe ((bs.drop 24).take 2)
  if bs.length != 156 + e || nth bs 0 0 != 1 || n = 0 || 256 < n then none
  else match bundleEntries 300 ((bs.drop 28).take e) with
    | none => none
    | some es =>
      let lv : Option Level := match (nth bs 2 0).toNat with
        | 1 => some .installer
        | 2 => some .factory
        | _ => none
      match lv with
      | none => none
      | some l =>
        if es.length != n then none
        else some { slot := (nth bs 1 0).toNat, level := l, target := (bs.drop 4).take 16, seq := ofLe ((bs.drop 20).take 4),
                    entries := es, signed := bs.take (28 + e), key := (bs.drop (28 + e)).take 64,
                    sig := (bs.drop (92 + e)).take 64 }

/-- A KEYS slot as sensed, when it is in use and not revoked (Table 18-4, R617). -/
def keySlot (s : State) (n : Nat) : Option (List Byte) :=
  let revoked := ((s.otpSensed 0x120).getD 0).getLsbD n
  if 4 ≤ n || revoked then none
  else ((List.range 8).map fun i => s.otpSensed (0x100 + 8 * n + i)).foldr (fun a r => match a, r with
    | some w, some y => some (leBytes 4 w.toNat ++ y)
    | _, _ => none) (some [])

/-- The checks of Table 18-4 after the form: the first that fails. -/
def bundleCheck (s : State) (b : Bundle) : Option BundleWhy :=
  if b.target != List.replicate 16 0 && b.target != identBytes s then some .target
  else if !s.finalised 2 then some .keysOpen
  else match keySlot s b.slot with
    | none => some .slot
    | some d =>
      if sha256 b.key != d then some .key
      else if !ecdsaOk b.key b.sig (sha256 b.signed) then some .signature
      else none

/-- The code of a reason: its position among the words of Table 18-4 and `replay` (R611, R725; DEDUCED, log 35). -/
def whyCode : BundleWhy → Nat
  | .format => 0
  | .target => 1
  | .keysOpen => 2
  | .slot => 3
  | .key => 4
  | .signature => 5
  | .replay => 6

/-- `err 56 SIG_FAIL`: the reason and the BUNDLE_FAIL entry with the session, the level named and the reason
(R605, R610). -/
def bundleFail (k : Call) (why : BundleWhy) (level : Nat) (s : State) : State :=
  fail k 56 (logAster 0x49 0 (sessNum k.x + 256 * level) (whyCode why) { s with bundleWhy := some why })

end Sys2Proof.Machine
end

