-- ==== Sys2Proof/Machine/Commit.lean ====
section
/-! DEFINITION. The two-phase commit (chapter 06): the image of the Peony side (Tables 3-12, 8-4, 9-10, 10-3, 13-4, 14-1,
15-10, R558), the packing of blocks (R192), the checks and phases of a commit (Tables 6-3, 6-4), its effects on Aster, and
the persisted set with its journal, base slots and fold (R197-R204). -/

namespace Sys2Proof.Machine

/-! ### The Peony side of a set -/

/-- A DAC code, a multiple, a blanking time and a gain (Table 9-10). -/
def shuntField (sc mult blank gain : Int) : List Byte :=
  [BitVec.ofInt 8 (sc - 1), BitVec.ofInt 8 (mult - 3), BitVec.ofInt 8 blank, BitVec.ofInt 8 gain]

/-- V_wl in counts of 20 mV, rounded up (R492). -/
def vwlCount (v : PSet) : Nat :=
  if v 0x4400 = 0 then (5 * v 0x4015).toNat else ((cellsOf v * (chemOf (v 0x4400)).low + 19) / 20).toNat

/-- The gate-drive fields of an axis (Table 8-4). -/
def gateFields (v : PSet) (x : Axis) : List (Nat × List Byte) :=
  let p (o : Nat) : Nat := (v (axId x o)).toNat
  [(gateBase x, leBytes 2 (p 0x060) ++ ([0x061, 0x062, 0x063, 0x064, 0x065, 0x066, 0x067, 0x068].map fun o => BitVec.ofNat 8 (p o)) ++
    [if setMode v x = 5 then 1 else 0])]

/-- The protection fields of an axis (Table 9-10). -/
def protFields (v : PSet) (x : Axis) : List (Nat × List Byte) :=
  let p (o : Nat) : Int := v (axId x o)
  [(protBase x, shuntField (p 0x080) (p 0x081) (p 0x082) (p 0x070) ++ leBytes 2 (releaseCounts v x))]

/-- Every field of the staged area for a set. -/
def imageFields (s : State) (v : PSet) : List (Nat × List Byte) :=
  let on (b : Bool) (n : Nat) : Nat := if b then n else 0
  let plan := on (setMode v .a != 0) 1 + on (setMode v .b != 0) 2 + on (v 0x0050 != 0) 4 + on (setMode v .a == 4) 8 +
    on (setMode v .b == 4) 16 + on (v 0x7002 == 1) 32
  let src := (v 0x4012).toNat
  [(0x000, leBytes 1 (v 0x3000).toNat), (0x002, leBytes 2 (setP v)), (0x004, leBytes 1 plan),
   (0x005, leBytes 1 (repeatEff v).toNat)] ++
  gateFields v .a ++ gateFields v .b ++ [(0x080, leBytes 1 (v 0x0040).toNat)] ++ protFields v .a ++ protFields v .b ++
  [(0x0C0, (shuntField (v 0x4803) (v 0x4804) (v 0x4805) (v 0x4801))),
   (0x0C4, leBytes 2 (5 * vovEff s v).toNat ++ leBytes 2 (5 * vbrkOnEff s v).toNat ++ leBytes 2 (5 * vbrkOffEff s v).toNat ++
     leBytes 1 (v 0x4812).toNat ++ leBytes 2 (v 0x4821).toNat ++ leBytes 2 (v 0x4822).toNat),
   (0x100, leBytes 1 (on (v 0x0050 != 0) 1) ++ leBytes 1 (v 0x0056).toNat),
   (0x120, (List.range 6).flatMap fun n => leBytes 2 (s.ts n).nOn),
   (0x12C, (List.range 6).flatMap fun n => leBytes 2 (s.ts n).nOff),
   (0x140, leBytes 2 (10 * chgMax v).toNat ++ leBytes 2 (5 * (twinOf s v 0x4410).1).toNat ++ leBytes 1 (v 0x4411).toNat ++
     leBytes 2 (10 * (twinOf s v 0x4412).1).toNat ++ leBytes 2 (vMax v)),
   (0x160, leBytes 2 (v 0x4014).toNat ++ leBytes 1 (on (src.testBit 2) 1 + on (src.testBit 5) 2)),
   (0x164, leBytes 2 (vwlCount v)),
   (0x180, (List.range 32).flatMap fun i => leBytes 4 ((s.otpSensed (0x020 + i)).getD 0).toNat)]

/-- The staged area of a set. -/
def image (s : State) (v : PSet) : Memory := (imageFields s v).foldl (fun m f => memWrites m f.1 f.2) []

/-- The addresses at which two memories in canonical form differ, ascending. -/
def memDiff : Nat → Memory → Memory → List Nat
  | 0, _, _ => []
  | _, [], b => b.map (·.1)
  | _, a, [] => a.map (·.1)
  | n + 1, p :: a, q :: b =>
    if p.1 < q.1 then p.1 :: memDiff n a (q :: b)
    else if q.1 < p.1 then q.1 :: memDiff n (p :: a) b
    else if p.2 = q.2 then memDiff n a b else p.1 :: memDiff n a b

/-! ### Blocks (R192) -/

/-- The unbroken stretches of changed bytes of one entry block: address and length of each, at most 15 bytes each and at
most 31 with their two-byte headers. -/
def packEntries : Nat → Nat → List Nat → List (Nat × Nat)
  | 0, _, _ => []
  | _, _, [] => []
  | n + 1, room, a :: r =>
    let len := 1 + ((r.take 14).zipIdx.takeWhile fun p => p.1 == a + 1 + p.2).length
    if room < 2 + len then [] else (a, len) :: packEntries n (room - 2 - len) (r.drop (len - 1))

/-- The next block: whether it is a RUN, its bytes after BLK, and the changed addresses that remain. -/
def packBlock (m : Memory) (ch : List Nat) : Bool × List Byte × List Nat := match ch with
  | [] => (false, [], [])
  | a :: _ =>
    let inRun := (ch.takeWhile (· < a + 29)).length
    let ents := packEntries 16 31 ch
    let carried := (ents.map (·.2)).foldl (· + ·) 0
    if carried ≤ inRun ∧ a + 29 ≤ stagedEnd then
      (true, leBytes 2 a ++ memReads m a 29, ch.drop inRun)
    else
      let bs := ents.flatMap fun e => [BitVec.ofNat 8 e.1, BitVec.ofNat 8 (e.1 / 256 + 16 * e.2)] ++ memReads m e.1 e.2
      (false, bs ++ List.replicate (31 - bs.length) 0, ch.drop carried)

/-- The blocks of a changed set of addresses, numbered from n. -/
def packBlocks (m : Memory) : Nat → Nat → List Nat → List Block
  | 0, _, _ => []
  | _, _, [] => []
  | k + 1, n, ch =>
    let b := packBlock m ch
    { isRun := b.1, bytes := BitVec.ofNat 8 n :: b.2.1 } :: packBlocks m k (n + 1) b.2.2

/-- The 133 RUN blocks of a load, which covers the whole staged area (R192, R628). The spec does not say where the 133rd block
lies; it starts at 3,811 and ends with the area, so that it repeats bytes of the block before it (DESIGN CHOICE, log 95). -/
def loadBlocks (m : Memory) : List Block :=
  (List.range 133).map fun i =>
    let a := min (29 * i) (stagedEnd - 29)
    { isRun := true, bytes := BitVec.ofNat 8 i :: leBytes 2 a ++ memReads m a 29 }

/-! ### Checks (Table 6-3) -/

/-- The effect class of an ID. -/
def effOf (id : Nat) : Eff := match parById id with
  | some p => p.eff
  | none => .now

/-- The axes that an `idle` entry needs disarmed: its own, or both for a shared value (Table 6-2) and for `cpl.mode`
(R401). -/
def idleAxes (id : Nat) : List Axis :=
  if id = 0x11B0 ∨ id = 0x21B0 then axes2 else if 0x1000 ≤ id ∧ id < 0x2000 then [.a] else if 0x2000 ≤ id ∧ id < 0x3000 then [.b] else axes2

/-- Check 5: the lowest `idle` entry whose axes are not disarmed. -/
def idleCheck (s : State) (ents : Store) : Option Nat :=
  (ents.find? fun e => effOf e.1 == .idle && (idleAxes e.1).any fun x => s.armed x).map (·.1)

/-- Whether a set of entries has a Peony side: some byte of the staged area changes. -/
def peonySide (s : State) (ents : Store) : List Nat :=
  memDiff 8000 (image s s.set) (image s (s.setWith ents))

/-- Whether a commit switches both dies: a byte of the staged area changes, or an entry is of the class `switch` or `idle`,
which takes effect at a switch tick (R180, R191, log 48). -/
def needsSwitch (s : State) (ents : Store) : Bool :=
  ents.any (fun e => effOf e.1 == .switch || effOf e.1 == .idle) || !(peonySide s ents).isEmpty

/-- Checks 5 and 6, and the one of SAFE with `link` recorded (R635): the code and the ID. -/
def commitCheck (s : State) (ents : Store) : Option (Nat × Option Nat) :=
  match idleCheck s ents with
  | some i => some (34, some i)
  | none => match ledgerCheck s ents with
    | some i => some (35, some i)
    | none => if s.safe.getLsbD 0 && needsSwitch s ents then some (30, none) else none

/-! ### The journal (R197, R200-R202) -/

/-- Whether a parameter is persisted (Table 6-1). `axX.env.valid` and `axX.env.slot` are read-only and volatile (R419): the commit of
R415 records neither, and what it sets stands beside the envelopes in FRAM (log 96). -/
def persisted (id : Nat) : Bool := match parById id with
  | some p => !p.vol && (p.write.isSome || id == 0x6410)
  | none => false

/-- The bytes that hold the value of a parameter. -/
def valueBytes (id : Nat) : Nat := match parById id with
  | some p => parSize p.kind
  | none => 1

/-- The entries of a commit record: ID, N and value, without volatile parameters (R197). -/
def recEntries (ents : Store) : List (Nat × Nat × Int) :=
  (ents.filter fun e => persisted e.1).map fun e => (e.1, valueBytes e.1, e.2)

/-- The entry area of a record: ID, N and the value bytes of each entry (Table 6-7). -/
def entryArea (es : List (Nat × Nat × Int)) : List Byte :=
  es.flatMap fun e => leBytes 2 e.1 ++ leBytes 1 e.2.1 ++ leBytes e.2.1 (ofSigned (8 * e.2.1) e.2.2)

/-- The CRC of a record, over GEN, COUNT, LEN and the entry area (Table 6-7). Every field stands with its least significant byte first
(DESIGN CHOICE, log 122). -/
def JRec.crcOf (r : JRec) : W32 := crc32 (leBytes 4 r.gen.toNat ++ leBytes 2 r.count ++ leBytes 2 r.len ++ entryArea r.ents)

/-- Whether the CRC of a record passes. -/
def JRec.ok (r : JRec) : Bool := r.crc == r.crcOf

/-- A record as its write leaves it: whole, or cut short so that its CRC fails. -/
def JRec.make (gen : W32) (es : List (Nat × Nat × Int)) (whole : Bool) : JRec :=
  let r : JRec := { tag := 0xC7, state := 0x11, gen := gen, count := es.length, len := (entryArea es).length, ents := es, crc := 0 }
  { r with crc := if whole then r.crcOf else ~~~r.crcOf }

/-- The bytes of the journal. The spec gives it room for 64 records and no length: it is taken to hold 64 records of 256 entries of 8
value bytes (DESIGN CHOICE, log 111). -/
def journalEnd : Nat := 64 * (14 + 256 * 11)

/-- The records that a read finds from a byte on: each starts where the LEN of the one before it ends; a position without TAG 0xC7, or a
LEN that carries its record past the end of the journal, ends it (R197, R200). Behind a LEN that is not that of its entries stands no
record. -/
def recsFrom : Nat → List JRec → List JRec
  | _, [] => []
  | at_, r :: rs =>
    let next := at_ + 14 + r.len
    if r.tag != 0xC7 || journalEnd < next then []
    else if r.len = (entryArea r.ents).length then r :: recsFrom next rs else [r]

/-- The records that a read of the journal finds, up to 64 (R197, R200). -/
def journalRecs (f : Fram) : List JRec := recsFrom 0 (f.journal.take 64)

/-- The CRC-32 of a base slot. The spec gives the slot no layout: the CRC covers the generation and one entry for every parameter
in the form of Table 6-7 (DESIGN CHOICE, log 47). -/
def slotCrc (gen : W32) (vals : Store) : W32 := crc32 (leBytes 4 gen.toNat ++ entryArea (recEntries vals))

/-- A base slot whose CRC passes (R200). -/
def validSlot (b : Option BaseSlot) : Option BaseSlot := b.filter fun b => b.crc == slotCrc b.gen b.vals

/-- The base slot that a boot would take: the valid one with the higher generation (R200). -/
def bestSlot (f : Fram) : Option BaseSlot :=
  match validSlot f.slot0, validSlot f.slot1 with
  | some a, some b => if a.gen.toNat ≤ b.gen.toNat then some b else some a
  | some a, none => some a
  | none, b => b

/-- The DONE records above a generation, ascending, up to the first whose CRC fails (R200). -/
def insertRec (r : JRec) : List JRec → List JRec
  | [] => [r]
  | q :: t => if r.gen.toNat < q.gen.toNat then r :: q :: t else q :: insertRec r t
def doneRecs (f : Fram) (above : Nat) : List JRec :=
  (((journalRecs f).filter fun r => r.state == 0x33 && above < r.gen.toNat).foldr insertRec []).takeWhile JRec.ok

/-- The parameters that a generation may hold (Table 17-9). -/
def genIds : List Nat := [0x0051, 0x0052, 0x1026, 0x1027, 0x1028, 0x1029, 0x102A, 0x102B, 0x1074, 0x1075, 0x1076,
  0x2026, 0x2027, 0x2028, 0x2029, 0x202A, 0x202B, 0x2074, 0x2075, 0x2076]

/-- The defaults that the generation in force replaces (R584). -/
def genDefaults (s : State) : Store := genIds.filterMap fun i =>
  if s.defaultOf i = parDefault i then none else some (i, s.defaultOf i)

/-- The set that a boot would load and its generation: the values that differ from the defaults of the table (R200, R201). -/
def loadSet (s : State) : Store × W32 :=
  let base : Store × W32 := match bestSlot s.fram with
    | some b => (b.vals.filter fun e => e.2 != parDefault e.1, b.gen)
    | none => (genDefaults s, 0)
  let rs := doneRecs s.fram base.2.toNat
  (rs.foldl (fun m r => r.ents.foldl (fun m e => storePut m e.1 e.2.2) m) base.1, rs.foldl (fun _ r => r.gen) base.2)

/-- The next generation: one above the highest among the base slots and the records (R202). -/
def nextGen (s : State) : W32 :=
  let g : List Nat := (s.fram.slot0.toList ++ s.fram.slot1.toList).map (fun b => b.gen.toNat) ++
    s.fram.journal.map (fun r => r.gen.toNat)
  BitVec.ofNat 32 (g.foldl max 0 + 1)

/-- Every persisted parameter, by ascending ID. -/
def persistedIds : List Nat := (allPars.map (·.id)).filter persisted

/-- A set as a base slot holds it: every persisted parameter with its value (R197). -/
def fullSet (now : Store) : Store := persistedIds.map fun i => (i, (storeGet now i).getD (parDefault i))

/-- The target of a base write: the slot that is not the best one; slot 0 when neither is valid (R202-R204). -/
def putSlot (b : Option BaseSlot) (f : Fram) : Fram := match validSlot f.slot0, validSlot f.slot1 with
  | some a, some c => if a.gen.toNat ≤ c.gen.toNat then { f with slot0 := b } else { f with slot1 := b }
  | some _, none => { f with slot1 := b }
  | none, _ => { f with slot0 := b }

/-- The last transaction of a base slot has been written: the older slot takes the values, and the journal is erased
(R202-R204). -/
def writeBase (vals : Store) (s : State) : State :=
  let g := nextGen s
  let s := s.modFram fun f => { putSlot (some { gen := g, vals := vals, crc := slotCrc g vals }) f with journal := [] }
  { s with prm := { s.prm with gen := g } }

/-- The record of a generation is marked; a DONE mark brings it into `stat.cfg.gen` (R200). -/
def markRecord (st : Byte) (gen : W32) (s : State) : State :=
  let s := s.modFram fun f => { f with journal := f.journal.map fun r =>
    if r.state == 0x11 && r.gen == gen then { r with state := st } else r }
  if st = 0x33 then { s with prm := { s.prm with gen := gen } } else s

/-- The bytes of a record (Table 6-7). -/
def recBytes (es : List (Nat × Nat × Int)) : Nat := 14 + (entryArea es).length

/-- Whether a base slot is being written. -/
def State.baseBusy (s : State) : Bool :=
  let base (r : FramReq) : Bool := match r.op with | .base _ _ => true | _ => false
  s.fram.queue.any base || s.fram.cur.any base

/-- The profiles whose fields a commit changes (R390). -/
def changedProfiles (ents : Store) : List (Axis × Nat) :=
  (axes2.flatMap fun x => (List.range 8).map fun p => (x, p)).filter fun q =>
    ents.any fun e => axId q.1 (0x100 + 16 * q.2) ≤ e.1 && e.1 < axId q.1 (0x100 + 16 * q.2) + 16

/-! ### CHECK and BUILD -/

/-- Starts a commit whose checks have passed: the window opens at the ms tick at or before this tick, and BUILD queues the
PENDING record and the compiled profiles at priority 3 (R190, R196, R198, R390). A commit of volatile entries only writes
no record (log 36). A raise of the tick rate above 32 kHz applies the bias (R505). The record takes its generation when it is
written. -/
def openCommit (by_ : CommitBy) (ents : Store) (s : State) : State :=
  let recs := recEntries ents
  let c : Commit :=
    { load := false, by_ := by_, ents := ents, phase := .build, blocks := [], made := 0, queue := [], opened := false,
      start := s.mtick, window := s.parN 0x0020, sw := none, swAck := false, setp0 := s.link.setp, recOk := recs.isEmpty,
      gen := 0, applied := none, err := 0, piece := s.etime }
  let s := { s with commit := some c }
  let s := s.modPwr fun p => { p with bias := p.bias || 32000 * setP (s.setWith ents) < 80000000 }
  let s := { s with host := { s.host with crossed := none } }
  let s := if recs.isEmpty then s else framAsk 3 .record (framParts (recBytes recs)) s
  forAll (changedProfiles ents) (fun q s => framAsk 3 (.profile q.1 q.2) 2 s) s

/-- Whether a wait is that of the running commit's line. -/
def commitWait (c : Commit) (w : Wait) : Bool := match c.by_, w with
  | .line _, .commit => true
  | .set _ _, .commit => true
  | .bundle _ _, .commit => true
  | .cal _ x, .calOffset y => x == y
  | .cal _ x, .calAlign y => x == y
  | .cal _ x, .calLearn y => x == y
  | _, _ => false

/-- Answers the line of a commit. -/
def commitReply (c : Commit) (t : Text) (s : State) : State :=
  forAll (waiters s (commitWait c)) (fun k s => answer k.1 t s) s

/-- The bias that the set in force needs (R505). -/
def syncBias (s : State) : State := s.modPwr fun p => { p with bias := 32000 * setP s.set < 80000000 }

/-- Whether a request belongs to the record or to the profile copies of the running commit. -/
def FramReq.ofCommit (r : FramReq) : Bool := r.op == .record || (match r.op with | .profile _ _ => true | _ => false)

/-- Whether some part of the record of a commit has been written or is being written, and the record is not complete. -/
def recBegun (s : State) (c : Commit) : Bool :=
  let parts := framParts (recBytes (recEntries c.ents))
  !c.recOk && (s.fram.cur.any (·.op == .record) || s.fram.queue.any fun r => r.op == .record && decide (r.left < parts))

/-- A record whose write has ended early stands PENDING with a failing CRC (R198, R200). -/
def leaveRecord (s : State) : State := match s.commit with
  | none => s
  | some c =>
    let g := nextGen s
    { s.modFram fun f => { f with journal := f.journal ++ [JRec.make g (recEntries c.ents) false] } with commit := some { c with gen := g, recOk := true } }

/-- ABORT (Table 6-4): Peony is told while staging stands open, a record of which some part stands in FRAM is marked VOID, the
staging set is kept, and the line is answered. A transaction in progress runs to its end without a user. -/
def abortCommit (code : Nat) (s : State) : State :=
  let s := if s.commit.any (recBegun s) then leaveRecord s else s
  match s.commit with
  | none => s
  | some c =>
    let s := if c.opened then s.modLink fun l => { l with abort := true } else s
    let s := s.modFram fun f =>
      { f with queue := f.queue.filter fun r => !r.ofCommit,
               cur := f.cur.map fun r => if r.ofCommit then { r with op := .hostRead, left := 1 } else r }
    let s := if c.recOk && !(recEntries c.ents).isEmpty then framAsk 3 (.mark 0x00 c.gen) 1 s else s
    let s := { s with commit := none }
    let s := syncBias (when_ (code = 31) (bump 0x7844) s)
    let s := match c.by_ with
      | .cal _ x => forAll (learnAxes s x) (fun y s => s.modMot y fun m => { m with learn := none }) s
      | _ => s
    commitReply c (errText code none) s

/-- Starts a commit. A journal that holds 64 records takes no further one, and the commit ends with `err 45` in BUILD (R202). -/
def startCommit (by_ : CommitBy) (ents : Store) (s : State) : State :=
  if 64 ≤ s.fram.journal.length && !(recEntries ents).isEmpty then
    let s := openCommit by_ ents s
    abortCommit 45 (s.modFram fun f => { f with queue := f.queue.filter fun r => !r.ofCommit,
                                                cur := f.cur.map fun r => if r.ofCommit then { r with op := .hostRead, left := 1 } else r })
  else openCommit by_ ents s

/-- The PENDING record stands in FRAM whole (R198). -/
def recordDone (s : State) : State := match s.commit with
  | none => s
  | some c =>
    if c.recOk then s
    else
      let g := nextGen s
      { s.modFram fun f => { f with journal := f.journal ++ [JRec.make g (recEntries c.ents) true] }
        with commit := some { c with recOk := true, gen := g } }

/-- A compiled copy of the running commit stands in FRAM (R390). -/
def profileDone (x : Axis) (p : Nat) (s : State) : State := match s.commit with
  | none => s
  | some c => writeCopy x p (compileProf (s.setWith c.ents) x p) s

/-- Whether everything that a commit writes before its switch stands in FRAM (R190, R198, R390). -/
def State.recReady (s : State) : Bool :=
  s.commit.any (fun c => c.recOk || c.load) && !(s.fram.queue.any (·.ofCommit)) && !(s.fram.cur.any (·.ofCommit))

/-! ### APPLY -/

/-- What a parameter change causes on Aster beside its value, at tick s. A speed window whose last tick ends at the reload of s closes
before a new one starts (R324, R345). -/
def applyAxis (x : Axis) (old : PSet) (ents : Store) (s : State) : State :=
  let has (o : Nat) : Bool := (storeGet ents (axId x o)).isSome
  let moved (o : Nat) : Bool := (storeGet ents (axId x o)).any (· != old (axId x o))
  let sc (v : Int) : Bool := v == (axIdx x + 1 : Nat)
  let scMoved := (storeGet ents 0x0050).any fun v => sc v != sc (old 0x0050)
  let frame := moved 0x0A0 || moved 0x0A1 || moved 0x0A3 || scMoved
  let s := when_ frame (posInvalid x) s
  let s := when_ frame (fun s => s.modPos x fun p => { p with phi := none }) s
  let srcMoved := scMoved || (moved 0x0A0 && !sc (old 0x0050))
  let w := (old (axId x 0x0A9)).toNat
  let s := when_ ((srcMoved || moved 0x0A9) && decide (w ≤ (s.pos.get x).winTicks)) (closeWindow w (setP old) x) s
  let s := when_ (srcMoved || moved 0x0A9) (newWindow x) s
  let s := when_ (frame || moved 0x020) (fun s => s.modLoop x fun l => { l with posPrev := none }) s
  let s := when_ (moved 0x0AC || moved 0x0AD || (storeGet ents (axId x 0x0AE)) == some 1) (armLatch x 0) s
  let s := when_ (moved 0x0AF || moved 0x0B0 || (storeGet ents (axId x 0x0B1)) == some 1) (armLatch x 1) s
  let s := when_ (has 0x0B2) (posLoadAxis x) s
  let env (p : Pair Bool) (b : Int) : Pair Bool := p.set x (b == 1)
  let s := when_ (moved 0x1A0 || moved 0x1A1) (fun s => s.modFram fun f => { f with envValid := f.envValid.set x false }) s
  let s := match storeGet ents (axId x 0x1A8) with
    | some b => s.modFram fun f => { f with envValid := env f.envValid b }
    | none => s
  match storeGet ents (axId x 0x1A9) with
  | some n => s.modFram fun f => { f with envSlot := f.envSlot.set x n.toNat }
  | none => s

/-- Words of a transmit buffer reach its back copy (R225, R531). -/
def txPut (k : Nat) (words : List (Nat × W32)) (s : State) : State :=
  if words.isEmpty then s
  else s.modBus fun b => { b with tx := b.tx.modify k fun t =>
    { t with back := words.foldl (fun l w => l.set w.1 w.2) t.back, fresh := true } }

/-- The transmit words that a commit holds reach their back copies when its line finishes (R225, R531, R551). -/
def txWrite (ents : Store) (s : State) : State :=
  forAll [0, 1, 2, 3] (fun k s => txPut k ((List.range 8).filterMap fun j =>
    (storeGet ents (0x5201 + 16 * k + j)).map fun v => (j, BitVec.ofInt 32 v)) s) s

/-- PIN is cleared in every pinned slot whose LSEQ is n or less (R650). -/
def pinsReleased (n : Nat) (s : State) : State :=
  let s := s.modFram fun f => { f with ring := f.ring.map fun r =>
    if r.2.e.lseq ≤ n then (r.1, { r.2 with e := { r.2.e with pin := false } }) else r }
  let pins := (s.fram.ring.filter fun r => r.2.e.pin && r.2.ok).length
  s.modLog fun l => { l with pinFull := l.pinFull && 256 ≤ pins }

/-- The release of pins asks the FRAM port for one write for each slot that it clears, before any fault entry (R95, R103, R650, R658;
its priority is a DESIGN CHOICE, log 127). -/
def pinRelease (n : Nat) (s : State) : State :=
  let k := (s.fram.ring.filter fun r => r.2.e.pin && r.2.e.lseq ≤ n).length
  if k = 0 then pinsReleased n s else framAsk 2 (.pins n) k s

/-- The entries of a commit enter the set in force, with their effects on Aster (R184, R194, R208). -/
def applyEntries (ents : Store) (s : State) : State :=
  let old : PSet := s.set
  let keep := ents.filter fun e => persisted e.1 || (parById e.1).isSome
  let s := { s with prm := { s.prm with now := storeOver s.prm.now keep } }
  let s := countCuts keep s
  let s := forAll axes2 (fun x s => applyAxis x old ents s) s
  let s := forAll (changedProfiles ents) (fun q s => useCopy q.1 q.2 s) s
  let s := match storeGet ents 0x6000 with
    | some v => stickySet (BitVec.ofInt 6 v) s
    | none => s
  let s := match storeGet ents 0x6801 with
    | some v => pinRelease v.toNat s
    | none => s
  let s := when_ (storeGet ents 0x4414 == some 1) chgRetry s
  let batt := [0x4400, 0x4401].any fun i => (storeGet ents i).any (· != old i)
  when_ batt chgChanged s

/-- The reply of a commit in force at tick t (R153, R191, R607). -/
def commitOk (c : Commit) (t : W32) : Text := match c.by_ with
  | .line _ => txt "ok commit @" ++ dec t.toNat
  | .set _ now => if now then txt "ok" else txt "ok commit @" ++ dec t.toNat
  | .bundle _ _ => txt "ok"
  | .cal _ _ => txt "ok"

/-- The end of a commit in force: the staging set empties, its transmit words reach their back copies, the counters, and the
reply (R186, R199, R214, R225, R607). The
result of `cal learn` writes LEARN_DONE, with the bins and the position (R415, Table 20-2). -/
def finishCommit (s : State) : State := match s.commit with
  | none => s
  | some c => match c.applied with
    | none => s
    | some t =>
      let s := txWrite c.ents (bump 0x7843 (syncBias { s with commit := none }))
      let s := match c.by_ with
        | .line x => s.modSes x fun se => { se with staging := [] }
        | .bundle _ _ => bump 0x78E1 { s with bundleTick := some t }
        | .cal _ x =>
          if (s.mot.get x).learn.isSome then
            forAll (learnAxes s x) (fun y s => s.modMot y fun m => { m with learn := none })
              (logAster 0x33 (axBit x) (min 65535 (envBins s x)) (posArg s x) s)
          else s
        | _ => s
      commitReply c (commitOk c t) s

/-- Asks for the DONE mark of a commit in force; one without a record is complete (R199). -/
def markDone (s : State) : State := match s.commit with
  | none => s
  | some c => if (recEntries c.ents).isEmpty then finishCommit s else framAsk 3 (.mark 0x33 c.gen) 1 s

/-- APPLY at tick t: Aster applies its side and marks the record DONE before the reply (Table 6-4, R199, R224). During a
host-core restart the selector alone acts (R231); the mark and the reply follow it (R233). -/
def applyCommit (t : W32) (s : State) : State := match s.commit with
  | none => s
  | some c =>
    if c.load then syncClk { s with commit := none, boot := if s.dev == .boot then .analog else s.boot }
    else
      let gen := if (recEntries c.ents).isEmpty then s.prm.gen else c.gen
      let s := logStamped t (s.boundary t) 0x21 0 c.ents.length gen.toNat
        { s with commit := some { c with phase := .applyWait, applied := some t } }
      let s := syncClk (applyEntries c.ents s)
      if s.host.restart.isSome then s else markDone s

/-- Everything is written for a commit without a Peony side: APPLY in the tick after this one (R190, R191). Without ticks the
commit is applied at once (log 37). -/
def buildReady (s : State) : State := match s.commit with
  | none => s
  | some c =>
    if s.host.restart.isNone && c.phase == .applyWait && s.recReady && c.applied.isNone && c.sw.isNone then
      if s.ticking then { s with commit := some { c with sw := some (s.tick + 1) } } else applyCommit (s.tick + 1) s
    else s

/-- COMMIT_BUILD_COMPLETE: the image of the running commit is complete: blocks are packed, one empty block when no byte of the
staged area changes (log 48), and STREAM begins; without a Peony side the commit waits for its record (Table 6-4). -/
def execCommitBuildComplete (_u : Unit) (s : State) : Out := .next (match s.commit with
  | none => s
  | some c =>
    if c.load || s.host.restart.isSome || c.phase != .build then s
    else if !needsSwitch s c.ents then buildReady { s with commit := some { c with phase := .applyWait } }
    else
      let ch := peonySide s c.ents
      let bs := if ch.isEmpty then [{ isRun := false, bytes := List.replicate 32 0 }]
        else packBlocks (image s (s.setWith c.ents)) 256 0 ch
      { s with commit := some { c with phase := .stream, blocks := bs } })

/-! ### STREAM and ARM -/

/-- The staging item of M-class work: blocks prepared with the time that the other items leave, 5 us each, while the send
queue of 24 has room (R100, R102). -/
def stageBlocks (us : Nat) (s : State) : State := match s.commit with
  | none => s
  | some c =>
    if c.phase != .stream || c.load then s
    else
      let n := min (us / 5) (min (24 - c.queue.length) (c.blocks.length - c.made))
      { s with commit := some { c with made := c.made + n, queue := c.queue ++ (List.range n).map (c.made + ·) } }

/-- A commit whose last block BACK covers is in ARM as soon as its record and its copies are written (R190). -/
def armReady (s : State) : State := match s.commit with
  | none => s
  | some c =>
    if c.phase == .stream && c.opened && c.queue.isEmpty && c.made == c.blocks.length && s.recReady then
      { s with commit := some { c with phase := .arm } }
    else s

/-- A UT has brought BACK: blocks it covers leave the queue (R102). -/
def commitBack (s : State) : State := match s.commit with
  | none => s
  | some c =>
    if c.phase != .stream || !c.opened || !s.link.bst.getLsbD 0 || !s.link.bst.getLsbD 1 then s
    else
      let b := s.link.back.toNat
      let gone := (c.queue.filter fun n => n ≤ b).length
      let s := s.modHost fun h => { h with crossed := h.crossed.map (· + gone) }
      armReady { s with commit := some { c with queue := c.queue.filter fun n => b < n } }

/-- Ticks from this one to the close of the window, rounded up: the named tick must lie before it (R193, R196). -/
def ticksLeft (s : State) (c : Commit) : Int :=
  let ms : Int := (c.window : Int) - ((s.mtick - c.start).toNat : Int)
  ((ms * 80000 - s.acc) + s.tickP - 1) / s.tickP

/-- The switch tick that a DOWN frame of this tick names, if it names one (R83, R193). A load has no window. -/
def nameSwitch (s : State) : Option W32 := match s.commit with
  | some c => if c.phase == .arm && c.sw.isNone && c.err == 0 && (c.load || 2 < ticksLeft s c) then some (s.tick + 2) else none
  | none => none

/-- SETP as a UC of this tick or a training reply reports it (R84, R93, R193). -/
def commitSetp (setp : Bool) (trained : Bool) (s : State) : State := match s.commit with
  | none => s
  | some c =>
    if c.phase != .arm then s
    else match c.sw with
      | none => if c.err != 0 && s.host.restart.isNone then abortCommit c.err s else s
      | some t =>
        if setp != c.setp0 then applyCommit t s
        else if trained || tickLe t s.tick then
          let s := releaseHold { s with commit := some { c with sw := none } }
          if c.err != 0 && s.host.restart.isNone then abortCommit c.err s else s
        else s

/-- The commit window has closed (R193, R196): in STREAM, and in ARM with no tick named, the commit ends with `err 31`; with
a tick named it waits for what Peony reports. -/
def execCommitWindowClose (s : State) : Out := .next (match s.commit with
  | none => s
  | some c =>
    if c.load || s.host.restart.isSome || (s.mtick - c.start).toNat < c.window then s
    else match c.phase with
      | .stream => abortCommit 31 s
      | .arm => if c.sw.isNone then abortCommit 31 s else { s with commit := some { c with err := if c.err = 0 then 31 else c.err } }
      | _ => s)

/-- The reload that begins the named tick of a commit without a Peony side (R191, R231). -/
def commitReload (s : State) : State := match s.commit with
  | some c =>
    if c.phase == .applyWait && c.applied.isNone && c.sw == some s.tick then applyCommit s.tick s else s
  | none => s

/-! ### `save`, `defaults` and the fold (R202-R204) -/

/-- The transactions of a base slot (R103, R197). -/
def baseParts : Nat := framParts (8 + (persistedIds.map fun i => 3 + valueBytes i).foldl (· + ·) 0)

/-- Asks for the write of a base slot. -/
def askBase (u : BaseUse) (vals : Store) (s : State) : State := framAsk 3 (.base u vals) baseParts s

/-- `save` (R203). -/
def cmdSave : Call → State → State := needs .installer fun k s =>
  if s.commit.isSome then fail k 41 s
  else if !s.fram.present then fail k 45 s
  else askBase .save (fullSet s.prm.now) (waitFor k (.base .save) s)

/-- SAVE. -/
def execSave (x : Sess) (s : State) : Out := direct x "save" cmdSave s

/-- `defaults`: a base slot of defaults, those of the generation in force among them, with `sec.bundle.seq` kept (R204, R584);
AUTH_REQUIRED refuses it (R608). -/
def cmdDefaults : Call → State → State := needs .installer fun k s =>
  if s.otp.wrow.getLsbD 10 then fail k 25 s
  else if s.commit.isSome then fail k 41 s
  else if !s.fram.present then fail k 45 s
  else askBase .defaults (fullSet (storePut (genDefaults s) 0x6410 (s.par 0x6410))) (waitFor k (.base .defaults) s)

/-- DEFAULTS. -/
def execDefaults (x : Sess) (s : State) : Out := direct x "defaults" cmdDefaults s

/-- The fold is due: 48 records or more, none of them PENDING, no commit runs (R202), and no base slot is being written. -/
def foldDue (s : State) : Bool :=
  48 ≤ s.fram.journal.length && s.commit.isNone && s.host.restart.isNone && s.fram.present && !s.baseBusy &&
  !(s.fram.journal.any fun r => r.state == 0x11)

/-- JOURNAL_FOLD: the system turn asks for the fold: the set that a boot would load goes into the older base slot (R202). -/
def execJournalFold (_u : Unit) (s : State) : Out :=
  .next (if foldDue s then askBase .fold (fullSet (loadSet s).1) s else s)

/-! ### The lines -/

/-- Table 6-3 for the staging set of a session, then CHECK passes (R189). A load of the complete Peony side counts as another commit
here, and for `save`, `defaults` and a `set` under `auto on` (DESIGN CHOICE, log 120). -/
def cmdCommit (k : Call) (s : State) : State :=
  let se := s.ses k.x
  let ents := se.staging
  let need (e : Nat × Int) : Bool := match parById e.1 with
    | some p => match p.write with
      | some l => !reaches se.level l
      | none => true
    | none => true
  if ents.isEmpty then fail k 38 s
  else if s.commit.isSome then fail k 41 s
  else match ents.find? need with
    | some e => failAt k 22 e.1 s
    | none => match ents.find? fun e => lockedFor s se.level e.1 with
      | some e => failAt k 23 e.1 s
      | none => match commitCheck s ents with
        | some (c, some i) => failAt k c i s
        | some (c, none) => fail k c s
        | none => startCommit (.line k.x) ents (waitFor k .commit s)

/-- COMMIT. -/
def execCommit (x : Sess) (s : State) : Out := direct x "commit" cmdCommit s

/-- A commit of one entry by `set` under `auto on` (R187): check 2, then 5 and 6. -/
def setCommit (k : Call) (p : Par) (v : Int) (s : State) : State :=
  if s.commit.isSome then fail k 41 s
  else match commitCheck s [(p.id, v)] with
    | some (c, some i) => failAt k c i s
    | some (c, none) => fail k c s
    | none => startCommit (.set k.x (p.eff == .now || p.eff == .reset)) [(p.id, v)] (waitFor k .commit s)

/-- A commit of the device's own results: `cal offset`, `cal align`, `cal learn` (R377, R379, R415, R609). -/
def calCommit (x : Sess) (ax : Axis) (ents : Store) (s : State) : State := startCommit (.cal x ax) ents s

/-! ### Bundles (R605-R607) -/

/-- The value of a bundle entry in the steps of its parameter. -/
def bundleValue (p : Par) (bs : List Byte) : Int :=
  let n := ofLe bs
  match p.kind with
  | .int b true => toSigned b n
  | .fix _ _ => toSigned 32 n
  | _ => n

/-- Whether a value of a bundle lies in the range of its parameter (R147). -/
def bundleRange (p : Par) (v : Int) : Bool := match p.kind with
  | .enum ws => v < ws.length
  | .bool => v ≤ 1
  | .mask n => v < 2 ^ n
  | _ => p.lo ≤ v && v ≤ p.hi

/-- A refused entry of a bundle: codes 20-23 are violations of SESS 5 (R610). -/
def bundleRefuse (k : Call) (l : Level) (code id : Nat) (s : State) : State :=
  let s := if 20 ≤ code ∧ code ≤ 23 then violate k 5 l code (some (false, id)) s else s
  answer k (errText code (some id)) s

/-- A value that the range admits and another rule refuses: `direct` under DIRECT_DIS (R262), `follow` for axis A (R401). -/
def valueCheck (s : State) (id : Nat) (v : Int) : Option Nat :=
  if (id = 0x1020 ∧ v = 5 ∧ s.otp.wrow.getLsbD 1) ∨ (id = 0x2020 ∧ v = 5 ∧ s.otp.wrow.getLsbD 2) then some 74
  else if id = 0x11B0 ∧ v = 1 then some 13
  else none

/-- Checks the entries of a bundle in order (R606): the commit's entries, or the first refusal. -/
def bundleStore (s : State) (l : Level) : List (Nat × Nat × List Byte) → Store → Except (Nat × Nat) Store
  | [], acc => .ok acc
  | (id, n, bs) :: r, acc => match parById id with
    | none => .error (20, id)
    | some p => match writeCheck s l true p false with
      | some c => .error (c, id)
      | none =>
        if p.eff == .tmux || p.eff == .line then .error (30, id)
        else if n != parSize p.kind then .error (17, id)
        else
          let v := bundleValue p bs
          if !bundleRange p v then .error (13, id)
          else match valueCheck s p.id v with
            | some c => .error (c, id)
            | none => bundleStore s l r (storePut acc id v)

/-- `bundle end`: verification by Table 18-4, then one commit of the entries (R605-R607). A number that has been used is `replay`
whatever the entries (R612). -/
def cmdBundleEnd (k : Call) (s : State) : State :=
  let store := (s.ses k.x).bundle
  let lv := nth (store.getD []) 2 0
  let s := s.modSes k.x fun se => { se with bundle := none }
  match store.bind readBundle with
  | none => bundleFail k .format lv.toNat s
  | some b => match bundleCheck s b with
    | some why => bundleFail k why (levelNum b.level) s
    | none =>
      if s.commit.isSome then fail k 41 s
      else if (b.seq : Int) ≤ s.par 0x6410 then bundleFail k .replay (levelNum b.level) s
      else match bundleStore s b.level b.entries [] with
        | .error (c, i) => bundleRefuse k b.level c i s
        | .ok ents => match commitCheck s ents with
          | some (c, some i) => failAt k c i s
          | some (c, none) => fail k c s
          | none => startCommit (.bundle k.x b.seq) (storePut ents 0x6410 b.seq) (waitFor k .commit s)

/-- BUNDLE_END. -/
def execBundleEnd (x : Sess) (s : State) : Out := direct x "bundle" cmdBundleEnd s

end Sys2Proof.Machine
end

