-- ==== Sys2Proof/Machine/Log.lean ====
section
/-! DEFINITION. The event log (chapter 20): entry writes into the ring and the pins, the header and the position after a
reset, the merge of Peony records (R67, R89, R223, R227), the hold and the placeholder, and the dumps. -/

namespace Sys2Proof.Machine

/-! ### The ring (R648-R652) -/

/-- The content of a slot. -/
def ringAt_ (f : Fram) (i : Nat) : Option RingSlot := (f.ring.find? fun r => r.1 == i).map (·.2)

/-- Whether a slot counts as pinned: one that fails its CRC does not (R659). -/
def ringPinned (f : Fram) (i : Nat) : Bool := (ringAt_ f i).any fun r => r.e.pin && r.ok

/-- `log.pin.count`. -/
def State.pinCount (s : State) : Nat := (s.fram.ring.filter fun r => r.2.e.pin && r.2.ok).length

/-- The first slot from a slot on that is not pinned; at most 256 are. -/
def headFrom (f : Fram) : Nat → Nat → Nat
  | 0, i => i
  | n + 1, i => if ringPinned f i then headFrom f n ((i + 1) % 8192) else i

/-- Whether `log.pin.sel` selects the kind of an entry (R649). -/
def pinSelected (s : State) (k : Nat) : Bool := isFaultKind k && (match s.parN 0x6800 with
  | 0 => true
  | 1 => k == 1 || k == 2
  | _ => false)

/-- Writes an entry at the head and advances the head (R648, R649); after every 64th entry the header follows (R652). -/
def ringWrite (e : LogEntry) (s : State) : State :=
  let h := s.log.head
  let valid := (ringAt_ s.fram h).any fun r => r.ok
  let want := pinSelected s e.kind
  let pin := want && decide (s.pinCount < 256)
  let s := s.modFram fun f => { f with ring := assocPut h { e := { e with pin := pin }, ok := true, old := false } f.ring }
  let s := s.modLog fun l => { l with head := headFrom s.fram 300 ((h + 1) % 8192), since := l.since + 1 }
  let s := if valid then
      let s := bump 0x6810 s
      if s.log.saidOver then s else notice 4 (txt "log overwrite") (s.modLog fun l => { l with saidOver := true })
    else s
  let s := if want && !pin then
      let s := s.modLog fun l => { l with pinFull := true }
      if s.log.saidPin then s else notice 4 (txt "log pin_full") (s.modLog fun l => { l with saidPin := true })
    else s
  if 64 ≤ s.log.since then framAsk 4 .header 1 (s.modLog fun l => { l with since := 0 }) else s

/-- The head entry of the queue has been written; the next one is requested (R116, R651). -/
def logWritten (s : State) : State := match s.log.queue with
  | [] => s
  | e :: r => syncLogReq (ringWrite e (s.modLog fun l => { l with queue := r }))

/-- The head entry is dropped after four failed writes (R228). -/
def logDropped (s : State) : State := match s.log.queue with
  | [] => s
  | _ :: r => syncLogReq (bump 0x7835 (s.modLog fun l => { l with queue := r }))

/-- Writes the older header copy (R652). Its next LSEQ is that of the entry which the head takes next, so that the scan of a boot
finds the entries written after it (DEDUCED, log 129). -/
def writeHeader (s : State) : State := s.modFram fun f =>
  let g (h : Option LogHeader) : Nat := match h with | some x => x.gen + 1 | none => 0
  let next := (s.log.queue.head?.map (·.lseq)).getD s.log.next
  let n : LogHeader := { gen := max (g f.hdr0) (g f.hdr1), head := s.log.head, lseq := next, dseq := BitVec.ofNat 32 s.log.dseq }
  if g f.hdr0 ≤ g f.hdr1 then { f with hdr0 := some n } else { f with hdr1 := some n }

/-- Reads the ring forward from a header, over at most 64 slots that are not pinned (R652): the head, the next LSEQ and the next Aster DSEQ. A pinned slot that holds
the expected entry counts; any other pinned slot is passed over (log 39). -/
def ringScan (f : Fram) : Nat → Nat → Nat → Nat → Nat → Nat × Nat × Nat
  | 0, _, h, n, d | _, 0, h, n, d => (h, n, d)
  | k + 1, left + 1, h, n, d => match ringAt_ f h with
    | none => (h, n, d)
    | some r =>
      if r.ok && !r.old && r.e.lseq == n then
        ringScan f k (if r.e.pin then left + 1 else left) ((h + 1) % 8192) (n + 1) (if r.e.flags.getLsbD 0 then d else max d (r.e.dseq.toNat + 1))
      else if r.ok && r.e.pin then ringScan f k (left + 1) ((h + 1) % 8192) n d
      else (h, n, d)

/-- The header copy with the higher generation. -/
def bestHeader (f : Fram) : Option LogHeader := match f.hdr0, f.hdr1 with
  | some a, some b => if a.gen < b.gen then some b else some a
  | some a, none => some a
  | none, b => b

/-- The log position of step B2; without a header the log restarts, and no slot counts as pinned (R652, R653). -/
def logPosition (s : State) : State :=
  if !s.fram.present then s.modLog fun l => { l with next := 1, dseq := 0, head := 0 }
  else match bestHeader s.fram with
    | some h =>
      let r := ringScan s.fram 400 64 h.head h.lseq h.dseq.toNat
      s.modLog fun l => { l with head := headFrom s.fram 300 r.1, next := r.2.1, dseq := r.2.2 }
    | none =>
      let s := s.modFram fun f => { f with ring := f.ring.map fun r => (r.1, { r.2 with old := true, e := { r.2.e with pin := false } }) }
      logAster 0x5F 0 0 0 (s.modLog fun l => { l with next := 1, dseq := 0, head := 0 })

/-- The entries that a dump can show, by ascending LSEQ. -/
def insertEntry (e : LogEntry) : List LogEntry → List LogEntry
  | [] => [e]
  | h :: t => if e.lseq < h.lseq then e :: h :: t else h :: insertEntry e t
def heldEntries (s : State) : List LogEntry :=
  ((s.fram.ring.filter fun r => r.2.ok && !r.2.old && decide (r.2.e.lseq < s.log.next)).map (·.2.e)).foldr insertEntry []

/-- `log.oldest` (R654, R662). -/
def State.logOldest (s : State) : Nat := (s.fram.ring.filter fun r => r.2.ok && !r.2.old).foldl (fun m r => min m r.2.e.lseq) (min s.log.next 0xFFFFFFFF)

/-! ### The merge of Peony records -/

/-- The extended die sequence number of a record (R67, R89): from the base b of the last rebase, wraps counted since. -/
def extDseq (s : State) (d : Byte) : Nat :=
  let b := s.log.base
  match s.log.merged with
  | some m =>
    if b ≤ m then
      let last := m - b
      let step := toSigned 8 ((d.toNat + 256 - last % 256) % 256)
      (b : Int) + max 0 ((last : Int) + step) |>.toNat
    else b + d.toNat
  | none => b + d.toNat

/-- The kind of a Peony code; none for a code that Table 20-2 does not hold. -/
def recKind (c : Byte) : Option Nat :=
  let n := c.toNat
  if n = 0xFF then some 0x1F else if (1 ≤ n ∧ n ≤ 6) ∨ (0x40 ≤ n ∧ n ≤ 0x42) then some n else none

/-- The axes of a mask: its legs, and both for the bus shunt (Table 3-5). -/
def maskAxes (m : Byte) : BitVec 2 :=
  let bus := m.getLsbD 6
  (if m.extractLsb' 0 3 != 0 || bus then 1 else 0) ||| (if m.extractLsb' 3 3 != 0 || bus then 2 else 0)

/-- How a record stands to an assertion that waited for it (R223): the placeholder that was entered for it, whether one was
tried, and the assertions that still wait. -/
def awaitTake (k : Nat) (t : W32) : List (W32 × W48 × Option Nat × Bool) → Option (Option Nat) × List (W32 × W48 × Option Nat × Bool)
  | [] => (none, [])
  | a :: r => if isFaultKind k && k != 0x1F && tickLe a.1 t then (some a.2.2.1, r) else
    let q := awaitTake k t r
    (q.1, a :: q.2)

/-- A fault of Peony on axes is known to Aster: Peony holds them (R302), and a class S *release* replaces one of class E that
still goes (Table 9-5). -/
def noteHeld (k : Nat) (axes : BitVec 2) (t : W32) (s : State) : State :=
  let at_ := s.boundary t
  let s := noteRelease (s.modLink fun l => { l with rests := l.rests ||| axes })
  if k = 1 ∨ k = 2 then
    forAll axes2 (fun x s => when_ (hasAxis axes x) (fun s => s.modLoop x fun l => { l with relAt := l.relAt.map fun _ => at_ }) s) s
  else s

/-- What a record does on Aster beside its entry: a fault is latched (R23), a supply event stops both axes (R245, R291),
BT_LOW counts its episodes (R260). -/
def recordEffect (k : Nat) (axes : BitVec 2) (mask : Byte) (t : W32) (s : State) : State :=
  if k = 0x40 then bumpBy 0x7860 ((List.range 6).filter mask.getLsbD).length s
  else if k = 0x41 then stopBoth 0 (bump 0x7861 s)
  else if k = 0x42 then stopBoth 0 (bump 0x7872 s)
  else if k = 0x1F then s
  else
    let info := if k = 4 then zoneOfMask mask else 0
    let same (f : AFault) : Bool := f.kind == k && f.die == .peony && f.axes == axes && f.info == info
    if s.faults.any same then s
    else stopBoth 0 (noteHeld k axes t (latchFault { kind := k, die := .peony, axes := axes, tick := t, info := info } s))

/-- A merged record goes into the hold, at its place in the merge order (R27, R123). -/
def logMerged (e : LogEntry) (s : State) : State := s.modLog fun l => { l with hold := holdPut (e, s.etime) l.hold }

/-- Merges a record of a UT (R67, R223, R227): its entry takes tick, DSEQ, axes, ARG0 and ARG1 by Table 20-2. It enters the
queue when the hold releases it, behind the Aster entries of earlier ticks (R27). -/
def mergeRecord (d code mask : Byte) (t : W32) (s : State) : State :=
  let x := extDseq s d
  if s.log.merged.any (x ≤ ·) then bump 0x782A s
  else match recKind code with
    | none => s.modLog fun l => { l with merged := some x }
    | some k =>
      let axes := if k = 0x1F then 0 else maskAxes mask
      let q := awaitTake k t s.log.await
      let place : Option Nat := match q.1 with
        | some (some n) => if n = 0 then none else some n
        | _ => none
      let tried := q.1.any (·.isSome)
      let late := tried || s.log.forced.any fun u => tickLe t u
      let flags : Byte := 1 ||| (if isFaultKind k then 2 else 0) ||| (if late then 4 else 0) |||
        (if s.pwr.disc then 8 else 0) ||| (if place.isSome then 16 else 0)
      let e : LogEntry :=
        { lseq := 0, tick := t, etime := s.boundary t, flags := flags, kind := k, dseq := BitVec.ofNat 32 x, axes := axes,
          mask := mask, arg0 := BitVec.ofNat 16 (if k = 4 then hottest s (zoneOfMask mask) else 0),
          arg1 := BitVec.ofNat 32 (match place with
            | some n => n
            | none => if 1 ≤ k ∧ k ≤ 6 then s.vmArg else 0), pin := false }
      let s := s.modLog fun l => { l with merged := some x, await := q.2 }
      let s := when_ late (bump 0x7854) (logMerged e (bumpKind k axes s))
      releaseHeld (recordEffect k axes mask t s)

/-! ### The hold and the placeholder -/

/-- The first entries of the hold leave it without their condition (R221, R223): a record of their last tick or an earlier one that
arrives later is late. -/
def forceOut (n : Nat) (s : State) : State :=
  let go := s.log.hold.take n
  let last := (go.getLast?.map fun e => e.1.tick).getD s.tick
  let f := match s.log.forced with
    | some u => if tickLe last u then u else last
    | none => last
  forAll go (fun e s => logEnter e.1 s) (s.modLog fun l => { l with hold := l.hold.drop n, forced := some f })

/-- An entry has waited 2 ms in the hold (R221): it enters, with those before it in merge order. -/
def execLogHoldTimeout (s : State) : Out :=
  let old := s.log.hold.reverse.dropWhile fun e => !s.due e.2 2000
  let go := old.reverse
  .next (if go.isEmpty || s.host.restart.isSome then s else forceOut go.length s)

/-- Changes the oldest waiting assertion that satisfies a test. -/
def awaitMod (p : W32 × W48 × Option Nat × Bool → Bool) (f : W32 × W48 × Option Nat × Bool → W32 × W48 × Option Nat × Bool) :
    List (W32 × W48 × Option Nat × Bool) → List (W32 × W48 × Option Nat × Bool)
  | [] => []
  | a :: r => if p a then f a :: r else a :: awaitMod p f r

/-- The record of an assertion by Peony has not arrived within 2 ms: the placeholder FLT_PEONY with the tick and time latched
under R23 (R223). An LSEQ of 0 stands for a placeholder that could not enter. The axes it names are a free value (log 40); Aster
counts both axes as held by Peony (log 93). It enters at its place in the merge order, with the held entries before it (R27, R242). -/
def execFltPeonyPlaceholder (s : State) : Out :=
  let due (a : W32 × W48 × Option Nat × Bool) : Bool := s.host.restart.isNone && a.2.2.1.isNone && s.due a.2.1 2000
  .next (match s.log.await.find? due with
    | none => s
    | some a =>
      let e : LogEntry :=
        { lseq := 0, tick := a.1, etime := a.2.1, flags := 2 ||| (if s.pwr.disc then 8 else 0), kind := 0x0F,
          dseq := BitVec.ofNat 32 s.log.dseq, axes := Config.placeAxes a.1, mask := 0, arg0 := 0, arg1 := 0, pin := false }
      let hold := holdPut (e, s.etime) s.log.hold
      let i := hold.findIdx fun h => h.1 == e
      let n := s.log.next + i
      let s := forceOut (i + 1) (bumpKind 0x0F e.axes (s.modLog fun l => { l with dseq := min 0xFFFFFFFF (l.dseq + 1), hold := hold }))
      let inQ := !s.fram.present || s.log.queue.any fun q => q.lseq == n && q.kind == 0x0F
      let s := s.modLink fun l => { l with rests := 3 }
      s.modLog fun l => { l with await := awaitMod due (fun a => (a.1, a.2.1, some (if inQ then n else 0), a.2.2.2)) l.await })

/-- The same 2 ms for the notice: `! fault ?` with the latched tick, and the replies it held (R161). -/
def execFaultRecordWaitExpiry (s : State) : Out :=
  let due (a : W32 × W48 × Option Nat × Bool) : Bool := s.host.restart.isNone && !a.2.2.2 && s.due a.2.1 2000
  .next (match s.log.await.find? due with
    | none => s
    | some a =>
      let s := faultNotice "fault" ['?'] (Config.placeAxes a.1) a.1 s
      releaseHeld (s.modLog fun l => { l with await := awaitMod due (fun a => (a.1, a.2.1, a.2.2.1, true)) l.await }))

/-! ### Dumps and the pin release -/

/-- The flag letters of an entry (R654). -/
def flagText (e : LogEntry) : Text :=
  let f (b : Bool) (c : Char) : Text := if b then [c] else []
  let t := f (e.flags.getLsbD 1) 'F' ++ f (e.flags.getLsbD 2) 'L' ++ f (e.flags.getLsbD 3) 'D' ++ f (e.flags.getLsbD 4) 'R' ++ f e.pin 'P'
  if t.isEmpty then ['-'] else t

/-- The data line of an entry (R654). -/
def entryLine (e : LogEntry) : Text :=
  dec e.lseq ++ txt " @" ++ dec e.tick.toNat ++ ' ' :: dec e.etime.toNat ++ txt "us " ++
    (if e.flags.getLsbD 0 then 'P' else 'A') :: dec e.dseq.toNat ++ ' ' :: kindText e.kind ++ ' ' :: axesText e.axes ++
    txt " 0x" ++ hex 4 e.arg0.toNat ++ txt " 0x" ++ hex 8 e.arg1.toNat ++ ' ' :: flagText e

/-- The entries that a dump shows (R654); without FRAM there is none (Table 19-4). -/
def dumpEntries (s : State) (seq count : Option Nat) : List LogEntry :=
  let es := if s.fram.present then (heldEntries s).dropWhile fun e => e.lseq < seq.getD 0 else []
  match count with
  | some n => es.take n
  | none => es

/-- `log dump` (R654): the entries are read from FRAM at priority 5, one transaction each (R104); a dump without an entry needs no
read. -/
def cmdLogDump (seq count : Option Nat) (k : Call) (s : State) : State :=
  let n := (dumpEntries s seq count).length
  if n = 0 then ok k s else framAsk 5 (.logRead k.x) n (waitFor k (.dump seq count) s)

/-- The reads of a dump have ended: its data lines follow. -/
def dumpRead (x : Sess) (s : State) : State := match runningCall s x with
  | some (k, .dump seq count) => emitData k ((dumpEntries s seq count).map entryLine) (txt "ok") s
  | _ => s

/-- LOG_DUMP. -/
def execLogDump (x : Sess) (seq count : Option Nat) (s : State) : Out := direct x "log" (cmdLogDump seq count) s

/-- The word of a session in the violation log (R220). -/
def sessText (n : Nat) : Text := txt (match n with
  | 0 => "H"
  | 1 => "T1"
  | 2 => "T2"
  | 3 => "T3"
  | 4 => "T4"
  | _ => "bundle")

/-- The data line of a violation (R220). -/
def violationLine (v : Violation) : Text :=
  dec v.vseq ++ txt " @" ++ dec v.tick.toNat ++ ' ' :: sessText v.sess ++ ' ' :: levelText v.level ++ ' ' :: dec v.code ++
    ' ' :: v.cmdw ++ ' ' :: (match v.addr with
      | some (false, i) => atId i
      | some (true, w) => txt "w0x" ++ hex 4 w
      | none => ['-'])

/-- `vlog dump` (R220). -/
def cmdVlogDump : Call → State → State := needs .installer fun k s =>
  emitData k (s.log.vlog.map violationLine) (txt "ok") s

/-- VLOG_DUMP. -/
def execVlogDump (x : Sess) (s : State) : Out := direct x "vlog" cmdVlogDump s

/-- LOG_PIN_RELEASE: the write of `log.pin.release` takes effect (R650). -/
def execLogPinRelease (n : W32) (s : State) : Out :=
  .next (pinRelease n.toNat { s with prm := { s.prm with now := storePut s.prm.now 0x6801 n.toNat } })

end Sys2Proof.Machine
end

