-- ==== Sys2Proof/Machine/AxisCmds.lean ====
section
/-! DEFINITION. The axis commands of Forul: `arm`, `disarm`, `move`, `stop` (chapters 11, 12), `diag` and `clear` with its
diagnosis, its window and its completion (chapter 09), and the starts of the calibrations (R377, R378, R412). -/

namespace Sys2Proof.Machine

/-- VM of the latest AUX results, in counts of 20 mV (Table 4-3). -/
def State.vmCount (s : State) : Nat := (nth s.link.aux 0 0).toNat

/-! ### Hand-over (R362) -/

/-- The lines that wait for a command of an axis that another one replaces before the loop engine has accepted it end with
`err 30 STATE` (log 42). A `stop` that `disarm` replaces goes on waiting, since the disarm ends its motion. -/
def dropHand (x : Axis) (s : State) : State := match (s.loop.get x).hand with
  | none => s
  | some c => endAxisWait x (fun d => d == c && c != .stop) (errText 30 none) (s.modLoop x fun l => { l with hand := none })

/-- Hands a command of an axis over; it governs over a group command that waits (R552). -/
def handOver (x : Axis) (c : AxCmd) (s : State) : State :=
  let s := ungroup x s
  let s := if (s.loop.get x).hand == some c then s else dropHand x s
  s.modLoop x fun l => { l with hand := some c }

/-- Hands a stop over that no line asks for. A `disarm` that waits for the loop engine stops its axis anyway, and stands (log 42). -/
def handStop (x : Axis) (s : State) : State :=
  if (s.loop.get x).hand == some .disarm then s else handOver x .stop s

/-- Whether another command of an axis waits for the loop engine: `arm` and `move` do not replace it, unless a group command has handed
it over (R552, log 42). -/
def handTaken (s : State) (x : Axis) (c : AxCmd) : Bool := match (s.loop.get x).hand with
  | some d => d != c && (s.loop.get x).grpHand.isNone
  | none => false

/-! ### `arm` (R363, R637) -/

/-- Whether the mode of an axis is on and has the position source it needs (Table 11-1). -/
def modeOk (s : State) (x : Axis) : Bool := match s.commMode x with
  | 0 => false
  | 3 => s.scSource x || s.axp x 0x0A0 == 1
  | _ => true

/-- Whether a commit with an `idle` entry naming an axis runs (Table 11-2). -/
def idleCommit (s : State) (x : Axis) : Bool := match s.commit with
  | some c => c.ents.any fun e => effOf e.1 == .idle && (idleAxes e.1).contains x
  | none => false

/-- The first check of `arm` that fails (Table 11-2, R637): the code and the ID. A fault that Peony has asserted counts as
latched before its record names it (R294), until a `clear` is accepted (R23). A set that does not fit the ledger keeps both axes
disarmed (R643; the code is the model's, log 107). -/
def armCheck (s : State) (x : Axis) : Option (Nat × Option Nat) :=
  if !modeOk s x then some (30, some (axId x 0x020))
  else if !s.bridgePermit || s.dev == .safe then some (72, none)
  else if s.faulty then some (33, none)
  else if s.vmCount < 400 then some (73, none)
  else if (s.telN 1).getD 0 < 1800 then some (30, none)
  else if idleCommit s x then some (41, none)
  else if !s.tempReady || s.commit.any (·.load) || !s.ticking || !fitsLedger s.set then some (30, none)
  else none

/-- `arm`. -/
def cmdArm (x : Axis) (k : Call) (s : State) : State :=
  if s.armed x then ok k s
  else match armCheck s x with
    | some (c, some i) => failAt k c i s
    | some (c, none) => fail k c s
    | none =>
      if handTaken s x .arm then fail k 41 s else handOver x .arm (waitFor k (.axis (.one x) .arm) s)

/-- ARM. -/
def execArm (x : Sess) (ax : Axis) (s : State) : Out := direct x "arm" (cmdArm ax) s

/-! ### `disarm`, `move`, `stop` -/

/-- `disarm` (R368): an axis that is disarmed or LATCHED needs no hand-over, unless an `arm` of it still waits. -/
def cmdDisarm (sel : AxisSel) (k : Call) (s : State) : State :=
  let xs := (selAxes sel).filter fun x => s.armed x || (match (s.loop.get x).hand with
    | some .arm | some .disarm => true
    | _ => false)
  if xs.isEmpty then ok k s
  else forAll xs (fun x s => handOver x .disarm s) (waitFor k (.axis sel .disarm) s)

/-- DISARM. -/
def execDisarm (x : Sess) (sel : AxisSel) (s : State) : Out := direct x "disarm" (cmdDisarm sel) s

/-- `move` (R400): the first records are asked for at the hand-over (R105). -/
def cmdMove (x : Axis) (p : Nat) (k : Call) (s : State) : State := match moveCheck s x p with
  | some (c, some i) => failAt k c i s
  | some (c, none) => fail k c s
  | none =>
    if handTaken s x (.move p) then fail k 41 s
    else askStart x (handOver x (.move p) (waitFor k (.axis (.one x) (.move p)) s))

/-- MOVE. -/
def execMove (x : Sess) (ax : Axis) (prof : Nat) (s : State) : Out := direct x "move" (cmdMove ax prof) s

/-- `stop` (R399); `stop` of either axis of a coupled pair stops both (R401). A `disarm` that waits for the loop engine stops
its axis anyway, and stands (log 42). -/
def cmdStop (sel : AxisSel) (k : Call) (s : State) : State :=
  let xs := if s.coupled then axes2 else selAxes sel
  let busy := xs.filter fun x => (s.loop.get x).hand != some .disarm && (s.moving x || (s.mot.get x).learn.isSome ||
    (match (s.loop.get x).hand with
      | some (.move _) => true
      | _ => false))
  if busy.isEmpty then ok k s
  else forAll busy (fun x s => handOver x .stop s) (waitFor k (.axis sel .stop) s)

/-- STOP. -/
def execStop (x : Sess) (sel : AxisSel) (s : State) : Out := direct x "stop" (cmdStop sel) s

/-! ### `diag` (R305, R306, R313) -/

/-- Requests a diagnosis; one that Aster has already started serves (R313). -/
def startDiag (x : Axis) (s : State) : State :=
  s.modLoop x fun l => if l.diagRun then l else { l with wantDiag := true }

/-- `diag` (Table 5-5). Without ticks no CONTROL field goes out, and the line is answered `err 30` (log 43). -/
def cmdDiag (x : Axis) : Call → State → State := needs .installer fun k s =>
  if s.armed x then fail k 34 s
  else if !s.ticking then fail k 30 s
  else startDiag x (waitFor k (.diag x) s)

/-- DIAG. -/
def execDiag (x : Sess) (ax : Axis) (s : State) : Out := direct x "diag" (cmdDiag ax) s

/-! ### `clear` (R301-R304) -/

/-- Whether the cause of a latched fault counts as present for an axis (Table 9-6, R328, R335, R369, R375, R408, R442, R456). A
class S fault has passed its diagnosis when its window is open. Hardware B5 of TS0 to TS5 is Peony's (DESIGN CHOICE, log 112). -/
def causePresent (s : State) (x : Axis) (f : AFault) : Bool := match f.kind with
  | 0x01 | 0x02 => s.vmCount < 400
  | 0x03 => 5 * vovEff s s.set - 100 ≤ (s.vmCount : Int)
  | 0x04 => (zoneSensors f.info).any s.inB5
  | 0x05 | 0x06 => s.link.goodRun < 256 || (f.info == 1 && !Config.fltHigh s.free)
  | 0x09 | 0x0A => (s.loop.get x).diagPass.isNone
  | 0x0B => (s.pos.get x).idxBad
  | 0x0C => s.sc.bad
  | 0x0E => (s.ts f.info).suspect && (s.ts f.info).hot
  | _ => false

/-- Whether a fault is one that a `clear` of axes acts on: one latched on them, or one that has no axis (log 44). -/
def inClear (m : BitVec 2) (f : AFault) : Bool := f.axes &&& m != 0 || f.axes == 0

/-- Whether an axis is in *release* as far as Aster can tell (R301, Table 9-7): one began on it, and neither its time has passed
nor have its phase currents been seen below `prot.release_i`. -/
def releasing (s : State) (x : Axis) : Bool := match (s.loop.get x).relAt with
  | some t => if s.classS x then 80 * s.since t < s.parN 0x4822 else s.since t < s.parN 0x4821
  | none => false

/-- Whether Peony has asserted FLT_L for a fault that no record and no placeholder has named yet (R23, R223). -/
def State.unnamed (s : State) : Bool := s.link.off && s.log.await.any fun a => a.2.2.1.isNone

/-- Whether a `clear` has something to clear on axes: a fault that it acts on, one that Peony has asserted and not yet named, or
the gate-off of R23 that stands although no fault is latched (log 44). -/
def clearable (s : State) (m : BitVec 2) : Bool :=
  s.faults.any (inClear m) || (s.link.off && (s.unnamed || s.faults.isEmpty))

/-- Whether a cause stands against a `clear` of one axis (R301). A fault that is not yet named has its axes in *release* for what
Aster knows (log 44). -/
def clearBlocked (s : State) (x : Axis) : Bool :=
  clearable s (axBit x) && (s.unnamed || releasing s x || (s.faults.filter (inClear (axBit x))).any (causePresent s x))

/-- Whether the clear window of an axis stands open on a session (R154, R303). -/
def windowOpen (s : State) (x : Sess) (ax : Axis) : Bool := match (s.ses x).clearWin.get ax with
  | some t => s.since t < 1000000
  | none => false

/-- The faults that stay latched after a clear of axes. -/
def faultsAfter (m : BitVec 2) (fs : List AFault) : List AFault := fs.filterMap fun f =>
  let a := f.axes &&& ~~~m
  if a = 0 then none else some { f with axes := a }

/-- The axes whose CLEAR goes out with a clear of axes: the others that Peony holds as well when no fault stays latched
(R302). -/
def clearMask (s : State) (m : BitVec 2) : BitVec 2 :=
  if (faultsAfter m s.faults).isEmpty then m ||| s.link.rests else m

/-- FLT_L and FLT_N follow the drivers and the faults (R25, R79). -/
def fltSync (s : State) : State :=
  let s := s.modLink fun l => { l with low := s.fltLine }
  { s with fltN := s.fltNow }

/-- The end of a clear of axes at tick t (R302, R375, R328): every fault leaves the axes with its notice and its CLEAR
entry, the axes are disarmed, and FLT_L is released for faults that no axis still holds. A fault that was latched after the CLEAR had
left stays, and holds its axes (log 110). -/
def clearAxes (m : BitVec 2) (t : W32) (s : State) : State :=
  let n := s.link.clearN.getD s.faults.length
  let late := s.faults.drop n
  let held (x : Axis) : Bool := late.any fun f => hasAxis f.axes x
  let gone := (s.faults.take n).filter (inClear m)
  let left := faultsAfter m (s.faults.take n) ++ late
  let s := s.modLink fun l => { l with clearN := none }
  let s := { s with faults := left, free := s.free + 1 }
  let s := forAll gone (fun f s => logAster 0x20 (f.axes &&& m) f.kind 0
    (faultNotice "cleared" (kindText f.kind) (f.axes &&& m) t s)) s
  let s := forAll axes2 (fun x s => if hasAxis m x && !held x then
      let s := s.modLoop x fun l =>
        { l with st := if l.st == .latched then .disarmed else l.st, failed := .none, openPh := none, word := .off, relAt := none }
      when_ (gone.any fun f => f.kind == 0x0B && hasAxis f.axes x)
        (fun s => s.modPos x fun p => { p with phi := none, idxRun := 0, idxErr := none, idxBad := false }) s
    else s) s
  let s := closeWindows m (s.modLink fun l => { l with rests := if late.isEmpty then l.rests &&& ~~~m else l.rests })
  let s := if left.isEmpty then
      let s := s.modLink fun l => { l with off := false, mark := none, flt := l.flt && s.dev == .safe, outside := false, rests := 0 }
      forAll axes2 (fun x s => s.modLoop x fun l =>
        { l with st := if l.st == .latched then .disarmed else l.st, word := .off, relAt := none }) s
    else s.modLink fun l => { l with flt := left.any fun f => f.die == .aster }
  fltSync s

/-- The reply of a `clear` whose CLEAR has gone out: `= armed` opens the window of every axis of the line that still has a
class S fault, which the diagnosis of this line has passed (R303, R304). -/
def clearReply (k : Call) (sel : AxisSel) (s : State) : State :=
  let xs := (selAxes sel).filter s.classS
  if xs.isEmpty then ok k s
  else
    let s := s.modSes k.x fun se =>
      { se with clearWin := xs.foldl (fun w x => w.set x (some s.etime)) se.clearWin }
    okValue k (txt "armed") s

/-- CLEAR for a set of axes has been acknowledged in the DOWN frame that serves the reload of tick t (R302): the lines that
wait for it are answered. -/
def clearSent (m : BitVec 2) (t : W32) (s : State) : State :=
  if m = 0 then s
  else
    let s := clearAxes m t (s.modLink fun l => { l with clear := l.clear &&& ~~~m })
    forAll (waiters s fun w => match w with
      | .clearSent sel => selMask sel &&& s.link.clear == 0
      | _ => false) (fun k s => match k.2 with
      | .clearSent sel => clearReply k.1 sel s
      | _ => s) s

/-- Lets a `clear` whose causes are gone act on the axes that it may clear now: those without a class S fault, and those
whose window stands open (R301-R304). In SAFE and without ticks no CLEAR is sent, and the faults end at once on Aster
(log 43). -/
def clearGo (k : Call) (sel : AxisSel) (s : State) : State :=
  let xs := (selAxes sel).filter fun x => !s.classS x || windowOpen s k.x x
  let m : BitVec 2 := xs.foldl (fun a x => a ||| axBit x) 0
  if !(clearable s m) || m = 0 then clearReply k sel s
  else if s.ticking && s.dev != .safe then
    let s := s.modLink fun l => { l with clear := l.clear ||| clearMask s m }
    waitFor k (.clearSent sel) s
  else clearReply k sel (clearAxes m (s.tick + 1) (s.modLink fun l => { l with clearN := none }))

/-- The checks of a `clear` and what follows from them (R154, R301-R304). A first `clear` of a class S fault asks for its
diagnosis; while no tick runs there is none, and the line is answered `err 36` (DESIGN CHOICE, log 43). -/
def clearStart (sel : AxisSel) (k : Call) (s : State) : State :=
  if !(clearable s (selMask sel)) then ok k s
  else if (selAxes sel).any (clearBlocked s) then fail k 36 s
  else
    let first := (selAxes sel).filter fun x => s.classS x && !windowOpen s k.x x
    if first.isEmpty then clearGo k sel s
    else if !s.ticking then fail k 36 s
    else forAll first startDiag (waitFor k (.clearDiag sel) s)

/-- `clear` of one axis or of both (R154, R301-R304). One that passes its checks is handed over, and goes on when the loop engine
has accepted it (R362); in SAFE and without ticks it goes on at once (log 43). -/
def cmdClear (sel : AxisSel) (k : Call) (s : State) : State :=
  if !(clearable s (selMask sel)) then ok k s
  else if (selAxes sel).any (clearBlocked s) then fail k 36 s
  else if !s.ticking || s.dev == .safe then clearStart sel k s
  else if (selAxes sel).any fun x => handTaken s x .clear then fail k 41 s
  else forAll (selAxes sel) (fun x s => handOver x .clear s) (waitFor k (.axis sel .clear) s)

/-- The lines of every `clear` that the loop engine has accepted on all its axes go on (R362). -/
def clearAccepted (s : State) : State :=
  forAll (waiters s fun w => match w with
    | .axis sel .clear => (selAxes sel).all fun x => (s.loop.get x).hand != some .clear
    | _ => false) (fun k s => match k.2 with
    | .axis sel .clear => clearStart sel k.1 s
    | _ => s) s

/-- CLEAR. -/
def execClear (x : Sess) (ax : Axis) (s : State) : Out := direct x "clear" (cmdClear (.one ax)) s

/-- CLEAR_ALL. -/
def execClearAll (x : Sess) (s : State) : Out := direct x "clear" (cmdClear .all) s

/-- A diagnosis of an axis has ended, and every axis that a first `clear` waits for has its result: `err 36` when one does
not pass or a cause stands, else the clear goes on (R303, R304). -/
def clearDiagDone (s : State) : State :=
  forAll (waiters s fun w => match w with | .clearDiag _ => true | _ => false) (fun k s => match k.2 with
    | .clearDiag sel =>
      let xs := (selAxes sel).filter fun x => s.classS x && !windowOpen s k.1.x x
      if xs.any fun x => (s.loop.get x).wantDiag || (s.loop.get x).diagRun then s
      else if (xs.any fun x => (s.loop.get x).diagWord != 0x8000) || (selAxes sel).any (clearBlocked s) then fail k.1 36 s
      else clearGo k.1 sel s
    | _ => s) s

/-- The result word of a diagnosis that Aster started has arrived (R306, R375): `diag` is answered with it, and the first
`clear` of a class S fault goes on. -/
def diagArrived (x : Axis) (w : W16) (s : State) : State :=
  let s := s.modLoop x fun l =>
    { l with diagWord := w, diagRun := false, diagPass := if w = 0x8000 then some s.etime else l.diagPass }
  let s := forAll (waiters s (· == .diag x)) (fun k s => okValue k.1 (txt "0x" ++ hex 4 w.toNat) s) s
  clearDiagDone s

/-! ### The starts of the calibrations -/

/-- `cal offset` (R377): the gates of the axis are off when its word drives none and no *release* is known to go on. A second one
of the axis is answered `err 41`. -/
def cmdCalOffset (x : Axis) : Call → State → State := needs .installer fun k s =>
  let on := [1, 3, 7].contains (s.loop.get x).word.cmd.toNat || (s.loop.get x).relAt.isSome
  if !s.disarmed x || on || !stillNow s x || !s.ticking then fail k 37 s
  else if (s.loop.get x).cal.isSome then fail k 41 s
  else waitFor k (.calOffset x) ((s.modPos x fun p => { p with fast := false }).modLoop x fun l => { l with cal := some (.offset 0 (.all 0) []) })

/-- CAL_OFFSET. -/
def execCalOffset (x : Sess) (ax : Axis) (s : State) : Out := direct x "cal" (cmdCalOffset ax) s

/-- `cal align` (R378). -/
def cmdCalAlign (x : Axis) : Call → State → State := needs .installer fun k s =>
  let mode := s.commMode x
  if mode = 0 ∨ 3 < mode then fail k 30 s
  else if (s.loop.get x).st == .latched then fail k 33 s
  else if !s.ready x then fail k 32 s
  else if s.moving x || (s.loop.get x).cal.isSome || (s.mot.get x).learn.isSome || (s.loop.get x).hand.isSome then fail k 37 s
  else waitFor k (.calAlign x) (s.modLoop x fun l => { l with cal := some (.align 1 s.etime 0 0 0 [] []) })

/-- CAL_ALIGN. -/
def execCalAlign (x : Sess) (ax : Axis) (s : State) : Out := direct x "cal" (cmdCalAlign ax) s

/-- Whether the position of an axis lies within `end_zone` of the TARGET of a `move` profile. -/
def atTarget (s : State) (x : Axis) (p : Nat) : Bool :=
  (dist32 (s.pos.get x).pos.toInt (profField s.set x p 1)).natAbs ≤ (profField s.set x p 7).natAbs

/-- Whether an axis may be learned (R412). -/
def learnOk (s : State) (x : Axis) : Bool :=
  let a := s.axn x 0x1A3
  let b := s.axn x 0x1A4
  s.ready x && !s.moving x && (s.loop.get x).cal.isNone && (s.loop.get x).hand.isNone && (s.mot.get x).learn.isNone &&
  (s.pos.get x).valid && profField s.set x a 0 == 1 && profField s.set x b 0 == 1 && (atTarget s x a || atTarget s x b)

/-- `cal learn` (R412, R413): the first pass runs to the far end. -/
def cmdCalLearn (x : Axis) : Call → State → State := needs .installer fun k s =>
  if s.coupled && x == .b then fail k 30 s
  else if !((learnAxes s x).all (learnOk s)) then fail k 37 s
  else
    let a := s.axn x 0x1A3
    let far := if atTarget s x a then s.axn x 0x1A4 else a
    let g : Learn := { pair := s.coupled, next := far, run := false, dirPos := true, bad := 0, donePos := 0, doneNeg := 0,
                       recPos := [], recNeg := [], cur := [], asked := false }
    forAll (learnAxes s x) (fun y s => s.modMot y fun m => { m with learn := some g }) (waitFor k (.calLearn x) s)

/-- CAL_LEARN. -/
def execCalLearn (x : Sess) (ax : Axis) (s : State) : Out := direct x "cal" (cmdCalLearn ax) s

end Sys2Proof.Machine
end

