-- ==== Sys2Proof/Machine/Rx.lean ====
section
/-! DEFINITION. Reception on the Forul sessions (chapter 05): typed-mode editing and echo (Table 5-1), machine-mode framing
(R136-R139), the receive buffer (R164, R165), the partial-line timeout (R142), the break (R166), and the closing of a tunnel
session (R171, R235). -/

namespace Sys2Proof.Machine

/-! ### Framing -/

/-- A decimal number without a leading zero, up to a bound (R136). -/
def plainNum (top : Nat) (t : Text) : Option Nat :=
  if t.isEmpty || !t.all Char.isDigit || (t.length != 1 && t.head? == some '0') || 10 < t.length then none
  else
    let n := t.foldl (fun n c => 10 * n + (c.toNat - 48)) 0
    if n ≤ top then some n else none

/-- The seq of a machine line, from the text after `#` (R136). -/
def readSeq (t : Text) : Option Nat := plainNum 65535 (t.takeWhile fun c => c != ' ' && c != '*')

/-- The frame of a machine line whose seq has been read, or not (R138). -/
def seqFrame (n : Option Nat) (crc : Option W16) : Frame := match n with
  | some n => .seq n crc
  | none => .noSeq

/-- A machine line as received (R136-R139): its framing, its body, and the error that reception found. The CRC is judged
before the bytes of the line (R132, R137); a body that no space parts from the seq does not parse (R174). -/
def machineLine (bad : Bool) (t : Text) : Frame × Text × Option Nat :=
  let t := trim t
  match t with
  | '#' :: r =>
    let tail := t.drop (t.length - 5)
    let head := t.take (t.length - 5)
    let digits := (tail.drop 1).map hexVal
    let crc := digits.foldl (fun n d => 16 * n + d.getD 0) 0
    let whole := 6 ≤ t.length && tail.head? == some '*' && digits.all (·.isSome)
    let f := seqFrame (readSeq r) (if whole then some (BitVec.ofNat 16 crc) else none)
    let rest := (head.drop 1).dropWhile Char.isDigit
    if !whole || (crc16 (textBytes head)).toNat != crc then (f, [], some 12)
    else if bad || (readSeq r).isNone then (f, [], some 10)
    else match rest with
      | [] => (f, [], none)
      | ' ' :: body => (f, body, none)
      | _ => (f, [], some 10)
  | _ => (.noSeq, [], some 10)

/-! ### Output of the line editor -/

/-- Echoes characters on a session (R133). -/
def echoOut (x : Sess) (t : Text) (s : State) : State :=
  s.modSes x fun se => { se with out := se.out ++ [{ notice := false, chars := t, rate := none }] }

/-- Backspace, space, backspace. -/
def rubOut : Text := [Char.ofNat 8, ' ', Char.ofNat 8]

/-- Whether the characters of a session echo: typed mode, echo on, and no machine line, as the transcript of R142 shows it (R133,
R137). -/
def Session.echoes (se : Session) : Bool := !se.machine && se.echo && !startsWith (trim se.part) ['#']

/-! ### Characters -/

/-- Forgets the partial line. -/
def Session.clearPart (se : Session) : Session := { se with part := [], skip := none, badByte := false, esc := 0 }

/-- Stores a character of the partial line: a 161st one makes the line `err 11`, one that finds the receive buffer full
`err 15` (R129, R134, R165). -/
def storeChar (x : Sess) (c : Char) (s : State) : State :=
  let se := s.ses x
  if se.skip.isSome then s
  else if 160 ≤ se.part.length then
    when_ (!se.machine) (echoOut x [Char.ofNat 7]) (s.modSes x fun se => { se with skip := some 11 })
  else if se.rxFree = 0 then bump 0x783B (s.modSes x fun se => { se with skip := some 15 })
  else
    let s := s.modSes x fun se => { se with part := se.part ++ [c] }
    when_ (s.ses x).echoes (echoOut x [c]) s

/-- A terminator (R128): the line joins those that wait to start. A line that holds only spaces gets no reply in typed mode
(R134), an empty one is ignored in machine mode (R139). -/
def endLine (x : Sess) (s : State) : State :=
  let se := s.ses x
  let machine := se.machine || startsWith (trim se.part) ['#']
  let s := when_ se.echoes (echoOut x crlf) (s.modSes x Session.clearPart)
  if se.skip.isNone && (if machine then se.part.isEmpty else (trim se.part).isEmpty) then when_ (!machine) (lineHeard x) s
  else
    let r : Frame × Text × Option Nat := if machine then machineLine se.badByte se.part else (.plain, se.part, none)
    let e := match se.skip with
      | some c => some c
      | none => r.2.2
    let f := match se.skip with
      | some _ => if machine then (match trim se.part with | '#' :: t => seqFrame (readSeq t) none | _ => .noSeq) else .plain
      | none => r.1
    let l : RxLine := { len := se.part.length, body := r.2.1, frame := f, err := e, tick := s.tick, at_ := s.etime,
                        enter := x == .h && !se.machine && machine && e != some 12 && se.skip.isNone,
                        cut := false }
    when_ (e == some 12) (bump 0x783A) (s.modSes x fun se => { se with waiting := se.waiting ++ [l], lineAt := s.etime })

/-- A character in typed mode (Table 5-1). -/
def typedChar (x : Sess) (b : Nat) (s : State) : State :=
  let se := s.ses x
  let c := Char.ofNat b
  if se.esc = 1 && b = 0x5B then s.modSes x fun se => { se with esc := 2 }
  else if se.esc = 2 && 0x20 ≤ b && b ≤ 0x7E then
    if 0x40 ≤ b then s.modSes x fun se => { se with esc := 0 } else s
  else
    let s := s.modSes x fun se => { se with esc := 0 }
    if b = 0x08 ∨ b = 0x7F then
      if se.part.isEmpty || se.skip.isSome then s
      else when_ se.echoes (echoOut x rubOut) (s.modSes x fun se => { se with part := se.part.dropLast })
    else if b = 0x15 ∨ b = 0x03 then
      let s := when_ (b = 0x03 && se.running.isSome) (fun s => s.modSes x fun se => { se with cancel := true }) s
      if se.skip.isSome then s else when_ se.echoes (echoOut x crlf) (s.modSes x Session.clearPart)
    else if b = 0x09 then storeChar x ' ' s
    else if b = 0x1B then s.modSes x fun se => { se with esc := 1 }
    else if 0x20 ≤ b ∧ b ≤ 0x7E then storeChar x c s
    else s

/-- A character in machine mode: every byte counts, and one outside 0x20-0x7E makes the line `err 10` (R137). -/
def rawChar (x : Sess) (b : Nat) (s : State) : State :=
  storeChar x (Char.ofNat b)
    (when_ (b < 0x20 || 0x7F ≤ b) (fun s => s.modSes x fun se => { se with badByte := true }) s)

/-- A character that a session accepts (R128): the mode of the session decides, whatever the line begins with (R133, R137). -/
def takeChar (x : Sess) (b : Byte) (s : State) : State :=
  let se := s.ses x
  let n := b.toNat
  let s := s.modSes x fun se => { se with charAt := s.etime, lastCr := n = 13 }
  if n = 10 && se.lastCr then s
  else if n = 10 || n = 13 then endLine x s
  else if se.machine then rawChar x n s
  else typedChar x n s

/-- Whether reception runs on session H: from B3 on, not during a restart, and not from E0 of a sleep entry on (R232, R482,
R627). -/
def State.receives (s : State) : Bool :=
  (s.dev == .boot || s.dev == .safe || s.dev == .run) && !s.host.deaf && s.host.restart.isNone && s.pwr.step == .awake

/-- RX_CHARACTER: characters that arrive before B3 are discarded without a count, those during a restart and from E0 on are
counted (R232, R482, R627). -/
def execRxCharacter (x : Sess) (c : Byte) (s : State) : Out :=
  .next (if s.receives then (if (s.ses x).isOpen then syncRts (takeChar x c s) else s)
    else if x == .h && !s.host.deaf && s.dev != .off && (s.host.restart.isSome || s.pwr.step != .awake) then bump 0x7855 s
    else s)

/-- A line that comes to a tunnel session as a whole: its characters and a terminator (R548). -/
def takeLine (x : Sess) (bs : List Byte) (s : State) : State :=
  takeChar x 0x0D (forAll bs (takeChar x) s)

/-- PARTIAL_LINE_TIMEOUT (R142). -/
def execPartialLineTimeout (s : State) : Out :=
  let se := s.ses .h
  .next (if !se.machine || (se.part.isEmpty && se.skip.isNone) then s
    else timeUp se.charAt (s.parN 0x5805 * 1000)
      (fun s => syncRts (bump 0x783D (s.modSes .h Session.clearPart))) s)

/-- BREAK (R166): session H returns to typed mode, with echo as `host.h.echo` sets it. -/
def execBrk (s : State) : Out :=
  .next (if s.receives then
      syncRts (s.modSes .h fun se => { se.clearPart with machine := false, echo := s.par 0x5803 == 1, lastCr := false })
    else s)

/-! ### Closing a tunnel session (R171, R235) -/

/-- The reads of a log dump that no line waits for any more (R171): those not yet served go, and the one in progress ends without a
user. -/
def dropReads (x : Sess) (s : State) : State := s.modFram fun f =>
  { f with queue := f.queue.filter fun r => r.op != .logRead x,
           cur := f.cur.map fun r => if r.op == .logRead x then { r with op := .hostRead, left := 1 } else r }

/-- A tunnel session closes: its lines that have not started, its staging set, its stored reply and its level go. A line that
waits for a lock leaves the queue (R124); a line that runs completes, and its reply is discarded. One whose turn has ended before
its work is done does it under the level and with the sets that it started with, and these go after it. The last values of the
session's status stay until another session opens in its place (R733; those of level, staging set and buffers as the close leaves
them: DESIGN CHOICE, log 130). -/
def closeSession (x : Sess) (s : State) : State :=
  let keep := (s.ses x).running.filter fun r => match r.wait with
    | .param _ | .chunk _ _ | .dump _ _ => false
    | _ => true
  let late := keep.any fun r => match r.wait with | .turn => true | _ => false
  let s := (dropReads x s).modHost fun h => { h with waiters := h.waiters.filter fun w => w.1 != x }
  s.modSes x fun se =>
    let base := if late then
        { Session.closed with level := se.level, staging := se.staging, chal := se.chal, bundle := se.bundle, clearWin := se.clearWin,
                              latSnap := se.latSnap, rxSnap := se.rxSnap, recSnap := se.recSnap }
      else Session.closed
    { base with running := keep, machine := se.machine, echo := se.echo, auto := se.auto, subs := se.subs,
                lines := se.lines, errs := se.errs, lastSeq := se.lastSeq }

/-- Whether a tunnel session may be opened: it is closed and no line of it still runs (R548). -/
def Session.isFree (se : Session) : Bool := !se.isOpen && se.running.isNone

/-- Opens a tunnel session for a node (R548, R627). -/
def openSession (x : Sess) (node : Nat) (s : State) : State :=
  s.modSes x fun _ => { Session.closed with isOpen := true, peer := some node, lineAt := s.etime }

end Sys2Proof.Machine
end

