-- ==== Sys2Proof/Machine/Bus.lean ====
section
/-! DEFINITION. The Umbigan bus (chapter 16): the schedule hash, node states, cycles and slots, buffers and ages, the action
instant, group commands, tick alignment, and the tunnels with `at`. Instants of the bus arrive as commands: `off` of a frame is
the time of its first start bit less its placed time in clocks, `interval` the clocks between two references. -/

namespace Sys2Proof.Machine

/-! ### Parameters and schedule in use by the engine -/

/-- The bus parameters that the engine uses (R525, R746). -/
def State.busSet (s : State) : PSet := fun id => (storeGet s.bus.cfg id).getD (parDefault id)

/-- The engine takes the bus parameters of the set in force (R525, R746). -/
def takeBusSet (s : State) : State :=
  s.modBus fun b => { b with cfg := s.prm.now.filter fun e => 0x5000 ≤ e.1 && e.1 < 0x5400 }

/-- The schedule hash (R524). -/
def schedHash (v : PSet) : W32 :=
  crc32 (leBytes 1 (busBit v) ++ leBytes 4 (v 0x5002).toNat ++ leBytes 4 (v 0x5003).toNat ++ leBytes 2 (v 0x5004).toNat ++
    (List.range 64).flatMap fun n => leBytes 4 (schedWord v n))

/-- Whether the engine runs: after B10, and during a sleep entry until the bus is left (R627, Table 15-3). -/
def State.busLive (s : State) : Bool := s.dev == .run || s.dev == .safe || s.pwr.step == .drain

/-- Whether the node takes part in cycles (R527). -/
def State.busSync (s : State) : Bool := s.bus.st == .master || s.bus.st == .sync

/-- `! bus <event> @<cycle>`. -/
def busNotice (e : String) (s : State) : State := notice 3 (txt "bus " ++ txt e ++ txt " @" ++ dec s.bus.cycle.toNat) s

/-- R542: the node has left MASTER or SYNC; with `bus.loss_act` `stop` the motions of group commands stop. -/
def busLoss (s : State) : State :=
  if s.busSet 0x500D == 1 then s
  else forAll axes2 (fun x s => if (s.mot.get x).grp && s.moving x then handStop x s else s) s

/-- Changes the node state. -/
def busGo (st : BusState) (s : State) : State :=
  let left := s.busSync
  let s := s.modBus fun b => { b with st := st }
  when_ (left && !s.busSync) busLoss s

/-- The bus has stopped for this node: its tunnel sessions close (R235). -/
def busStops (s : State) : State :=
  let s := forAll [Sess.t1, .t2, .t3, .t4] (fun x s => if (s.ses x).isOpen then closeSession x s else s) s
  s.modBus fun b => { b with tun := b.tun.map fun t => if t.sess.isSome then { t with sess := none, queue := [], acc := [] } else t }

/-- A cycle has ended: the nodes heard in it (R543). -/
def cycleEnd (s : State) : State := s.modBus fun b => { b with heard := if b.cycled then some b.hearing else b.heard, hearing := 0 }

/-! ### Buffers -/

/-- The 32 bytes of a buffer (R531). -/
def bufBytes (ws : List W32) : List Byte := ws.flatMap fun w => leBytes 4 w.toNat

/-- The words of 32 bytes. -/
def bufWords (bs : List Byte) : List W32 := (List.range 8).map fun j => BitVec.ofNat 32 (ofLe ((bs.drop (4 * j)).take 4))

/-- A payload laid over the words of a receive buffer. -/
def overWords (ws : List W32) (p : List Byte) : List W32 := let p := p.take 32; bufWords (p ++ (bufBytes ws).drop p.length)

/-- Reports a receive buffer whose age first reaches `bus.age_lim` (R533). -/
def staleCheck (s : State) : State :=
  let lim := s.busSet 0x5007
  let news := s.bus.rx.filter fun r => !r.stale && lim ≤ (r.age : Int)
  let s := s.modBus fun b => { b with rx := b.rx.map fun r => { r with stale := lim ≤ (r.age : Int) } }
  forAll news (fun _ s => busNotice "stale" s) s

/-- Payload and AGE of a slot reach the receive buffers that name it (R533). A frame of another node counts. -/
def rxStore (slot : Nat) (age : Nat) (p : List Byte) (own : Bool) (s : State) : State :=
  let v := s.busSet
  let put (e : RxBuf × Nat) : RxBuf :=
    let c := if own then e.1.cnt else min 65535 (e.1.cnt + 1)
    if v (0x5300 + 16 * e.2) == (slot : Int) then
      { e.1 with words := overWords e.1.words p, age := age, cnt := c, got := true, made := true }
    else e.1
  staleCheck (s.modBus fun b => { b with rx := b.rx.zipIdx.map put })

/-- A cycle with number n starts: new parameter values, ages of buffers without a frame, and the nodes heard (R525, R533, R543,
R544). -/
def cycleBegin (n : W16) (s : State) : State :=
  let v := s.busSet
  let older (e : RxBuf × Nat) : RxBuf :=
    if e.1.got || 64 ≤ v (0x5300 + 16 * e.2) then { e.1 with got := false } else { e.1 with age := min 255 (e.1.age + 1) }
  let s := (cycleEnd s).modBus fun b => { b with cycle := n, cycled := true, rx := b.rx.zipIdx.map older }
  staleCheck (takeBusSet s)

/-- TX_BUFFER_WRITE: a commit writes the back copy of a transmit buffer (R225, R531). -/
def execTxBufferWrite (k : Fin 4) (words : List (Fin 8 × W32)) (s : State) : Out :=
  .next (txPut k.val (words.map fun w => (w.1.val, w.2)) s)

/-- RX_BUFFER_SNAPSHOT (R534). -/
def rxSnapshot (x : Sess) (k : Nat) (s : State) : State := match s.bus.rx[k]? with
  | some r => s.modSes x fun se => { se with rxSnap := (se.rxSnap.filter fun p => p.1 != k) ++ [(k, r.view)] }
  | none => s

/-- RX_BUFFER_SNAPSHOT. -/
def execRxBufferSnapshot (x : Sess) (k : Fin 8) (s : State) : Out :=
  .next (if (s.ses x).isOpen then rxSnapshot x k.val s else s)

/-! ### Group commands (R539-R542, R552) -/

/-- The axes that GCMD names (Table 16-5). -/
def grpAxes (g : Byte) : BitVec 2 := g.extractLsb' 3 2
/-- The operation of GCMD: 1 `move`, 2 `stop`. -/
def grpOp (g : Byte) : Nat := g.toNat / 32

/-- Action instants that follow the scheduled end of a slot's frame by less than 100 us (R541). -/
def grpSkip (v : PSet) (slot : Nat) : Nat :=
  let w := schedWord v slot
  let fin := 80 * slotStart w + (7 + slotLen w) * 10 * busBit v
  let act := 80 * (v 0x5003).toNat
  let next := if fin < act then act else act + 80 * (v 0x5002).toNat
  if fin + 8000 ≤ next then 0 else 1

/-- A group command in a frame of the group slot (R539, R540). Without a recorded GSEQ the frame is recorded and not executed
(R555). -/
def takeGroup (slot age : Nat) (p : List Byte) (s : State) : State :=
  let v := s.busSet
  if v 0x500B != (slot : Int) || p.length < 4 then s
  else
    let gseq := nth p 0 0
    let g := nth p 3 0
    let old := s.bus.gseq
    let s := s.modBus fun b => { b with gseq := some gseq }
    if old == some gseq || old.isNone then s
    else if ofLe ((p.drop 1).take 2) &&& (v 0x500C).toNat = 0 then s
    else if age != 0 || !s.busSync then grpFail gseq (grpAxes g) 0 s
    else s.modBus fun b => { b with due := b.due ++ [(gseq, g, grpSkip v slot)] }

/-- The own data frame on the line has been sent: its content shows in the buffers, and a group command in it is taken up (R533, R540).
A frame that a collision has abandoned never gets here. -/
def ownDone (s : State) : State := match s.bus.own with
  | none => s
  | some f =>
    let s := s.modBus fun b => { b with own := none }
    takeGroup f.1 f.2.1 f.2.2 (rxStore f.1 f.2.1 f.2.2 true s)

/-- Whether the own data frame on the line ends before the action instant of its cycle, or was sent before it (R541). -/
def ownBefore (s : State) : Bool := s.bus.own.any fun f =>
  let v := s.busSet
  let w := schedWord v f.1
  let act := 80 * (v 0x5003).toNat
  80 * slotStart w + (7 + slotLen w) * 10 * busBit v ≤ act || act + 320 < 80 * slotStart w

/-- The bus is switched off on this node (R555); a frame in progress completes (Table 16-4). -/
def busOff (s : State) : State :=
  let s := busStops (busGo .off (cycleEnd (ownDone s)))
  s.modBus fun b => { b with stopping := false, lock := 0, miss := 0, interval := none, tun := [] }

/-- `bus.mode` under Table 16-4, and the state BADID, which hangs on the node number alone (R526). A master that is switched off
leaves through its STOPPING cycle (R528). -/
def busLook (s : State) : State :=
  if !s.busLive then s
  else
    let on := s.par 0x5000 == 1
    match s.bus.st with
    | .off =>
      let st : BusState := if 31 < s.bus.node then .badid else if s.bus.node = 0 then .master else .listen
      if !on && st != .badid then s
      else (takeBusSet s).modBus fun b => { b with st := st, lock := 0, miss := 0, interval := none, stopping := false }
    | .master | .badid => s
    | _ => if on then s else busOff s

/-- A line's command of an axis waits for the loop engine: the line governs (R552, log 42). -/
def lineGoverns (s : State) (x : Axis) : Bool := (s.loop.get x).hand.isSome && (s.loop.get x).grpHand.isNone

/-- A hand-over that waits is that of a group command (R552). -/
def markGroup (g : Byte) (x : Axis) (s : State) : State := s.modLoop x fun l => { l with grpHand := some g }

/-- The first group command handed over with an operation, and the others. -/
def takeReady (op : Nat) : List (Byte × Byte) → Option ((Byte × Byte) × List (Byte × Byte))
  | [] => none
  | g :: r => if grpOp g.2 = op then some (g, r) else (takeReady op r).map fun q => (q.1, g :: q.2)

/-- GROUP_MOVE (R541): each named axis passes the checks of R400 or is recorded. The row comes before the LOOP_ENGINE_RUN of the
tick whose reload lies nearest to the action instant. -/
def execGroupMove (s : State) : Out := .next (match takeReady 1 s.bus.ready with
  | none => s
  | some (g, rest) =>
    let p := g.2.toNat % 8
    forAll axes2 (fun x s =>
      if !hasAxis (grpAxes g.2) x then s
      else if lineGoverns s x || (moveCheck s x p).isSome then grpFail g.1 (axBit x) (posArg s x) s
      else askStart x (markGroup g.1 x (handOver x (.move p) s)))
      (s.modBus fun b => { b with ready := rest }))

/-- GROUP_STOP (R541): each named axis acts as under `stop`. -/
def execGroupStop (s : State) : Out := .next (match takeReady 2 s.bus.ready with
  | none => s
  | some (g, rest) =>
    let xs := axes2.filter (hasAxis (grpAxes g.2))
    let s := s.modBus fun b => { b with ready := rest }
    let late := xs.filter (lineGoverns s)
    let s := forAll late (fun x s => grpFail g.1 (axBit x) (posArg s x) s) s
    let xs := xs.filter fun x => !late.contains x
    let xs := if s.coupled && !xs.isEmpty then axes2 else xs
    forAll xs (fun x s =>
      if (s.moving x || (s.mot.get x).learn.isSome || (s.loop.get x).grpHand.isSome) && (s.loop.get x).hand != some .disarm then
        markGroup g.1 x (handOver x .stop s)
      else s) s)

/-- rho of R529: the last interval by the nominal cycle; 1 for the master and before an interval. -/
def State.busRho (s : State) : Rat := match s.bus.interval with
  | some i => (i : Rat) / (80 * s.busSet 0x5002 : Int)
  | none => 1

/-- An offset in us of the schedule, placed after the falling edge of the cycle reference, in clocks (R529). -/
def placed (s : State) (x : Nat) : Int := ratRound (80 * (x : Rat) * s.busRho) - s.bus.comp

/-- The phase that a tick corrects: its trim less the drift of R538. -/
def alignStep (s : State) : Rat := (s.link.trim : Rat) - (s.tickP : Rat) * (s.busRho - 1)

/-- The tick that ends has corrected phase since the action instant (R538). -/
def phaseTick (s : State) : State := if s.bus.alignE.isSome then s.modBus fun b => { b with alignC := b.alignC + alignStep s } else s

/-- Whether this node aligns its ticks: a slave with `bus.tick_align` on (R538). -/
def aligns (s : State) : Bool := s.par 0x5009 == 1 && s.bus.node != 0

/-- ACTION_INSTANT (R535): `phase` is the time of the instant less that of the nearest reload, in clocks. Latches record, the due
group commands are handed over, and with `bus.tick_align` on the phase of the tick is taken (R538). -/
def execActionInstant (phase : Int) (s : State) : Out :=
  let s := busLook s
  .next (if !s.busLive || !s.busSync then s
    else
      let s := when_ (ownBefore s) ownDone s
      let clk := if phase < 0 then ((s.tickClocks : Int) + phase).toNat else phase.toNat
      let s := when_ s.counting (forAll axes2 (fun x s => latSource x 6 clk s)) s
      let go := (s.bus.due.filter fun d => d.2.2 = 0).map fun d => (d.1, d.2.1)
      s.modBus fun b =>
        { b with due := (b.due.filter fun d => d.2.2 != 0).map fun d => (d.1, d.2.1, d.2.2 - 1), ready := b.ready ++ go,
                 alignE := if aligns s then some phase else b.alignE,
                 alignC := if !aligns s then b.alignC else if phase < 0 then -(alignStep s) else 0 })

/-! ### Cycles -/

/-- The cycle-start frame (Table 16-1). -/
def csfBytes (stopping : Bool) (cycle : W16) (hash : W32) : List Byte :=
  let body : List Byte := (if stopping then 0x11 else 0x01) :: (leBytes 2 cycle.toNat ++ leBytes 4 hash.toNat)
  0xD3 :: (body ++ crcBytes body)

/-- CYCLE_START: the master starts a cycle (R520, R528, R544). The start after the STOPPING cycle is its end. -/
def execCycleStart (s : State) : Out :=
  let s := ownDone (busLook s)
  .next (if !s.busLive || s.bus.st != .master then s
    else if s.bus.stopping then busOff s
    else
      let n : W16 := if s.bus.ran then s.bus.cycle + 1 else 0
      let s := cycleBegin n s
      let stop := s.par 0x5000 != 1
      s.modBus fun b =>
        { b with ran := true, actAt := placed s (s.busSet 0x5003).toNat, stopping := stop, sent := csfBytes stop n (schedHash s.busSet) })

/-- A notice of a collision or a hash mismatch: the first in any 1,000 ms (R543). -/
def rareNotice (e : String) (last : Option W48) (mark : Bus → Bus) (s : State) : State :=
  if last.any fun t => s.since t < 1000000 then s else (busNotice e s).modBus mark

/-- A valid CSF whose hash differs (Table 16-4, R543). -/
def hashDiffers (s : State) : State :=
  let s := busGo .hash (bump 0x78A4 s)
  rareNotice "hash" s.bus.saidHash (fun b => { b with saidHash := some s.etime }) s

/-- Whether an interval lies within 3 % of the cycle (Table 16-4). -/
def intervalOk (v : PSet) (i : Nat) : Bool :=
  let c := 80 * (v 0x5002).toNat
  100 * ((i : Int) - c).natAbs ≤ 3 * c

/-- A CSF that arrives while the node waits for one (R527, Table 16-4). -/
def takeCsf (bs : List Byte) (interval : Nat) (s : State) : State :=
  let n : W16 := BitVec.ofNat 16 (ofLe ((bs.drop 2).take 2))
  let hash : W32 := BitVec.ofNat 32 (ofLe ((bs.drop 4).take 4))
  -- a cycle with STOPPING has ended
  let s := if s.bus.st == .sync && s.bus.stopping then busStops (busGo .listen (busNotice "unsync" s)) else s
  let st := s.bus.st
  let old := s.bus.cycle
  let v := s.busSet
  let was := s.bus.comp
  let s := cycleBegin n s
  -- both references lie before their falling edges by what `bus.act_comp` gives (R529)
  let comp := 2 + (s.busSet 0x500A).toNat
  let interval := ((interval : Int) + was - comp).toNat
  let next := n == old + 1 && intervalOk v interval
  let s := s.modBus fun b =>
    { b with miss := 0, stopping := (nth bs 1 0).getLsbD 4, hearing := b.hearing ||| 1, comp := comp,
             interval := if st == .locking || st == .sync then some interval else none }
  let s := s.modBus fun b => { b with actAt := placed s (s.busSet 0x5003).toNat }
  if hash != schedHash s.busSet then hashDiffers s
  else match st with
    | .listen | .hash => busGo .locking (s.modBus fun b => { b with lock := 1 })
    | .locking =>
      if !next then s.modBus fun b => { b with lock := 1 }
      else
        let s := s.modBus fun b => { b with lock := b.lock + 1 }
        if s.busSet 0x5005 ≤ (s.bus.lock : Int) then busNotice "sync" (busGo .sync s) else s
    | .sync => if next then s else busGo .locking (busNotice "unsync" (s.modBus fun b => { b with lock := 1 }))
    | _ => s

/-- Whether the node waits for cycle-start frames. -/
def State.slave (s : State) : Bool :=
  s.bus.st == .listen || s.bus.st == .hash || s.bus.st == .locking || s.bus.st == .sync

/-- CYCLE_START_FRAME (R527): outside its window a CSF is not taken; a damaged one is counted. -/
def execCycleStartFrame (bytes : List Byte) (off : Int) (interval : Nat) (s : State) : Out :=
  let s := ownDone (busLook s)
  let any := s.bus.st == .listen || s.bus.st == .hash
  .next (if !s.busLive || !s.slave || (!any && (off < -40 || 160 < off)) then s
    else if bytes.length != 10 || (bytes.drop 8) != crcBytes ((bytes.drop 1).take 7) then bump 0x78A2 s
    else if nth bytes 0 0 != 0xD3 || (nth bytes 1 0).toNat % 16 != 1 then s
    else takeCsf bytes interval s)

/-- CSF_MISS (Table 16-4): a window, or in HASH a cycle length, has passed without a valid CSF. It is the cycle start at which a new
miss limit acts (R746). -/
def execCsfMiss (s : State) : Out :=
  let s := ownDone (busLook s)
  let lim := s.par 0x5006
  let more (s : State) : State := s.modBus fun b => { b with miss := b.miss + 1 }
  .next (if !s.busLive then s
    else match s.bus.st with
      | .hash =>
        let s := more (cycleEnd s)
        if lim ≤ (s.bus.miss : Int) then busGo .listen (s.modBus fun b => { b with miss := 0 }) else s
      | .locking => bump 0x78A3 (cycleEnd s)
      | .sync =>
        if s.bus.stopping then
          busStops (busGo .listen (busNotice "unsync" ((cycleEnd s).modBus fun b => { b with stopping := false, miss := 0 })))
        else
          let s := more (bump 0x78A3 s)
          if lim ≤ (s.bus.miss : Int) then
            busStops (busGo .listen (busNotice "unsync" ((cycleEnd s).modBus fun b => { b with miss := 0 })))
          else cycleBegin (s.bus.cycle + 1) s
      | _ => s)

/-- BUS_COLLISION (R543). -/
def execBusCollision (s : State) : Out :=
  .next (if !s.busLive || s.bus.sent.isEmpty then s
    else
      let s := bump 0x78A5 (s.modBus fun b => { b with sent := [], own := none })
      rareNotice "collide" s.bus.saidCollide (fun b => { b with saidCollide := some s.etime }) s)

/-- UNEXPECTED_START_BIT (R543): a node in LISTEN or HASH expects a CSF at any time. -/
def execUnexpectedStartBit (s : State) : Out :=
  .next (if s.busLive && (s.busSync || s.bus.st == .locking || s.bus.st == .badid) then bump 0x78A6 s else s)

/-! ### Tunnels (R545-R549) -/

/-- The tunnel of this node with another node. -/
def State.tunnel (s : State) (peer : Nat) : Option Tunnel := s.bus.tun.find? fun t => t.peer == peer

/-- A tunnel without traffic. -/
def Tunnel.fresh (peer : Nat) : Tunnel :=
  { peer := peer, opened := false, sess := none, txSeq := 0, rxSeq := 0, unack := none, queue := [], acc := [], due := false,
    seq := 0, want := none, at_ := 0 }

/-- Changes the tunnel with a node, which is made when there is none. -/
def modTunnel (peer : Nat) (f : Tunnel → Tunnel) (s : State) : State := s.modBus fun b =>
  if b.tun.any fun t => t.peer == peer then { b with tun := b.tun.map fun t => if t.peer == peer then f t else t }
  else { b with tun := b.tun ++ [f (Tunnel.fresh peer)] }

/-- The fragments of a text: kind, index, LAST and up to 28 bytes (R546). -/
def fragments (kind : Nat) (bs : List Byte) : List (Nat × Nat × Bool × List Byte) :=
  let n := max 1 ((bs.length + 27) / 28)
  (List.range n).map fun i => (kind, i, i + 1 == n, (bs.drop (28 * i)).take 28)

/-- The next output line of a serving session as fragments: DATA for a data line, FINAL for the final one; notices are
discarded (R548). -/
def nextOutput (t : Tunnel) (s : State) : Option (List (Nat × Nat × Bool × List Byte) × State) := match t.sess with
  | none => none
  | some x =>
    let rest := (s.ses x).out.dropWhile (·.notice)
    match rest with
    | [] => none
    | l :: r =>
      let text := l.chars.take (l.chars.length - 2)
      let data := ((text.dropWhile (· != ' ')).drop 1).head? == some '|'
      some (fragments (if data then 2 else 3) (textBytes text), s.modSes x fun se => { se with out := r })

/-- A tunnel payload (Table 16-8). -/
def tunPayload (peer : Nat) (f : Nat × Nat × Bool × List Byte) (tseq tack : Byte) : List Byte :=
  [BitVec.ofNat 8 (peer % 32), BitVec.ofNat 8 (32 * f.1 + (if f.2.2.1 then 16 else 0) + f.2.1 % 16), tseq, tack] ++
    (f.2.2.2 ++ List.replicate (28 - f.2.2.2.length) 0)

/-- Whether a tunnel has a frame or an acknowledgement due (R546). -/
def tunHas (s : State) (t : Tunnel) : Bool :=
  t.unack.isSome || !t.queue.isEmpty || t.due || (match t.sess with
    | some x => (s.ses x).out.any fun l => !l.notice
    | none => false)

/-- The peer that a tunnel slot of this node serves (R546): a slave's is the master, the master takes its peers in turn. -/
def servedPeer (s : State) : Option Nat :=
  if s.bus.node != 0 then some 0
  else
    let ps := (List.range 32).filter fun p => s.bus.tun.any fun t => t.peer == p && tunHas s t
    match ps.filter (s.bus.turn < ·) with
    | p :: _ => some p
    | [] => ps.head?

/-- The payload of a tunnel slot (R546, R547): the frame in flight again, the next one, or NONE with an acknowledgement. -/
def tunSend (peer : Nat) (s : State) : List Byte × State := match s.tunnel peer with
  | none => ([0x80, 0, 0, 0] ++ List.replicate 28 0, s)
  | some t =>
    let s := s.modBus fun b => { b with turn := peer }
    match t.unack with
    | some f => (tunPayload peer f t.txSeq t.rxSeq, bump 0x78AA (modTunnel peer (fun t => { t with due := false }) s))
    | none =>
      let q : List (Nat × Nat × Bool × List Byte) × State :=
        if t.queue.isEmpty then (nextOutput t s).getD ([], s) else (t.queue, s)
      match q.1 with
      | f :: r =>
        (tunPayload peer f (t.txSeq + 1) t.rxSeq, modTunnel peer (fun t =>
          { t with unack := some f, queue := r, txSeq := t.txSeq + 1, due := false, at_ := s.etime }) q.2)
      | [] =>
        if t.due then
          (tunPayload peer (0, 0, false, []) t.txSeq t.rxSeq, modTunnel peer (fun t => { t with due := false }) s)
        else ([0x80, 0, 0, 0] ++ List.replicate 28 0, s)

/-- The line of session H that waits for a remote node. -/
def remoteCall (s : State) : Option Call :=
  ((waiters s fun w => w == .remote).filter fun k => k.1.x == .h).head?.map (·.1)

/-- The node that an `at` line names. -/
def atNode (k : Call) : Option Nat := match tokens k.line.body with
  | _ :: n :: _ => readNum n
  | _ => none

/-- The call that waits for a node. -/
def remoteFor (peer : Nat) (s : State) : Option Call := match remoteCall s with
  | some k => if atNode k == some peer then some k else none
  | none => none

/-- TACK covers the frame in flight (R547): after a LINE the time of R549 runs for the reply, after a CLOSE the tunnel is closed
and its line is answered (R545). A host-core restart answers that line itself (R233). -/
def tunAck (peer : Nat) (tack : Byte) (s : State) : State := match s.tunnel peer with
  | none => s
  | some t => match t.unack with
    | none => s
    | some f =>
      if tack != t.txSeq then s
      else
        let isClose := f.1 = 4
        let s := modTunnel peer (fun t =>
          { t with unack := none, at_ := s.etime, opened := t.opened && !isClose, seq := if isClose then 0 else t.seq }) s
        match (if isClose && s.host.restart.isNone then remoteFor peer s else none) with
        | some k => ok k s
        | none => s

/-- A frame of a tunnel arrives: its acknowledgement, then the frame when its TSEQ is the next one; a repeat of the last one is
acknowledged again, any other is discarded (R547). -/
def tunFrame (peer : Nat) (tseq tack : Byte) (take : State → State) (s : State) : State :=
  if !s.busLive || s.bus.st == .off then s
  else
    let s := tunAck peer tack s
    match s.tunnel peer with
    | none => s
    | some t =>
      if tseq = t.rxSeq + 1 then take (modTunnel peer (fun t => { t with rxSeq := tseq, due := true }) s)
      else if tseq = t.rxSeq then modTunnel peer (fun t => { t with due := true }) s
      else s

/-- TUNNEL_NONE. -/
def execTunnelNone (peer : Fin 32) (tack : Byte) (s : State) : Out :=
  .next (if !s.busLive || s.bus.st == .off then s else tunAck peer.val tack s)

/-- The lowest free tunnel session. -/
def freeSession (s : State) : Option Sess := [Sess.t1, .t2, .t3, .t4].find? fun x => (s.ses x).isFree

/-- A text without its padding. -/
def unpad (bs : List Byte) : List Byte := (bs.reverse.dropWhile (· == 0)).reverse

/-- A LINE fragment: the line runs when it is complete. During a restart its text is discarded (R232, R548). -/
def lineFragment (peer : Nat) (last : Bool) (bs : List Byte) (s : State) : State := match s.tunnel peer with
  | none => s
  | some t => match t.sess with
    | none => s
    | some x =>
      if !s.receives then modTunnel peer (fun t => { t with acc := [] }) s
      else
        let acc := t.acc ++ unpad bs
        let s := modTunnel peer (fun t => { t with acc := if last then [] else acc }) s
        if last then takeLine x acc s else s

/-- TUNNEL_LINE: the first LINE of a node without an open session opens one, or is refused (R548). -/
def execTunnelLine (peer : Fin 32) (idx : BitVec 4) (last : Bool) (tseq tack : Byte) (txt : List Byte) (s : State) : Out :=
  let p := peer.val
  let open_ := (s.tunnel p).any fun t => t.sess.any fun x => (s.ses x).isOpen && (s.ses x).peer == some p
  .next (if !s.busLive || s.bus.st == .off then s
    else if open_ then tunFrame p tseq tack (lineFragment p last txt) s
    else if (s.tunnel p).any fun t => t.rxSeq == tseq then
      modTunnel p (fun t => { t with due := true }) (tunAck p tack s)
    else if idx != 0 then tunAck p tack s
    else
      let s := modTunnel p (fun t => { t with rxSeq := tseq, due := true, acc := [] }) (tunAck p tack s)
      match freeSession s with
      | some x => lineFragment p last txt (modTunnel p (fun t => { t with sess := some x }) (openSession x p s))
      | none => modTunnel p (fun t => { t with sess := none, queue := t.queue ++ [(5, 0, true, [])] }) s)

/-- Whether a reply line of a remote node answers the pending line, and its text without framing (R548). -/
def remoteText (want : Option Nat) (t : Text) : Option Text :=
  let body := (t.take (t.length - 5)).drop 1
  let seq := body.takeWhile (· != ' ')
  if t.length < 6 || t.head? != some '#' then none
  else if (match want with | some n => plainNum 65535 seq == some n | none => seq == ['-']) then
    some ((body.dropWhile (· != ' ')).drop 1)
  else none

/-- A reply fragment of the remote node (R548): a complete data line becomes a data line of session H, the final line the final
reply of `at`. A reply that no line waits for, or with another seq, is discarded and counted (R236). While H cannot take more
text the frame is not accepted (R549). During a host-core restart the text is discarded (R232). -/
def replyFragment (peer : Nat) (fin last : Bool) (tseq tack : Byte) (bs : List Byte) (s : State) : State :=
  let room := 164 ≤ (s.ses .h).free
  if (remoteFor peer s).isSome && !room then tunAck peer tack s
  else tunFrame peer tseq tack (fun s => match s.tunnel peer with
    | none => s
    | some t => if s.host.restart.isSome then modTunnel peer (fun t => { t with acc := [] }) s else
      let acc := t.acc ++ unpad bs
      let s := modTunnel peer (fun t => { t with acc := if last then [] else acc, at_ := s.etime }) s
      if !last then s
      else match remoteFor peer s, remoteText t.want (bytesText acc) with
        | some k, some x => if fin then answer k x s else dataText k x s
        | _, _ => when_ fin (bump 0x7856) s) s

/-- TUNNEL_DATA. -/
def execTunnelData (peer : Fin 32) (_idx : BitVec 4) (last : Bool) (tseq tack : Byte) (txt : List Byte) (s : State) : Out :=
  .next (replyFragment peer.val false last tseq tack txt s)

/-- TUNNEL_FINAL. -/
def execTunnelFinal (peer : Fin 32) (_idx : BitVec 4) (last : Bool) (tseq tack : Byte) (txt : List Byte) (s : State) : Out :=
  .next (replyFragment peer.val true last tseq tack txt s)

/-- TUNNEL_CLOSE: the node that opened the tunnel closes it (R235, R545). A CLOSE that meets no tunnel is accepted and acknowledged
all the same (R547). -/
def execTunnelClose (peer : Fin 32) (tseq tack : Byte) (s : State) : Out :=
  .next (if s.busLive && s.bus.st != .off && (s.tunnel peer.val).isNone then
      modTunnel peer.val (fun t => { t with rxSeq := tseq, due := true }) s
    else tunFrame peer.val tseq tack (fun s => match s.tunnel peer.val with
    | none => s
    | some t => match t.sess with
      | some x => modTunnel peer.val (fun t => { t with sess := none, queue := [], acc := [] }) (closeSession x s)
      | none => s) s)

/-- TUNNEL_REFUSE: `at` is answered `err 63` (R548), or `err 40` by a host-core restart that runs (R233). -/
def execTunnelRefuse (peer : Fin 32) (tseq tack : Byte) (s : State) : Out :=
  .next (tunFrame peer.val tseq tack (fun s =>
    let s := modTunnel peer.val (fun t => { t with opened := false, queue := [], seq := 0 }) s
    match remoteFor peer.val s with
    | some k => if s.host.restart.isSome then s else fail k 63 s
    | none => s) s)

/-- TUNNEL_IDLE_TIMEOUT (R235): no line for `host.tun.idle`. -/
def execTunnelIdleTimeout (x : Sess) (s : State) : Out :=
  let se := s.ses x
  .next (if x == .h || !se.isOpen then s
    else timeUp se.lineAt (s.parN 0x5810 * 1000000) (fun s =>
      let off (t : Tunnel) : Tunnel := if t.sess == some x then { t with sess := none, queue := [], acc := [] } else t
      (closeSession x s).modBus fun b => { b with tun := b.tun.map off }) s)

/-- Whether a node owns a tunnel slot. -/
def ownsTunnel (v : PSet) (node : Nat) : Bool := (usedSlots v).any fun p => slotKind p.2 == 2 && slotOwner p.2 == node

/-- `at <node> <line>` (R545, Table 16-7). -/
def cmdAt (node : Nat) (line : Text) (k : Call) (s : State) : State :=
  let s := busLook s
  let v := s.busSet
  let line := trim line
  let t := (s.tunnel node).getD (Tunnel.fresh node)
  let framed := if startsWith line ['#'] then line else withCrc ('#' :: dec t.seq ++ ' ' :: line)
  if k.x != .h then fail k 30 s
  else if !s.busSync then fail k (if s.bus.st == .hash then 62 else 60) s
  else if s.bus.node != 0 && node != 0 then fail k 64 s
  else if !ownsTunnel v s.bus.node || !ownsTunnel v node || node == s.bus.node || 20000 < v 0x5002 then fail k 61 s
  else if line == ['-'] then
    if !t.opened then ok k s
    else modTunnel node (fun t => { t with queue := t.queue ++ [(4, 0, true, [])], at_ := s.etime }) (waitFor k .remote s)
  else if 160 < framed.length then fail k 11 s
  else
    let own := !startsWith line ['#']
    modTunnel node (fun t =>
      { t with opened := true, want := if own then some t.seq else readSeq (line.drop 1),
               seq := if own then (t.seq + 1) % 65536 else t.seq,
               queue := t.queue ++ fragments 1 (textBytes framed), at_ := s.etime }) (waitFor k .remote s)

/-- AT: the command stands for the whole line, which later frames read. -/
def execAt (x : Sess) (node : Nat) (line : Text) (s : State) : Out :=
  direct x "at" (fun k s =>
    cmdAt node line { k with line := { k.line with body := txt "at " ++ dec node ++ ' ' :: line } } s) s

/-- A time in which the reply buffer of a session takes no further line: the 50 ms of R549 stand still for session H, and the wait
of a line to start does not count it (R109). -/
def blockTime (us : Nat) (s : State) : State :=
  let d := BitVec.ofNat 48 us
  let s := if 164 ≤ (s.ses .h).free then s else s.modBus fun b => { b with tun := b.tun.map fun t => { t with at_ := t.at_ + d } }
  { s with sess := s.sess.map fun se =>
      match se.waiting with
      | [] => se
      | l :: _ => if 164 ≤ se.free then se
        else { se with doneAt := (if s.since l.at_ ≤ s.since se.doneAt then l.at_ else se.doneAt) + d } }

/-- REMOTE_TIMEOUT (R110, R549): 50 ms without an answer, from the sending of a frame that is not acknowledged or, with the line
acknowledged, from the last fragment; the time stands still while H cannot take more text, and a host-core restart answers the line
itself (R233). -/
def execRemoteTimeout (s : State) : Out :=
  .next (match remoteCall s with
    | none => s
    | some k =>
      if (s.ses .h).free < 164 || s.host.restart.isSome then s
      else match (atNode k).bind s.tunnel with
        | some t => if t.unack.isSome || t.queue.isEmpty then timeUp t.at_ 50000 (fail k 44) s else s
        | none => fail k 44 s)

/-! ### Slots -/

/-- A slot frame (Table 16-2). -/
def slotBytes (node slot age : Nat) (p : List Byte) : List Byte :=
  let body : List Byte := [BitVec.ofNat 8 node, BitVec.ofNat 8 slot, BitVec.ofNat 8 age, BitVec.ofNat 8 p.length] ++ p
  0x2C :: (body ++ crcBytes body)

/-- The content and AGE of an owned data slot (R532). -/
def dataContent (slot : Nat) (s : State) : List W32 × Nat × State :=
  let v := s.busSet
  match (List.range 4).find? fun k => v (0x5200 + 16 * k) == (slot : Int) with
  | none => (List.replicate 8 0, 255, s)
  | some k => match s.bus.tx[k]? with
    | none => (List.replicate 8 0, 255, s)
    | some t =>
      let t := if t.fresh then { t with words := t.back, fresh := false, age := 0 }
               else { t with age := min 255 (t.age + 1) }
      (t.words, t.age, s.modBus fun b => { b with tx := b.tx.set k t })

/-- SLOT_BOUNDARY: the content of an owned slot is taken, and its frame goes out (R532, R546). What the node does with its own frame
waits for its end (R540). -/
def execSlotBoundary (slot : Fin 64) (s : State) : Out :=
  let s := ownDone (busLook s)
  let n := slot.val
  let w := schedWord s.busSet n
  .next (if !s.busLive || !s.busSync || slotOwner w != s.bus.node then s
    else if slotKind w = 1 then
      let c := dataContent n s
      let p := (bufBytes c.1).take (slotLen w)
      c.2.2.modBus fun b => { b with sent := slotBytes b.node n c.2.1 p, own := some (n, c.2.1, p) }
    else if slotKind w = 2 then
      match servedPeer s with
      | some p =>
        let r := tunSend p s
        r.2.modBus fun b => { b with sent := slotBytes b.node n 0 r.1 }
      | none => s.modBus fun b => { b with sent := slotBytes b.node n 0 ([0x80, 0, 0, 0] ++ List.replicate 28 0) }
    else s)

/-- SLOT_FRAME (R530): a frame in its window is judged; an accepted one reaches the buffers and the group slot. The content of a
tunnel slot follows as a TUNNEL row. -/
def execSlotFrame (bytes : List Byte) (slot : Fin 64) (off : Int) (damaged : Bool) (s : State) : Out :=
  let s := ownDone (busLook s)
  let b (i : Nat) : Nat := (nth bytes i 0).toNat
  let n := slot.val
  let w := schedWord s.busSet n
  .next (if !s.busLive || !(s.busSync || s.bus.st == .locking) || slotKind w = 0 || slotOwner w == s.bus.node ||
            off < -40 || 160 < off then s
    else if damaged || b 0 != 0x2C || bytes.length != 7 + b 4 ||
            bytes.drop (bytes.length - 2) != crcBytes ((bytes.drop 1).take (bytes.length - 3)) then bump 0x78A2 s
    else if b 1 % 32 != slotOwner w || b 2 % 64 != n || b 4 != slotLen w then bump 0x78A7 s
    else
      let p := (bytes.drop 5).take (b 4)
      let s := s.modBus fun u => { u with hearing := u.hearing ||| BitVec.ofNat 32 (2 ^ slotOwner w) }
      if slotKind w = 1 then takeGroup n (b 3) p (rxStore n (b 3) p false s) else s)

/-! ### The M-class item (R533, R538) -/

/-- The even number nearest to a value, halves away from zero. -/
def nearestEven (q : Rat) : Int := 2 * ratAway (q / 2)

/-- The tick trim of a slave with `bus.tick_align` on (R538). N counts the ticks from this ms tick to the next one at length P. -/
def alignTrim (s : State) : Int :=
  let p := s.tickP
  let n : Nat := max 1 ((80000 - s.acc + p - 1) / p)
  let lim : Int := 2 * ((2 * p / 100) / 2 : Nat)
  max (-lim) (min lim (nearestEven ((p : Rat) * (s.busRho - 1) + ((s.bus.alignE.getD 0 : Int) - s.bus.alignC) / n)))

/-- Item 5 of the M-class work: the latest content of the receive buffers, and the tick trim of a slave in SYNC, which keeps the
last one through flywheel cycles (R553) and when the alignment ends (DEDUCED, log 99). -/
def busItem (s : State) : State :=
  let s := s.modBus fun b => { b with rx := b.rx.map fun r => { r with view := { words := r.words, age := r.age, cnt := r.cnt, made := r.made } } }
  if aligns s && s.bus.st == .sync && s.bus.miss = 0 && s.bus.alignE.isSome && s.link.up then
    let e : Nat × List Byte := (0xF20, leBytes 2 (ofSigned 16 (alignTrim s)))
    s.modLink fun l => { l with control := (l.control.filter fun c => c.1 != 0xF20) ++ [e] }
  else s

end Sys2Proof.Machine
end

