-- ==== Sys2Proof/Machine/Cal.lean ====
section
/-! DEFINITION. The ends of `cal offset` and `cal align` (R377, R379): the results of their runs and the commits that carry
them. -/

namespace Sys2Proof.Machine

/-- Whether every VM result of the run lies within 2 % of their mean (R377). -/
def vmSteady (vm : List Nat) : Bool :=
  let sum : Nat := vm.foldl (· + ·) 0
  vm.all fun v => 50 * (((v * vm.length : Nat) : Int) - (sum : Int)).natAbs ≤ sum

/-- An offset from the sum of 1,024 results, each in quarters of a count: round(mean - 2048) (R377). -/
def offsetOf (sum : Int) : Int := ratRound ((sum - 2048 * 4096 : Int) / (4096 : Rat))

/-- The session of the line that waits for a calibration; session H when its line has gone. -/
def calBy (w : Wait) (s : State) : Sess := ((waiters s (· == w)).head?.map fun k => k.1.x).getD .h

/-- CAL_OFFSET_DONE (R377): the run has seen 1,024 ticks. A check that fails is `err 37`, an offset outside 64 counts `err 71`, a
running commit `err 41`; otherwise the three offsets are committed. -/
def execCalOffsetDone (ax : Axis) (s : State) : Out := .next (match (s.loop.get ax).cal with
  | some (.offset n sums vm) =>
    if n < 1024 then s
    else
      let o := sums.map offsetOf
      if !s.disarmed ax || !stillFor s ax || !vmSteady vm then offsetEnd ax (errText 37 none) s
      else if o.toList.any fun v => 64 < v.natAbs then offsetEnd ax (errText 71 none) s
      else if s.commit.isSome then offsetEnd ax (errText 41 none) s
      else
        let s := s.modLoop ax fun l => { l with cal := none }
        calCommit (calBy (.calOffset ax) s) ax [(axId ax 0x074, o.u), (axId ax 0x075, o.v), (axId ax 0x076, o.w)] s
  | _ => s)

/-- The mean of values on a circle of a given size, taken around the first of them, in 0 to size - 1. -/
def circMean (size : Rat) : List Rat → Option Int
  | [] => none
  | a :: r =>
    let d (q : Rat) : Rat :=
      let x := q - a + size / 2
      x - size * (x / size).floor - size / 2
    let m := a + (r.map d).foldl (· + ·) 0 / ((r.length + 1 : Nat) : Rat)
    let r := ratRound (m - size * (m / size).floor)
    some (if size ≤ (r : Rat) then 0 else r)

/-- The expected movement of `cal align` in counts (R379). -/
def alignExpect (s : State) (x : Axis) : Rat :=
  let r : Rat := (s.axn x 0x0E1 : Rat)
  if !s.scSource x && s.axn x 0x0A0 = 2 then 6 * r else r * (mRev s x : Rat) / (s.axn x 0x021 : Rat)

/-- The Hall angles that the crossings give: of each boundary the mean of its forward and reverse angles. A boundary that was
never crossed keeps its angle. -/
def alignAngles (x : Axis) (f b : List (Nat × Rat)) : Store :=
  (List.range 6).filterMap fun k =>
    (circMean 65536 ((f ++ b).filterMap fun c => if c.1 = k then some c.2 else none)).map fun v => (axId x (0x026 + k), v)

/-- CAL_ALIGN_DONE (R379): the sequence has ended and the axis is disarmed. -/
def execCalAlignDone (ax : Axis) (s : State) : Out := .next (match (s.loop.get ax).cal with
  | some (.align 6 _ p0 p1 p2 f b) =>
    if (s.loop.get ax).st != .disarmed then s
    else
      let e := alignExpect s ax
      let off (d : Int) : Bool := e / 10 < max ((d : Rat) - e) (e - d)
      let fwd := (BitVec.ofInt 32 (p1 - p0)).toInt
      let back := (BitVec.ofInt 32 (p1 - p2)).toInt
      if off fwd || off back then endCal ax (errText 37 none) s
      else if s.commit.isSome then endCal ax (errText 41 none) s
      else
        let m : Rat := (mRev s ax : Rat) / (max 1 (s.axn ax 0x021) : Nat)
        let foc := s.commMode ax = 3
        let by_ := calBy (.calAlign ax) s
        let s := s.modLoop ax fun l =>
          { l with cal := none, offRt := if foc then circMean m [(p0 : Rat), (p1 : Rat), (p2 : Rat)] else l.offRt }
        calCommit by_ ax (alignAngles ax f b) s
  | _ => s)

end Sys2Proof.Machine
end

