-- ==== Sys2Proof/Machine/Link.lean ====
section
/-! DEFINITION. The Nymik link (chapter 03): segments with their bytes, CRC and sequence numbers, what Aster takes from a UT
and a UC, verdicts and retries, the DOWN frame and its delta field, gaps on Aster, the entry into SAFE, and training. -/

namespace Sys2Proof.Machine

/-! ### Segments (R61-R73) -/

/-- SYNC, the first byte of every transmission (R61). -/
def syncByte : Byte := 0x9B

/-- Two 12-bit results in three bytes (R65). -/
def pack12 : List (BitVec 12) → List Byte
  | a :: b :: r =>
    a.extractLsb' 0 8 :: (b.extractLsb' 0 4 ++ a.extractLsb' 8 4) :: b.extractLsb' 4 8 :: pack12 r
  | _ => []

/-- The results of packed bytes (R65). -/
def unpack12 : List Byte → List (BitVec 12)
  | x :: y :: z :: r => (y.extractLsb' 0 4 ++ x) :: (z ++ y.extractLsb' 4 4) :: unpack12 r
  | _ => []

/-- A segment from the bytes between SYNC and CRC (R61, R62). -/
def segment (body : List Byte) : List Byte := syncByte :: body ++ crcBytes body

/-- Whether received bytes are a segment of a length and a kind whose CRC passes. -/
def segmentOk (len kind : Nat) (bs : List Byte) : Bool :=
  bs.length == len && nth bs 0 0 == syncByte && (nth bs 1 0).toNat / 16 == kind &&
  (bs.drop (len - 2)) == crcBytes ((bs.drop 1).take (len - 3))

/-- The header byte of a kind and a sequence number (R63). -/
def headerByte (kind : Nat) (seq : BitVec 4) : Byte := BitVec.ofNat 8 (16 * kind + seq.toNat)

/-- The distance of a sequence number from the last accepted one (R73). -/
def seqDist (last : BitVec 4) (bs : List Byte) : Nat := ((nth bs 1 0).extractLsb' 0 4 - last).toNat

/-- Received bytes: those sent, with what the lanes added to them. -/
def onLane : List Byte → List Byte → List Byte
  | [], _ => []
  | bs, [] => bs
  | b :: bs, n :: ns => (b ^^^ n) :: onLane bs ns

/-- FREC of the oldest queued record: TOFF counts the ticks from its tick, 255 at most (R67, Table 3-5). -/
def frecBytes (p : Peony) : List Byte := match p.recs with
  | [] => [0, 0, 0, 0]
  | r :: _ => [r.dseq, r.code, r.mask, BitVec.ofNat 8 (min 255 (p.tick - r.tick).toNat)]

/-- The bytes of a UT between SYNC and CRC (Table 3-3, R66). -/
def utBody (p : Peony) (seq : BitVec 4) : List Byte :=
  let n := p.tick.toNat
  headerByte 1 seq :: p.tick.extractLsb' 0 8 :: pack12 p.an.aux ++
    [BitVec.ofNat 8 (n % 6)] ++ leBytes 2 (nth p.an.ts (n % 6) 0).toNat ++
    [BitVec.ofNat 8 (n % 8)] ++ leBytes 2 (telItem p (n % 8)).toNat ++ frecBytes p ++
    [BitVec.ofNat 8 (p.back.getD 0), bstByte p, 0]

/-- The bytes of a UC between SYNC and CRC (Table 3-6). -/
def ucBody (p : Peony) (seq : BitVec 4) : List Byte :=
  headerByte 2 seq :: p.tick.extractLsb' 0 8 :: pack12 p.an.conv ++ [cmpsByte p]

/-! ### Verdicts and sequence numbers (R72-R74) -/

/-- The verdict tokens. -/
def ackByte : Byte := 0xA5
def nakByte : Byte := 0x5A

/-- What a receiver does with a segment whose CRC and kind pass, by its sequence number (R73): a duplicate is acknowledged and
changes nothing, a stale one is refused and counted, and any other is taken, with the missing ones before it counted. -/
def judgeSeq (last : BitVec 4) (take : List Byte → State → State) (bs : List Byte) (s : State) : Byte × State :=
  let d := seqDist last bs
  if d = 0 then (ackByte, s)
  else if 8 ≤ d then (nakByte, bump 0x7825 s)
  else (ackByte, take bs (if d = 1 then s else bumpBy 0x7824 (d - 1) s))

/-- Aster's verdict on a received UT or UC, and what it takes of it (R72, R73). -/
def judge (kind : Nat) (last : BitVec 4) (take : List Byte → State → State) (bs : List Byte) (s : State) : Byte × State :=
  if segmentOk 30 kind bs then judgeSeq last take bs s else (nakByte, s)

/-- The token as the sender reads it in the verdict window; anything but ACK counts as NAK (R72). -/
def tokenAck (tok : Option Byte) (hit : Byte) : Bool := tok.map (· ^^^ hit) == some ackByte

/-- The tick that a low byte names, against Aster's own TICK (R53, R67). -/
def tickNear (s : State) (low : Byte) : W32 := s.tick + (low - s.tick.extractLsb' 0 8).signExtend 32

/-! ### What Aster takes from a UT -/

/-- The telemetry item of a UT (R66): a diagnosis word that is done ends the diagnosis that Aster started (R306). -/
def takeTel (n : Nat) (v : W16) (s : State) : State :=
  if 8 ≤ n then s
  else
    let s := s.modLink fun l => { l with tel := l.tel.set n (some v) }
    let diag (x : Axis) (s : State) : State :=
      if v.getLsbD 15 && (s.loop.get x).diagRun then diagArrived x v s
      else s.modLoop x fun l => { l with diagWord := v }
    if n = 6 then diag .a s else if n = 7 then diag .b s else s

/-- The tick up to which Aster holds every Peony record after a UT of tick u (R221): a record may follow for the tick of the
UT itself, and for that of the record it carries. -/
def heldTick (u : W32) (r : Option W32) : W32 := match r with
  | none => u - 1
  | some t => (if tickLe t u then t else u) - 1

/-- Moves the tick up to which records are held forward. -/
def raiseUpTo (t : W32) (s : State) : State := s.modLog fun l =>
  { l with upTo := match l.upTo with
      | some u => some (if tickLe t u then u else t)
      | none => some t }

/-- Aster accepts a UT (R65-R67, R81, R82, R102, R221, R227, R669). A record joins the hold before the hold is released, so that both
dies' entries leave it in one order (R27). The fifth item of the rotation is known by Aster's own count (log 108). -/
def takeUt (bs : List Byte) (s : State) : State :=
  let b (i : Nat) : Byte := nth bs i 0
  let w (i : Nat) : W16 := b (i + 1) ++ b i
  let u := tickNear s (b 2)
  let s := s.modLink fun l =>
    { l with gotUt := true, utSeq := (b 1).extractLsb' 0 4, utAt := s.etime, aux := unpack12 ((bs.drop 3).take 12),
             fifth := if l.rot = 5 then some (nth (unpack12 ((bs.drop 3).take 3)) 1 0) else l.fifth, back := b 25, bst := b 26, bstSeen := true, bst4 := if (b 26).getLsbD 4 then 0 else min 2 (l.bst4 + 1),
             abort := l.abort && (b 26).getLsbD 0 }
  let ts := (b 15).toNat % 16
  let s := if ts < 6 then modTs ts (fun x => { x with cnt := some (w 16) }) s else s
  let s := takeTel (b 18).toNat (w 19) s
  let r : Option W32 := if b 22 = 0 then none else some (u - (b 24).zeroExtend 32)
  let s := match r with
    | some t => mergeRecord (b 21) (b 22) (b 23) t s
    | none => s
  commitBack (releaseHold (raiseUpTo (heldTick u r) s))

/-- A segment of Peony on the lanes: Aster judges it, and its token is on its way. With `fails` the receiver finds no CRC that
passes, whatever the lanes do (R91). -/
def upSend (kind : Nat) (last : BitVec 4) (take : List Byte → State → State) (fails : Bool) (bs noise : List Byte)
    (put : Byte → Peony → Peony) (s : State) : State :=
  let r := if fails then (nakByte, s) else judge kind last take (onLane bs noise) s
  r.2.modPe (put r.1)

/-- UT_SEGMENT: Peony sends a UT or repeats it after NAK (R64, R73, R74). -/
def execUtSegment (noise : List Byte) (s : State) : Out :=
  let send (bs : List Byte) (st : Byte → SegState) (s : State) : State :=
    let s := upSend 1 s.link.utSeq takeUt false bs noise (fun t p => { p with ut := st t }) s
    s.modLink fun l => { l with utBad := l.utBad || (match s.pe.ut with | .out _ t | .retried _ t => t != ackByte | _ => false) }
  .next (if !(s.pe.live && s.ticking) then s
    else match s.pe.ut with
      | .idle =>
        let q := s.pe.utSeq + 1
        let bs := segment (utBody s.pe q)
        send bs (.out bs) (s.modPe fun p => { p with utSeq := q })
      | .again bs => send bs (.retried bs) (bump 0x7820 s)
      | _ => s)

/-! ### What Aster takes from a UC -/

/-- Aster accepts a UC (R68, R84, R193). -/
def takeUc (bs : List Byte) (s : State) : State :=
  let b (i : Nat) : Byte := nth bs i 0
  let setp := (b 27).getLsbD 7
  let s := s.modLink fun l =>
    { l with gotUc := true, ucSeq := (b 1).extractLsb' 0 4, conv := unpack12 ((bs.drop 3).take 24), cmps := b 27,
             setp := setp }
  let s := { s with sc := { s.sc with at_ := s.etime } }
  commitSetp setp false s

/-- UC_SEGMENT: Peony sends a UC or repeats it after NAK. One of a tick that the dies began with different periods fails (R91). -/
def execUcSegment (noise : List Byte) (s : State) : Out :=
  let send (bs : List Byte) (st : Byte → SegState) (s : State) : State :=
    upSend 2 s.link.ucSeq takeUc (s.pe.baseP != s.tickP) bs noise (fun t p => { p with uc := st t }) s
  .next (if !(s.pe.live && s.ticking) then s
    else match s.pe.uc with
      | .idle =>
        let q := s.pe.ucSeq + 1
        let bs := segment (ucBody s.pe q)
        send bs (.out bs) (s.modPe fun p => { p with ucSeq := q })
      | .again bs => send bs (.retried bs) (bump 0x7820 s)
      | _ => s)

/-! ### The DOWN frame (R69-R71, R77, R82-R85) -/

/-- A gate command word of a command without duties. -/
def GateWord.of (c : BitVec 4) : GateWord := { GateWord.off with cmd := c }

/-- The 40 bits of a gate command word (R70). -/
def GateWord.bytes (w : GateWord) : List Byte := leBytes 5 (w.cmd ++ w.dw ++ w.dv ++ w.du).toNat

/-- The 48 bytes of a DOWN frame (Table 3-7). -/
def DownFrame.bytes (f : DownFrame) : List Byte :=
  segment (headerByte 8 f.seq :: f.tickl :: f.ga.bytes ++ f.gb.bytes ++ [BitVec.ofNat 8 (16 * f.dtype.toNat)] ++
    f.delta ++ List.replicate (32 - f.delta.length) 0)

/-- The frame that received bytes spell (Table 3-7, R70). -/
def downOf (bs : List Byte) : DownFrame :=
  let word (i : Nat) : GateWord :=
    let w : BitVec 40 := BitVec.ofNat 40 (ofLe ((bs.drop i).take 5))
    { cmd := w.extractLsb' 36 4, du := w.extractLsb' 0 12, dv := w.extractLsb' 12 12, dw := w.extractLsb' 24 12 }
  { seq := (nth bs 1 0).extractLsb' 0 4, tickl := nth bs 2 0, ga := word 3, gb := word 8,
    dtype := (nth bs 13 0).extractLsb' 4 4, delta := (bs.drop 14).take 32 }

/-- The word of an axis in the DOWN frame. OFF in SAFE and until the load's swap (R634, R743). In a gap or an overrun both words
are HELD (R49, R77). CLEAR goes out for a `clear` that has succeeded (R302), and until one is accepted OFF after an assertion of
Peony (R23). OFF stands before HELD where both are called for, and RELEASE of a fault of Aster's own before OFF (DESIGN CHOICE,
log 100). Otherwise it is the word of the loop engine. -/
def frameWord (s : State) (held : Bool) (x : Axis) : GateWord :=
  let w := (s.loop.get x).word
  if s.dev == .safe || s.commit.any (·.load) then GateWord.of 0
  else if hasAxis s.link.clear x && !held then GateWord.of 6
  else if s.link.off then (if w.cmd == 4 then w else GateWord.of 0)
  else if held then GateWord.of 2
  else w

/-- The bytes of an entry (R71). -/
def entryBytes (e : Nat × List Byte) : List Byte :=
  [BitVec.ofNat 8 e.1, BitVec.ofNat 8 (e.1 / 256 % 16 + 16 * e.2.length)] ++ e.2

/-- DTYPE and content of the delta field, and the commit after it (R71, R82-R85, R230, Table 3-9): TIME, then CONTROL, then
ABORT, the oldest block that BACK does not cover, or SWITCH. The CONTROL field goes out in an ms tick only. Block 0 goes only
after a UT has shown staging closed. -/
def deltaField (s : State) : (BitVec 4 × List Byte) × Option Commit :=
  let t := s.tick + 1
  let none' : BitVec 4 × List Byte := (0, [])
  if timeTurn s then ((4, leBytes 3 (t.toNat / 256)), s.commit)
  else
    let ctl := controlNow s
    if !ctl.isEmpty then ((5, ctl.flatMap entryBytes), s.commit)
    else if s.link.abort then ((3, []), s.commit)
    else if s.host.restart.isSome then (none', s.commit)
    else match s.commit with
      | none => (none', none)
      | some c =>
        if c.phase == .stream then
          if !c.opened && !s.link.bstSeen then (none', some c)
          else if !c.opened && s.link.bst.getLsbD 0 then ((3, []), some c)
          else match c.queue with
            | [] => (none', some c)
            | n :: _ => match c.blocks[n]? with
              | some k => ((if k.isRun then 6 else 1, k.bytes), some { c with opened := true })
              | none => (none', some c)
        else match nameSwitch s with
          | some sw => ((2, leBytes 4 sw.toNat ++ leBytes 1 (c.blocks.length - 1)), some { c with sw := some sw, swAck := false })
          | none => (none', some c)

/-- A CLEAR whose frame was lost does not go out again over a fault that was latched since (R301, log 110). -/
def clearAgain (s : State) : State := match s.link.clearN with
  | some n => forAll (s.faults.drop n) (fun f s => refuseClears f.axes s) (s.modLink fun l => { l with clearN := none })
  | none => s

/-- Sends the DOWN frame of this tick. -/
def sendDown (held : Bool) (s : State) : State :=
  let s := clearAgain (s.modLink fun l => { l with down := none })
  let d := deltaField s
  let f : DownFrame := { seq := s.link.downSeq + 1, tickl := (s.tick + 1).extractLsb' 0 8, ga := frameWord s held .a,
                         gb := frameWord s held .b, dtype := d.1.1, delta := d.1.2 }
  { s.modLink fun l => { l with downSeq := f.seq, down := some f, downRetry := false, downLost := false, done := true, ctlOpen := false,
                                clearN := if f.ga.cmd = 6 || f.gb.cmd = 6 then some s.faults.length else none }
    with commit := d.2 }

/-- The loop engine abandons the work of the tick (R48, R49). A Peony assertion in the tick stops the count of this run, and no
E:OVERRUN is raised for it (R56). -/
def overrunTick (s : State) : State :=
  let stop := s.link.overStop || s.link.mark.any fun m => m.1 == s.tick
  sendDown true (bump 0x7815 (s.modLink fun l =>
    { l with overNow := true, overStop := stop, overRun := if l.overStop then l.overRun else l.overRun + 1 }))

/-- OVERRUN (R48): the work is not finished at the start of slot 14. A tick without an accepted UC is a gap and no overrun
(R50, R92). -/
def execOverrun (s : State) : Out :=
  .next (if s.ticking && !s.link.done && s.link.gotUc then overrunTick s else s)

/-- LOOP_ENGINE_RUN: the loop engine's work of a tick and its DOWN frame (R42, R49, R57, R77). Without an accepted UC it does
not run and the frame holds the gates. Work that a late record from FRAM stops is an overrun (R48, R120). -/
def execLoopEngineRun (s : State) : Out :=
  .next (if !s.ticking || s.link.done then s
    else if !s.link.gotUc then sendDown true s
    else
      let t := dWork s
      if lateWork s t then overrunTick s
      else sendDown false (clearAccepted (t.modLink fun l => { l with elapsed := 0, overRun := 0, overStop := false })))

/-- E_OVERRUN (R50): the third consecutive overrun, in its tick. -/
def execEOverrun (s : State) : Out :=
  .next (if !s.link.overNow || s.link.overStop || s.link.overRun < 3 || (s.faults.any fun f => f.kind == 0x0D) then s
    else asterFault 0x0D 3 s.link.overRun 0 0 s)

/-! ### Peony takes a DOWN frame (R72, R73, R75, R82-R85) -/

/-- The delta field of an accepted frame, as far as it acts on arrival: blocks, runs, SWITCH, ABORT and TIME. CONTROL acts at the
reload that the frame serves (R85), and a reserved DTYPE does nothing (Table 3-9). -/
def takeDelta (f : DownFrame) (s : State) : State :=
  let d := f.delta
  match f.dtype.toNat with
  | 1 => deltaBlock (nth d 0 0) (d.drop 1) s
  | 2 => deltaSwitch (BitVec.ofNat 32 (ofLe (d.take 4))) (nth d 4 0) s
  | 3 => deltaAbort s
  | 4 => deltaTime (BitVec.ofNat 24 (ofLe (d.take 3))) s
  | 6 => deltaRun (nth d 0 0) (BitVec.ofNat 16 (ofLe ((d.drop 1).take 2))) (d.drop 3) s
  | _ => s

/-- Peony accepts a DOWN frame: its words and its CONTROL entries wait for the reload that it serves (R69, R70). -/
def takeDown (bs : List Byte) (s : State) : State :=
  let f := downOf bs
  takeDelta f (s.modPe fun p => { p with gotDown := true, downSeq := f.seq, rx := some f })

/-- Peony's verdict on a received DOWN frame, and what it takes of it (R72, R73). Without a training it answers nothing (R80). -/
def judgeDown (bs : List Byte) (s : State) : Option Byte × State :=
  if !s.pe.live then (none, s)
  else if segmentOk 48 8 bs && nth bs 2 0 == (s.pe.tick + 1).extractLsb' 0 8 then
    let r := judgeSeq s.pe.downSeq takeDown bs s
    (some r.1, r.2)
  else (some nakByte, s)

/-! ### Verdicts (R72, R74) -/

/-- A UT has been acknowledged: the record that it carried leaves the queue (R67). -/
def utAcked (bs : List Byte) (p : Peony) : Peony := { p with ut := .acked, recs := if nth bs 22 0 = 0 then p.recs else p.recs.drop 1 }

/-- The byte of a TMUX_A selection, 0 off and n + 1 for code n; TMUX_LOCK closes it (R666, R668). -/
def tmuxByte (s : State) (sel : Nat) : Byte := if s.otp.wrow.getLsbD 3 || sel = 0 then 0 else BitVec.ofNat 8 (0x80 + (sel - 1))

/-- A TMUX_A entry has reached Peony: the selection stands, and its line is answered (R668); a line that a host-core restart
ends has not acted (R233). -/
def tmuxAcked (b : Byte) (s : State) : State :=
  let s := s.modHost fun h => { h with tmuxSent := b }
  forAll (waiters s fun w => match w with | .tmux n => s.host.restart.isNone && tmuxByte s n == b | _ => false) (fun k s => match k.2 with
    | .tmux n => ok k.1 (s.modHost fun h => { h with selA := n })
    | _ => s) s

/-- What Aster knows from an acknowledged CONTROL entry: the band code of the next reload (R446), a diagnosis that it has
started (R305), the trim of the ticks from the next reload on (R538), the TMUX_A byte (R668), the isolation of E2 (R481). -/
def controlAcked (e : Nat × List Byte) (s : State) : State :=
  let b := nth e.2 0 0
  let diag (x : Axis) (s : State) : State :=
    if b = 1 then s.modLoop x fun l => { l with diagRun := l.wantDiag || l.diagRun, wantDiag := false } else s
  if e.1 = 0xF00 ∨ e.1 = 0xF01 then
    s.modLink fun l => { l with bandTo := l.bandTo.set (if e.1 = 0xF00 then .a else .b) b.toNat }
  else if e.1 = 0xF02 then diag .a s
  else if e.1 = 0xF03 then diag .b s
  else if e.1 = 0xF20 then s.modLink fun l => { l with trimTo := toSigned 16 (ofLe e.2) }
  else if e.1 = 0xF10 then s.modPwr fun p => { p with iso := true }
  else if e.1 = 0xF30 then tmuxAcked b s
  else s

/-- A DOWN frame has been acknowledged: `clear` completes (R302), its CONTROL entries leave the queue, and a SWITCH counts as
received. -/
def downAcked (f : DownFrame) (s : State) : State :=
  let m : BitVec 2 := (if f.ga.cmd = 6 then 1 else 0) ||| (if f.gb.cmd = 6 then 2 else 0)
  let s := s.modLink fun l => { l with down := none, downRetry := false, wordsTo := { a := f.ga, b := f.gb } }
  let s := if f.dtype = 5 then
      let go := parseEntries 16 f.delta
      forAll go controlAcked (s.modLink fun l => { l with control := l.control.filter fun e => !go.contains e })
    else if f.dtype = 2 then { s with commit := s.commit.map fun c => { c with swAck := c.sw.isSome } }
    else s
  clearSent (m &&& s.link.clear) (s.tick + 1) s

/-- The state of a segment of Peony after its verdict: a first NAK calls for the retry, a second one loses it (R74). -/
def SegState.verdict (hit : Byte) : SegState → SegState
  | .out bs t => if tokenAck (some t) hit then .acked else .again bs
  | .retried _ t => if tokenAck (some t) hit then .acked else .lost
  | q => q

/-- VERDICT_TOKEN: the token of a segment reaches its sender, with `lane.hit` flipped in it on the lanes (R72, R74). For a DOWN
frame `lane.noise` is what the lanes did to the frame: Peony judges it and answers; its retry is counted here, since it follows at once. -/
def execVerdictToken (seg : Seg) (lane : Lane) (s : State) : Out :=
  .next (match seg with
    | .ut => s.modPe fun p =>
      let carried : Option (List Byte) := match p.ut with
        | .out bs t | .retried bs t => if tokenAck (some t) lane.hit then some bs else none
        | _ => none
      match carried with
        | some bs => utAcked bs p
        | none => { p with ut := p.ut.verdict lane.hit }
    | .uc => s.modPe fun p => { p with uc := p.uc.verdict lane.hit }
    | .down => match s.link.down with
      | none => s
      | some f =>
        let r := judgeDown (onLane f.bytes lane.noise) s
        let s := r.2
        if tokenAck r.1 lane.hit then downAcked f s
        else if s.link.downRetry then s.modLink fun l => { l with down := none, downRetry := false, downLost := true }
        else bump 0x7821 (s.modLink fun l => { l with downRetry := true }))

/-! ### Gaps on Aster (R75-R78, R81) -/

/-- Consecutive gaps on Aster with the present tick, as far as it has gone (R75). -/
def State.gapNow (s : State) : Nat := if !s.link.gotUc || s.link.downLost then s.link.gapRun + 1 else s.link.gapRun

/-- Whether an E:LINK_GAP that Aster raised is latched, with a detail. -/
def State.gapLatched (s : State) (info : Nat) : Bool := s.faults.any fun f => f.kind == 5 && f.die == .aster && f.info == info

/-- E:LINK_GAP of Aster (R77, R78, R81); the detail tells a stuck FLT_L and a telemetry timeout apart. -/
def asterGap (info : Nat) (s : State) : State := asterFault 0x05 3 0 s.vmArg info s

/-- E_LINK_GAP (R77): the consecutive gaps on Aster reach `lnk.gap_limit`. -/
def execELinkGap (s : State) : Out :=
  .next (if s.ticking && !s.link.gapFired && s.parN 0x3000 ≤ s.gapNow then
      asterGap 0 (s.modLink fun l => { l with gapFired := true })
    else s)

/-- TELEMETRY_TIMEOUT (R78): no UT accepted for 2 ms. -/
def execTelemetryTimeout (s : State) : Out :=
  .next (if s.ticking && 2000 ≤ s.since s.link.utAt && !s.gapLatched 2 then asterGap 2 s else s)

/-- FLT_L_STUCK (R81). -/
def execFltLStuck (s : State) : Out :=
  .next (if s.ticking && s.link.low && !s.link.flt && 2000 ≤ s.since s.link.lowAt && 2 ≤ s.link.bst4 && !s.gapLatched 1 then
      asterGap 1 s
    else s)

/-! ### SAFE (R631-R634) -/

/-- The device state changes, with its notice (R632). -/
def enterDev (d : Dev) (name : String) (s : State) : State := notice 1 (txt "state " ++ txt name) { s with dev := d }

/-- RUN ends in SAFE (Table 19-5): FLT_L falls and both axes stop; a commit and the charger go on under R634, R635. -/
def enterSafe (bit : Nat) (s : State) : State :=
  let s := stopBoth 4 (noteRelease (asterFlt s))
  let s := { logAster 0x23 0 bit (if s.dev == .run then 0 else s.pwr.wakeSrc.toNat) s with fltN := true }
  enterDev .safe "SAFE" s

/-- A SAFE cause arises (Table 19-4): it is recorded, and a device in RUN enters SAFE. -/
def safeCause (bit : Nat) (s : State) : State :=
  let s := { s with safe := s.safe ||| BitVec.ofNat 6 (2 ^ bit) }
  if s.dev == .run then enterSafe bit s else s

/-! ### Training (R86-R90, R623, R624, R629, R744) -/

/-- Whether a training may make attempts: in the boot, at an exit from sleep, or as a retraining. -/
def State.training (s : State) : Bool := s.boot == .train || s.pwr.step == .leaving || s.link.retrain

/-- The end of an attempt: the dies that hold a fault pull FLT_L low again, which is no new assertion (R744). -/
def attemptOver (s : State) : State := fltSync (s.modLink fun l => { l with hdrOk := false, freed := false })

/-- Every attempt has failed (R33, R90, R629). The tick in which the last one fails is the first of the 16 further gap ticks (DESIGN
CHOICE, log 118). -/
def trainFailed (s : State) : State :=
  let s := s.modLink fun l => { l with retrain := false, gapAfter := some 0 }
  if s.boot == .train then
    safeCause 0 { s with boot := .analog, etime := s.etime + BitVec.ofNat 48 (Config.bootUs s.free), free := s.free + 1 }
  else if s.pwr.step == .leaving then safeCause 0 s
  else s

/-- An attempt ends without success. Before the next one Aster holds the link reset (R629), in which Peony loses NCK (R80). -/
def attemptFailed (s : State) : State :=
  let s := attemptOver (s.modLink fun l => { l with lostTries := l.lostTries + 1 })
  if s.link.tries = 0 then trainFailed s
  else fltSync (nckLost (s.modLink fun l => { l with held := true, needLoad := l.needLoad || s.pwr.step == .leaving }))

/-- The *release* of an axis that Aster's reset or its link reset has started ends when its time has passed. -/
def endOldRelease (x : Axis) (s : State) : State :=
  let a := s.pe.ax.get x
  match a.latch with
  | .relE => if a.rel.t ≤ s.since a.rel.since then enterRest x s else s
  | .relS => if a.rel.soft ≤ 80 * s.since a.rel.since then enterRest x s else s
  | _ => s

/-- What the link reset has done when an attempt is to start (R623, R624, R642): in a boot after a reset other than `por`, ETIME has
passed `prot.release_t` + 100 us since the reset; Peony has answered FLT_L, a *release* has ended, and with both axes in *rest* the
Peony core has reset. -/
def linkResetHeld (s : State) : State :=
  let wait := s.parN 0x4821 + 100
  let s := if s.link.held && s.boot == .train && s.cause != .por && s.since s.resetAt < wait then
      { s with etime := s.resetAt + BitVec.ofNat 48 wait } else s
  if !s.link.held || s.pe.fresh then s
  else
    let s := forAll axes2 (fun x s => endOldRelease x (enterE x s)) s
    if axes2.all fun x => (s.pe.ax.get x).latch == .rest then coreReset false s else s

/-- Whether an axis is still in *release* on Peony, for which the link reset waits (R642). -/
def State.inRelease (s : State) : Bool := axes2.any fun x => match (s.pe.ax.get x).latch with
  | .relS | .relE => true
  | _ => false

/-- Steps 1 to 4 of an attempt (Table 3-11): NCK starts, both dies release FLT_L, which must read high, and the patterns pass or
do not. A line that something outside has pulled low reads high or not by a free value. -/
def startAttempt (pattern : Bool) (s : State) : State :=
  let high := !s.link.outside || Config.fltHigh s.free
  let s := bump 0x7827 { s with free := s.free + 1 }
  let s := s.modPe fun p => { p with nck := true, linked := false, reply := none, rx := none }
  let s := fltSync (s.modLink fun l =>
    { l with tries := l.tries - 1, hdrOk := pattern && high, hdrs := 0, up := false, held := false, freed := true,
             outside := l.outside && !high })
  if pattern && high then s else attemptFailed s

/-- TRAINING_ATTEMPT (Table 3-11, R629): an attempt that still waits for its reply has failed; the next one starts once the link
reset before it is over. -/
def execTrainingAttempt (ok : Bool) (s : State) : Out :=
  .next (if !s.training || !s.pe.powered then s
    else
      let s := if s.link.hdrOk then attemptFailed s else s
      let s := linkResetHeld s
      if s.link.tries = 0 || !s.training || (s.link.held && s.inRelease) then s else startAttempt ok s)

/-- The training header that Aster sends (R87): the TICK of the first tick after the training, P and WROW. P is that of the set
that SETP reports (R91). -/
def headerBytes (s : State) : List Byte :=
  let t : W32 := if s.boot == .train then 0 else s.tick + 1
  segment (0xE0 :: leBytes 4 t.toNat ++ leBytes 2 (tickLen (s.parN 0x3400)) ++ [s.wrowBits.zeroExtend 8])

/-- Peony accepts a training header (R20, R87, R88): TICK starts at its value at the first reload, P is taken, WROW is latched the
first time, and the reply shows PSTAT before its bit 3 is cleared. -/
def takeHeader (bs : List Byte) (p : Peony) : Peony :=
  let wrow := p.wrow.getD ((nth bs 8 0).extractLsb' 0 3)
  { p with tick := BitVec.ofNat 32 (ofLe ((bs.drop 2).take 4)) - 1, hdrP := ofLe ((bs.drop 6).take 2), wrow := some wrow, fresh := false,
           reply := some (segment [0xF0, 0x43, wrow.zeroExtend 8, pstatByte p]) }

/-- TRAINING_HEADER: Aster sends its header, up to four times in an attempt (Table 3-11), with noise on the lanes; Peony takes one
whose CRC passes. -/
def execTrainingHeader (noise : List Byte) (s : State) : Out :=
  .next (if !s.link.hdrOk || 4 ≤ s.link.hdrs || !s.pe.powered then s
    else
      let bs := onLane (headerBytes s) noise
      let s := s.modLink fun l => { l with hdrs := l.hdrs + 1 }
      if segmentOk 11 0xE bs && nth bs 1 0 == 0xE0 then s.modPe (takeHeader bs) else s)

/-- The boot load or the load of R501: 133 RUN blocks, all ready to send (R628). -/
def startLoad (s : State) : State :=
  let blocks := loadBlocks (image s s.set)
  let c : Commit :=
    { load := true, by_ := .line .h, ents := [], phase := .stream, blocks := blocks, made := blocks.length,
      queue := List.range blocks.length, opened := false, start := s.mtick, window := 0, sw := none, swAck := false,
      setp0 := s.link.setp, recOk := true, gen := 0, applied := none, err := 0, piece := s.etime }
  { s.modLink fun l => { l with needLoad := false, five := false } with commit := some c }

/-- What Aster knows of a Peony core that has reset (R623): no axis is latched, and the run-time area is empty, so that its fields
go out again. -/
def peonyFresh (s : State) : State :=
  let s := s.modLink fun l => { l with rests := 0, trim := 0, trimTo := 0, band := .both 0, bandTo := .both 0, words := .both .off, wordsTo := .both .off }
  let s := forAll axes2 (fun x s => s.modLoop x fun l => { l with relAt := none, diagRun := false }) s
  { (s.modChg fun c => { c with sent := none }).modHost fun h => { h with tmuxSent := 0 } with temp := { s.temp with sent := .both none } }

/-- A retraining has found the Peony core reset: its configuration is lost, so a commit that runs ends, and the complete Peony side
crosses again as after an exit (DEDUCED from R743 and R501, log 101). -/
def reload (s : State) : State :=
  startLoad (if s.commit.any (!·.load) then abortCommit 45 s else s)

/-- The start tap of a training: LINK_TRIM[3:0] of the wired row (R565, Table 3-11). -/
def State.startTap (s : State) : Nat := (s.otp.wrow.extractLsb' 6 4).toNat

/-- The training has succeeded (R88, R89, R93): every sequence number is 0, the extension of DSEQ is rebased when the Peony
core has reset, and SETP is known. A boot goes on with its first tick and its load (Table 19-2). -/
def trained (pstat : Byte) (s : State) : State :=
  let boot := s.boot == .train
  let fresh := pstat.getLsbD 3
  let s := s.modLink fun l =>
    { l with up := true, utSeq := 0, ucSeq := 0, downSeq := 0, tries := 0, retrain := false, goodRun := 0,
             gapAfter := if l.gapFired then some 0 else none, setp := pstat.getLsbD 0, tap := some (Config.taps s.free s.startTap),
             utAt := s.etime, down := none, downRetry := false, bst := 0, bstSeen := false, back := 0, rot := 0 }
  let s := { s with free := s.free + 1 }
  let s := s.modPe fun p => { p with linked := true, utSeq := 0, ucSeq := 0, downSeq := 0, ut := .idle, uc := .idle, reply := none,
                                     an := { p.an with rot := 0 } }
  let s := if fresh then peonyFresh (s.modLog fun l => { l with base := match l.merged with | some m => m + 1 | none => 0 }) else s
  let s := syncClk (commitSetp (pstat.getLsbD 0) true (attemptOver s))
  if boot then
    let us := Config.bootUs s.free
    startLoad { s with boot := .load, ticking := true, first := true, tick := 0 - 1, mtick := 0, acc := 0, msDue := false,
                       bounds := [], etime := s.etime + BitVec.ofNat 48 us, free := s.free + 1 }
  else if fresh && s.pwr.step != .leaving then reload s
  else s

/-- TRAINING_REPLY (R88): the reply of Peony on its way, with noise. One whose CRC fails is no reply; a wrong PID or ECHO fails
the attempt. -/
def execTrainingReply (noise : List Byte) (s : State) : Out :=
  .next (match s.pe.reply with
    | none => s
    | some r =>
      let bs := onLane r noise
      let s := s.modPe fun p => { p with reply := none }
      if !s.link.hdrOk || !segmentOk 7 0xF bs || nth bs 1 0 != 0xF0 then s
      else if nth bs 2 0 != 0x43 || (nth bs 3 0).extractLsb' 0 3 != s.wrowBits then attemptFailed s
      else trained (nth bs 4 0) s)

/-- RETRAIN (R90, R91): 16 consecutive gaps after E:LINK_GAP, or after a training that failed. `lnk.train.tries` is the value
that the device booted with (R180). -/
def execRetrain (s : State) : Out :=
  .next (if s.ticking && s.link.gapFired && s.link.gapAfter.any (16 ≤ ·) && !s.link.retrain then
      s.modLink fun l => { l with retrain := true, tries := (s.bootPar 0x3010).toNat, gapAfter := none, hdrOk := false }
    else s)

end Sys2Proof.Machine
end

