-- ==== Sys2Proof/Machine/Fram.lean ====
section
/-! DEFINITION. The FRAM port (R103-R106): the end of a transaction, what a completed request does for its user, what a failed
one does (R120, R198, R199, R203, R228, R415), and ageing. -/

namespace Sys2Proof.Machine

/-- The line that waits for a base slot (R203, R204); the fold has none. -/
def baseReply (u : BaseUse) (t : Text) (s : State) : State :=
  forAll (waiters s (· == .base u)) (fun k s => answer k.1 t s) s

/-- A dump whose read has failed (R95). The spec gives it no reply; it is answered `err 45` (DESIGN CHOICE, log 97). -/
def dumpFailed (x : Sess) (s : State) : State := match runningCall s x with
  | some (k, .dump _ _) => fail k 45 s
  | _ => s

/-- The ends of the learned envelopes of an axis in the slot not in force, and the commit of R415: `axX.env.slot` and
`axX.env.valid`, for both axes of a pair; `err 41` while a commit runs. -/
def learnWritten (x : Axis) (s : State) : State := match (s.mot.get x).learn with
  | none => s
  | some _ =>
    if s.commit.isSome then learnEnd x (errText 41 none) s
    else
      let put (y : Axis) (s : State) : State := match (s.mot.get y).learn with
        | none => s
        | some g =>
          let slot := 1 - s.fram.envSlot.get y
          s.modFram fun f =>
            { f with env := ((axIdx y, slot, 0), g.recPos) :: ((axIdx y, slot, 1), g.recNeg) ::
                f.env.filter fun e => e.1 != (axIdx y, slot, 0) && e.1 != (axIdx y, slot, 1) }
      let xs := learnAxes s x
      let ents : Store := xs.foldl (fun m y =>
        storePut (storePut m (axId y 0x1A8) 1) (axId y 0x1A9) (1 - s.fram.envSlot.get y : Nat)) []
      let by_ := (waiters s (· == .calLearn x)).head?.map fun k => k.1.x
      calCommit (by_.getD .h) x ents (forAll xs put s)

/-- The contents of RB0 and of RB1 (Table 15-4). -/
def bank0 (s : State) : Bank0 :=
  let h := s.sess.h
  { set := s.prm.now, gen := s.prm.gen, fram := s.prm.fram, unsaved := s.prm.unsaved, selA := s.host.selA, selD := s.host.selD,
    machine := h.machine, echo := h.echo, auto := h.auto, subs := h.subs, stored := h.stored, lastSeq := h.lastSeq }
def bank1 (s : State) : Bank1 :=
  { cnt := s.cnt, lines := s.sess.h.lines, errs := s.sess.h.errs, vlog := s.log.vlog, vseq := s.log.vseq,
    lat := { a := s.pos.a.lat, b := s.pos.b.lat }, cause := s.host.cause }
/-- The sleep image of a bank has been written (R487). -/
def sleepImage (b : Nat) (s : State) : State :=
  let s := if b = 0 then s.modFram fun f => { f with rb0 := some (bank0 s) } else s.modFram fun f => { f with rb1 := some (bank1 s) }
  s.modPwr fun p => { p with images := p.images ||| BitVec.ofNat 2 (2 ^ b) }

/-- What a completed request does (Table 4-5). -/
def framDone (op : FramOp) (s : State) : State := match op with
  | .prefetchSeg x => segArrived x s
  | .prefetchEnv x k => s.modMot x fun m => { m with envBlk := (k :: m.envBlk.filter (· != k)).take 2 }
  | .logEntry => logWritten s
  | .record => armReady (buildReady (recordDone s))
  | .mark st gen =>
    let s := markRecord st gen s
    if st = 0x33 && s.host.restart.isNone then finishCommit s else s
  | .profile x p => armReady (buildReady (profileDone x p s))
  | .base u vals =>
    let s := writeBase vals s
    baseReply u (txt "ok") { s with prm := { s.prm with unsaved := s.prm.unsaved && u != .save } }
  | .envSlot x => learnWritten x s
  | .intent w v => s.modFram fun f => { f with intent := some (w, v) }
  | .otpState => otpSaved s
  | .auth n lock => s.modFram fun f => { f with tries := n, lockout := lock }
  | .pins n => pinsReleased n s
  | .header => writeHeader s
  | .ops x => s.modFram fun f => { f with ops := f.ops.set x (s.mot.get x).ops }
  | .image b => sleepImage b s
  | .logRead x => dumpRead x s
  | .hostRead => s

/-- How often a failed transaction of a request is tried in all; none is without end (R120, R198, R199, R228). -/
def framTries : FramOp → Option Nat
  | .prefetchSeg _ | .prefetchEnv _ _ => none
  | .logEntry => some 4
  | .mark _ _ => some 3
  | .header | .ops _ => some 3
  | _ => some 1

/-- What a request that has failed does. A record stays PENDING with a failing CRC and is then marked VOID (R198, R200; DESIGN
CHOICE, log 36). A VOID mark that fails leaves its record PENDING, which a boot skips and which holds the fold back (R200, R202;
DESIGN CHOICE, log 38). A DONE mark that fails in a host-core restart is asked for again at its end (R233). A base slot whose write fails is no longer valid (R203; DESIGN CHOICE, log 47). An OTP operation whose state table fails goes on
(DESIGN CHOICE, log 127). -/
def framFailed (op : FramOp) (s : State) : State := match op with
  | .logEntry => logDropped s
  | .record => abortCommit 45 (leaveRecord s)
  | .profile _ _ => if s.commit.any (·.applied.isNone) then abortCommit 45 s else s
  | .mark st gen =>
    if st = 0x33 && s.host.restart.isNone then
      let s := logAster 0x54 0 0 gen.toNat { s with prm := { s.prm with unsaved := true } }
      finishCommit s
    else s
  | .base u _ => baseReply u (errText 45 none) (s.modFram (putSlot none))
  | .envSlot x => learnEnd x (errText 45 none) s
  | .intent _ _ => otpFinish (errText 45 none) s
  | .otpState => otpGo s
  | .logRead x => dumpFailed x s
  | _ => s

/-- The place of a request that goes on: by its age, before those that came after it (R104, R106). -/
def framBack (r : FramReq) : List FramReq → List FramReq
  | [] => [r]
  | q :: rs => if r.at_.toNat ≤ q.at_.toNat then r :: q :: rs else q :: framBack r rs

/-- A request with a transaction still to do waits again; that of the log queue takes the priority that the queue now has
(R116, R228). -/
def framAgain (r : FramReq) (s : State) : State :=
  let r := if r.op == .logEntry then
      let p := logPrio s.log.queue
      { r with prio := p, aged := r.aged && p != 2 }
    else r
  s.modFram fun f => { f with queue := framBack r f.queue }

/-- A transaction of a request has ended: the next one waits, or the request is complete; a failed one is repeated, or the request
fails. -/
def framEnd (ok : Bool) (r : FramReq) (s : State) : State :=
  if ok then (if 1 < r.left then framAgain { r with left := r.left - 1 } s else framDone r.op s)
  else if (framTries r.op).all (r.tries + 1 < ·) then framAgain { r with tries := r.tries + 1 } s
  else framFailed r.op s

/-- The transaction in progress has ended (R103): the port arbitrates again before the next one, of the same request or of another.
FRAM that does not answer fails every transaction. -/
def execFramTransactionDone (ok : Bool) (s : State) : Out := .next (match s.fram.cur with
  | none => s
  | some r => framPick (framEnd (ok && s.fram.present) r (s.modFram fun f => { f with cur := none })))

/-- Whether a request may age: priority 3 to 5, and 2 ms of waiting (R106). -/
def mayAge (now : W48) (r : FramReq) : Bool := !r.aged && decide (3 ≤ r.prio) && decide (2000 ≤ (now - r.at_).toNat)

/-- Marks the oldest request that may age. -/
def ageOne (now : W48) : List FramReq → List FramReq
  | [] => []
  | r :: rs => if mayAge now r then { r with aged := true } :: rs else r :: ageOne now rs

/-- FRAM_REQUEST_AGED (R106): a request of priority 3 to 5 has waited 2 ms; one with a transaction in progress and others still to
do counts as waiting. -/
def execFramRequestAged (s : State) : Out :=
  .next (match s.fram.cur.filter fun r => mayAge s.etime r && decide (1 < r.left) with
    | some r => bump 0x7834 (s.modFram fun f => { f with cur := some { r with aged := true } })
    | none =>
      let q := ageOne s.etime s.fram.queue
      if q == s.fram.queue then s else bump 0x7834 (s.modFram fun f => { f with queue := q }))

end Sys2Proof.Machine
end

