-- ==== Sys2Proof/Machine/Power.lean ====
section
/-! DEFINITION. RUN, STOP and WATCH (chapter 15): the checks of `sleep`, entry with its abort points, what sleep keeps, the
crocus pass, wake sources, the exit, and the VCORE requests. The steps that fall on a tick (the end of the flush, the
CONTROL entry 0xF10, the power-down of the Peony core) are called by the tick. -/

namespace Sys2Proof.Machine

/-! ### The checks of Table 15-2 and E0 -/

/-- The bit of a bank word (Table 15-2). -/
def bankBit (t : Text) : Option (BitVec 4) :=
  if t == txt "RB0" then some 1 else if t == txt "RB1" then some 2 else if t == txt "RB2" then some 4
  else if t == txt "RB3" then some 8 else none

/-- The wake bits that can act in a state (Table 15-6). -/
def wakeCan (s : State) (watch : Bool) : Byte :=
  if watch then 0x6F else 0x0F ||| (if s.par 0x4002 == 1 && s.par 0x4003 != 0 then 0x10 else 0)

/-- The conditions of Table 15-2, in order. -/
def sleepCheck (s : State) (x : Sess) (watch : Bool) (args : List Text) : Option (Nat × Option Nat) :=
  if x != .h || s.dev != .run then some (30, none)
  else if axes2.any fun y => (s.loop.get y).st != .disarmed then some (34, none)
  else if s.faulty then some (33, none)
  else if s.commit.isSome || s.otp.run.isSome ||
      sessions.any fun y => y != x && ((s.ses y).running.isSome || !(s.ses y).waiting.isEmpty) then some (41, none)
  else if args.any fun t => (bankBit t).isNone then some (17, none)
  else if BitVec.ofNat 8 (s.parN 0x4008) &&& wakeCan s watch = 0 then some (30, some 0x4008)
  else none

/-- E0 and the start of E1 (Table 15-3, R493, R514): the values of the entry are taken, the crocus references are recorded, and
the images of RB0 and RB1 that are not retained go to FRAM. -/
def sleepStart (watch : Bool) (args : List Text) (k : Call) (s : State) : State :=
  let banks : BitVec 4 :=
    if watch then BitVec.ofNat 4 (s.parN 0x4001)
    else if args.isEmpty then BitVec.ofNat 4 (s.parN 0x4000)
    else args.foldl (fun m t => m ||| (bankBit t).getD 0) 0
  let s := s.modPwr fun p =>
    { p with step := .flush, watch := watch, banks := banks, mask := BitVec.ofNat 8 (s.parN 0x4008), period := s.parN 0x4010,
             timer := if s.par 0x4002 == 1 then s.parN 0x4003 else 0, edge := BitVec.ofNat 2 (s.parN 0x4009), lpoOn := watch || s.par 0x4002 == 1,
             confirm := s.parN 0x4013, src := BitVec.ofNat 6 (s.parN 0x4012), hdr := false, iso := false, abort := none, woken := 0,
             refHall := { a := s.pos.a.hall, b := s.pos.b.hall },
             refQuad := { a := BitVec.ofNat 2 (flagBits [s.pos.a.qa, s.pos.a.qb]),
                          b := BitVec.ofNat 2 (flagBits [s.pos.b.qa, s.pos.b.qb]) },
             fails := List.replicate 6 0, noRsp := 0, images := 0, vcoreFail := none }
  let image (b : Nat) (s : State) : State := if banks.getLsbD b then s else framAsk 4 (.image b) 512 s
  waitFor k .sleep (image 1 (image 0 s))

/-- `sleep stop` and `sleep watch` (R480): more arguments than the line takes are `err 18`. -/
def cmdSleep (watch : Bool) (args : List Text) (k : Call) (s : State) : State :=
  if (if watch then !args.isEmpty else 4 < args.length) then fail k 18 s
  else match sleepCheck s k.x watch args with
    | some (e, none) => fail k e s
    | some (e, some id) => failAt k e id s
    | none => sleepStart watch args k s

/-- SLEEP_STOP. -/
def execSleepStop (x : Sess) (banks : List Text) (s : State) : Out := direct x "sleep" (cmdSleep false banks) s

/-- SLEEP_WATCH. -/
def execSleepWatch (x : Sess) (args : List Text) (s : State) : Out := direct x "sleep" (cmdSleep true args) s

/-! ### Abandoning (R484, R486, R515) -/

/-- The `sleep` line is answered. -/
def sleepReply (t : Text) (s : State) : State := forAll (waiters s (· == .sleep)) (fun k s => answer k.1 t s) s

/-- What abandons the entry, if anything: an event asked for, or a fault that is latched (R484). -/
def sleepAbandons (s : State) : Option AbortSrc := match s.pwr.abort with
  | some a => some a
  | none => if s.faulty then some .fault else none

/-- The notices of the latched faults that an entry into WATCH has kept back (R486). -/
def keptNotices (s : State) : State := forAll s.faults (fun f s => faultNotice "fault" (kindText f.kind) f.axes f.tick s) s

/-- The device is back in RUN: a fault that an entry into WATCH has kept back is told, and the line is answered `ok run`. -/
def sleepBack (s : State) : State :=
  let w := s.pwr.watch
  let s := s.modPwr fun p => { p with step := .awake, watch := false, abort := none, woken := 0 }
  sleepReply (txt "ok run") (when_ w keptNotices s)

/-- The record of an abandoned STOP entry: SLEEP_ABORT with the abort point and the source, and `pwr.abort_count`. What names a
fault and a restart is a free value (log 72). -/
def sleepAbortLog (ap : Nat) (a : AbortSrc) (s : State) : State :=
  let src : Nat := match a with
    | .wake _ => s.pwr.woken.toNat
    | .fault => (Config.abortSource false s.pwr.woken).toNat
    | .restart => (Config.abortSource true s.pwr.woken).toNat
  bump 0x4040 (logAster 0x24 0 ap src s)

/-! ### The entry (Table 15-3) -/

/-- E1 at a reload: the header copy follows the last entry of the log queue (R660), and when nothing waits for FRAM the flush
ends at AP2. A WATCH entry of a host core that restarts ends here (R486). -/
def sleepFlush (s : State) : State :=
  if s.pwr.step != .flush then s
  else if s.pwr.watch && s.host.restart.isSome then sleepBack s
  else if !s.log.queue.isEmpty || !s.log.hold.isEmpty then s
  else if !s.pwr.hdr then
    let s := s.modPwr fun p => { p with hdr := true }
    if s.fram.present then framAsk 4 .header 1 (s.modLog fun l => { l with since := 0 }) else s
  else if s.fram.cur.isSome || !s.fram.queue.isEmpty then s
  else match (if s.pwr.watch then none else sleepAbandons s) with
    | some a => sleepBack (sleepAbortLog 2 a s)
    | none => s.modPwr fun p => { p with step := .isolate }

/-- E2 at an ms tick: the CONTROL entry 0xF10 goes into the next DOWN frame (R481). -/
def sleepMs (s : State) : State :=
  if s.pwr.step != .isolate || s.pwr.iso || (s.link.control.any fun e => e.1 == 0xF10) then s
  else s.modLink fun l => { l with control := l.control ++ [(0xF10, [0x5A])] }

/-- A WREQ frame: bit 0 asks the island to power up the Peony core (R495). -/
def wreqFrame (wake : Bool) : List Byte :=
  let d : Byte := if wake then 1 else 0
  0x9B :: d :: crcBytes [d]

/-- The exit reaches the wake of the Peony core (X7): the wake request goes out, the core powers up from the island, and training starts
(X8). WRSP tells whether the island has kept the configuration (R501, Table 15-9). -/
def wakePeony (s : State) : State :=
  let s := coreReset true s
  let s := s.modLink fun l =>
    { l with tries := (s.bootPar 0x3010).toNat, lostTries := 0, hdrOk := false, retrain := false, control := [], ctlOpen := false,
             up := false, down := none, needLoad := !s.pe.isl.valid }
  s.modPwr fun p => { p with pmbus := 0, wreq := wreqFrame true }

/-- The Peony core has lost its power and the ledger stops (750 us of Table 15-3). STOP checks AP3; an entry that goes on sends
its notice and its reply, and leaves the bus (R482, R555). -/
def sleepIsolated (s : State) : State :=
  if s.pwr.step != .isolate || s.pe.powered then s
  else
    let s := { s with ticking := false }
    match (if s.pwr.watch then none else sleepAbandons s) with
    | some a => (wakePeony (sleepAbortLog 3 a s)).modPwr fun p => { p with step := .leaving, abort := some a }
    | none =>
      let close (t : Tunnel) : Tunnel := if t.opened then { t with queue := [(4, 0, true, [])], unack := none } else t
      let s := if s.pwr.watch then sleepReply (txt "ok watch") (enterDev .watch "WATCH" s)
               else sleepReply (txt "ok stop") (enterDev .stop "STOP" s)
      let s := (s.modBus fun b => { b with tun := b.tun.map close }).modPwr fun p => { p with step := .drain, isoCore := true }
      { s with fltN := false }

/-! ### What sleep keeps (Tables 15-1, 15-4) -/

/-- RB0 without power. The values of the `reset` parameters that the device has booted with stay in AON. -/
def Bank0.lost : Bank0 :=
  { set := [], gen := 0, fram := false, unsaved := false, selA := 0, selD := 0, machine := false, echo := true, auto := true,
    subs := 3, stored := none, lastSeq := -1 }

/-- Fills RB0. -/
def putBank0 (b : Bank0) (s : State) : State :=
  let s := s.modSes .h fun h => { h with machine := b.machine, echo := b.echo, auto := b.auto, subs := b.subs, stored := b.stored, lastSeq := b.lastSeq }
  { s.modHost fun h => { h with selA := b.selA, selD := b.selD } with
    prm := { s.prm with now := b.set, gen := b.gen, fram := b.fram, unsaved := b.unsaved } }

/-- Fills RB1; none is a bank as a reset of Aster leaves it. The count of passes stands in AON (R491). -/
def putBank1 (b : Option Bank1) (s : State) : State :=
  let cnt := match b with | some b => b.cnt | none => []
  let cnt := match storeGet s.cnt 0x7886 with | some v => storePut cnt 0x7886 v | none => cnt
  let lat (p : AxPos) (l : Latch × Latch) : AxPos := { p with lat := l }
  let l : Pair (Latch × Latch) := match b with | some b => b.lat | none => .both AxPos.reset.lat
  let s := s.modSes .h fun h => match b with | some b => { h with lines := b.lines, errs := b.errs } | none => { h with lines := 0, errs := 0 }
  { s.modHost fun h => { h with cause := b.bind Bank1.cause } with
    cnt := cnt, pos := { a := lat s.pos.a l.a, b := lat s.pos.b l.b },
    log := match b with | some b => { s.log with vlog := b.vlog, vseq := b.vseq } | none => { s.log with vlog := [], vseq := 1 } }

/-- A session at the entry: H keeps what RB0 and RB1 hold; its staging set is emptied (R483), and the buffers and the notices are
lost. Its level and its challenge end at the exit (R489). -/
def Session.asleep (se : Session) : Session :=
  { Session.closed with
    isOpen := true, machine := se.machine, echo := se.echo, auto := se.auto, level := se.level, subs := se.subs,
    stored := se.stored, lastSeq := se.lastSeq, lines := se.lines, errs := se.errs, charAt := se.charAt, lineAt := se.lineAt }

/-- The position front end keeps its counter (R323) and the latches of RB1. -/
def AxPos.asleep (p : AxPos) : AxPos :=
  { AxPos.reset with pos := p.pos, wrap := p.wrap, qa := p.qa, qb := p.qb, qz := p.qz, latPin := p.latPin, hall := p.hall, lat := p.lat }

/-- The core and late domains of Aster lose their power (R479, R487): what no retained bank holds is lost. -/
def coreLost (s : State) : State :=
  let rb (n : Nat) : Bool := s.pwr.banks.getLsbD n
  let s := if rb 0 then s else putBank0 Bank0.lost s
  let s := if rb 1 then s else putBank1 none s
  let s := busOff s
  let c : Charger := if rb 3 then { s.chg with qualify := true } else Charger.reset
  let b : Bus := if rb 2 then { s.bus with due := [], ready := [], gseq := none }
                 else { Bus.reset with node := s.bus.node }
  let blk (m : AxMot) : AxMot := { AxMot.reset with envBlk := if rb 3 then m.envBlk else [], ops := m.ops }
  { s with
    sess := { h := s.sess.h.asleep, t1 := .closed, t2 := .closed, t3 := .closed, t4 := .closed },
    host := { s.host with turn := 0, stopped := false, waiters := [], crossed := none, tmuxSent := 0,
                          rts := !(s.pwr.mask.getLsbD 2) },
    commit := none,
    link := { ALink.reset with flt := s.faults.any fun f => f.die == .aster, low := s.link.outside, outside := s.link.outside,
                               held := false, off := s.link.off, tap := s.link.tap, setp := s.link.setp, utAt := s.link.utAt,
                               clk := s.link.clk },
    loop := .both AxLoop.reset, pos := { a := s.pos.a.asleep, b := s.pos.b.asleep },
    mot := { a := blk s.mot.a, b := blk s.mot.b }, sc := SinCos.reset, chg := c, bus := b,
    log := { s.log with queue := [], hold := [], await := [] },
    bundleWhy := none, bundleTick := none, tries := 0, lockAt := none,
    fram := { s.fram with queue := [], cur := none } }

/-! ### Wake and exit -/

/-- The voltage a request asks for, in mV: 0.70 V for a sleep, `pwr.vcore.run` (0x4020, in steps of 5 mV) otherwise (R502, R503). -/
def vcoreAsked (s : State) : Nat := if s.pwr.pmbus = 2 then 700 else 5 * (s.bootPar 0x4020).toNat

/-- The linear16 mantissa of a voltage in mV: round(V x 2^-exp) (R502). -/
def linear16 (s : State) (mv : Nat) : Nat := (mv * 2 ^ (-(s.bootPar 0x4023)).toNat + 500) / 1000

/-- The transactions of one try of a request (R502). -/
def pmbusTry (s : State) : List PmbusCmd :=
  let page := (s.bootPar 0x4022).toNat
  (if page = 256 then [] else [.page page]) ++ [.voutCommand (linear16 s (vcoreAsked s)), .readVout, .statusByte]

/-- The PMBus master starts a request: 1 at boot, with OPERATION 0x80 before it, 2 for a sleep, 3 for an exit (R502). -/
def pmbusAsk (k : Nat) (s : State) : State :=
  let s := s.modPwr fun p => { p with pmbus := k }
  s.modPwr fun p => { p with pmAddr := (s.bootPar 0x4021).toNat, pmSeq := (if k = 1 then [.operation 0x80] else []) ++ pmbusTry s }

/-- A request has failed after its three repetitions, each after CLEAR_FAULTS (R502). -/
def pmbusRepeats (s : State) : State :=
  let r := PmbusCmd.clearFaults :: pmbusTry s
  s.modPwr fun p => { p with pmSeq := p.pmSeq ++ r ++ r ++ r }

/-- The set that FRAM gives at a boot, and whether it is not that of a base slot (R200, R201, R633). -/
def persistedSet (s : State) : Bool × Store × W32 :=
  (!s.fram.present || (bestSlot s.fram).isNone, if s.fram.present then loadSet s else (genDefaults s, 0))

/-- The count of wrong responses and a lockout, as FRAM keeps them (R601). The end of the lockout stands; the longest length that
`sec.auth.lock_t` allows places its start. -/
def authBack (s : State) : State :=
  if s.fram.present then
    { s with tries := s.fram.tries, lockAt := s.fram.lockout.map fun e => (e - 3600000000, 3600000000) }
  else s

/-- The bit time of the host UART (R163). -/
def State.bitTime (s : State) : Nat := let b := s.parN 0x5800; (160000000 + b) / (2 * max 1 b)

/-- Whether a bank comes back at an exit from an image whose CRC fails (R488). -/
def imageFails (s : State) (b : Nat) : Bool := !s.pwr.banks.getLsbD b && !s.pwr.images.getLsbD b

/-- A bank that was not retained comes back from its image (R487), or, when the image fails, as a reset of Aster treats it (R488;
DEDUCED, log 125). -/
def restoreBank0 (s : State) : State :=
  if s.pwr.banks.getLsbD 0 then s
  else match (if s.pwr.images.getLsbD 0 then s.fram.rb0 else none) with
    | some b => putBank0 b s
    | none =>
      let r := persistedSet s
      let s := putBank0 { Bank0.lost with set := r.2.1, gen := r.2.2, fram := !r.1 } s
      s.modSes .h fun h => { h with echo := s.par 0x5803 == 1 }
def restoreBank1 (s : State) : State :=
  if s.pwr.banks.getLsbD 1 then s else putBank1 (if s.pwr.images.getLsbD 1 then s.fram.rb1 else none) s

/-- X3 to X6 of an exit (Table 15-7): reverse bias and retention assist end, the domains have power again, the banks are filled, the
clamps are released, the host UART has its bit time, and the host core resumes. -/
def exitResume (s : State) : State :=
  let s := s.modPwr fun p => { p with reverse := false, assist := 0, isoCore := false, isoLate := false }
  let s := authBack (restoreBank1 (restoreBank0 s))
  s.modHost fun h => { h with bit := s.bitTime }

/-- The exit starts (X1, X2): the sources are reported, the LPO counter stops, and the RUN voltage is requested. -/
def startExit (s : State) : State :=
  let s := s.modPwr fun p => { p with step := .leaving, wakeSrc := p.woken, sensEn := false }
  if s.mode then wakePeony (exitResume s) else pmbusAsk 3 s

/-- E3 ends (R481, R504): reverse body bias is applied, and retention assist turns on for the retained banks. A source latched during the
entry starts the exit at once (R485, R486). -/
def sleepEntered (s : State) : State :=
  let s := s.modPwr fun p => { p with bias := false, reverse := true, assist := p.banks }
  if s.pwr.woken = 0 then s else startExit s

/-- A CLOSE has still to go out in a slot of this node (R555). -/
def closing (s : State) : Bool :=
  s.busSync && ownsTunnel s.busSet s.bus.node && s.bus.tun.any fun t => t.opened && !t.queue.isEmpty

/-- LOW_POWER_ENTER (R482): the reply has left TXD. The late domain is isolated, the reference stops, the LPO counter starts, and the
sleep voltage is requested (R503). A crystal LPO that has not started by then gives way to the RC LPO (R508). -/
def execLowPowerEnter (s : State) : Out :=
  .next (if s.pwr.step != .drain || !s.sess.h.out.isEmpty || !s.sess.h.held.isEmpty || closing s then s
    else
      let xtal := s.bootPar 0x4004 == 1 && Config.lpoStarts s.free
      let us := Config.drainUs (s.free + 1)
      let s := coreLost s
      let s := if s.pwr.watch then bumpBy 0x7886 0 (clearCnt 0x7886 s) else s
      let s := { s with etime := s.etime + BitVec.ofNat 48 us, free := s.free + 2 }
      let s := s.modPwr fun p => { p with step := .asleep, es := s.etime, lpo := 0, lpoXtal := xtal, sensEn := false, isoLate := true }
      if s.mode then sleepEntered s else pmbusAsk 2 s)

/-- The output pins that Table 15-5 clamps. -/
inductive ClampPin where
  | txd | rtsN | busTx | ude | irqN | fltN | sensEn | tmuxA | tmuxD
  deriving DecidableEq, Repr

/-- The level of a pin; a released pin and one at high impedance are not driven. -/
inductive PinLevel where
  | low | high | open_
  deriving DecidableEq, Repr

/-- The value at which the isolation cells hold a pin, while they do (R490, Table 15-5). SENS_EN is driven from AON. -/
def State.clamp (s : State) : ClampPin → Option PinLevel
  | .txd | .busTx => if s.pwr.isoLate then some .high else none
  | .ude => if s.pwr.isoLate then some .low else none
  | .rtsN => if s.pwr.isoLate then some (if s.pwr.mask.getLsbD 2 then .low else .high) else none
  | .irqN | .fltN | .tmuxA | .tmuxD => if s.pwr.isoCore then some .open_ else none
  | .sensEn => if s.pwr.isoCore then some (if s.pwr.sensEn then .high else .low) else none

/-- The bit of a wake source (Table 15-6); `vm` comes last. -/
def wakeBit : WakeSrc → BitVec 9
  | .wake0 => 1
  | .wake1 => 2
  | .rxd => 4
  | .bus => 8
  | .timer => 16
  | .pushA => 32
  | .pushB => 64
  | .vm => 256

/-- Whether a source can act in the state that is asked for (R497, Table 15-6). -/
def wakeActs (s : State) (w : WakeSrc) : Bool := match w with
  | .vm => s.pwr.watch
  | .pushA | .pushB => s.pwr.watch && s.pwr.mask.zeroExtend 9 &&& wakeBit w != 0
  | .timer => !s.pwr.watch && s.pwr.timer != 0 && s.pwr.mask.getLsbD 4
  | _ => s.pwr.mask.zeroExtend 9 &&& wakeBit w != 0

/-- A wake source acts: before AP3 it abandons a STOP entry; later, or in a WATCH entry, it is latched; asleep it starts the exit
(R484-R486, R499, R511). -/
def wakeNow (w : WakeSrc) (s : State) : State :=
  if !wakeActs s w then s
  else
    let pins : BitVec 2 := match w with | .wake0 => 1 | .wake1 => 2 | _ => 0
    let latch (s : State) : State := s.modPwr fun p =>
      { p with woken := p.woken ||| wakeBit w, wakePin := (p.wakePin &&& ~~~pins) ||| (p.edge &&& pins) }
    match s.pwr.step with
    | .awake | .leaving => s
    | .flush | .isolate =>
      let s := latch s
      if s.pwr.watch || s.pwr.abort.isSome then s else s.modPwr fun p => { p with abort := some (.wake w) }
    | .drain => latch s
    | .asleep => let s := latch s; if s.pwr.pmbus = 0 then startExit s else s

/-- WAKE. -/
def execWake (src : WakeSrc) (s : State) : Out := .next (wakeNow src s)

/-- SLEEP_ABORT (R484, R515): an event from E0 to AP3 of a STOP entry. -/
def execSleepAbort (src : AbortSrc) (s : State) : Out :=
  .next (if s.pwr.watch || !(s.pwr.step == .flush || s.pwr.step == .isolate) then s
    else match src with
      | .wake w => wakeNow w s
      | .fault => if s.pwr.abort.isNone && (sleepAbandons s).isSome then s.modPwr fun p => { p with abort := some .fault } else s
      | .restart => if s.pwr.abort.isNone && s.host.restart.isSome then s.modPwr fun p => { p with abort := some .restart } else s)

/-- The LPO frequency f in 0.01 Hz (R506). One that has not been measured is a free value (log 73). -/
def lpoHz (s : State) : Nat := if s.pwr.lpoXtal then 3276800 else s.pwr.lpoHz.getD Config.lpoCentihz

/-- STOP_TIMER_EXPIRY (R497): the LPO counter has reached `pwr.stop.timer` (log 114). -/
def execStopTimerExpiry (s : State) : Out :=
  .next (if s.pwr.step == .asleep && wakeActs s .timer then
      wakeNow .timer (s.modPwr fun p => { p with lpo := max p.lpo ((p.timer * lpoHz s + 99) / 100) })
    else s)

/-- Four readings of one sample; none when they disagree (R493). -/
def sampled {n : Nat} : List (BitVec n) → Option (BitVec n)
  | [a, b, c, d] => if a = b ∧ a = c ∧ a = d then some a else none
  | _ => none

/-- Whether each criterion fails its window, in the order of the bits of `pwr.watch.src`; none is unjudged (R493, R496). -/
def crocusFindings (s : State) (hallA hallB : List (BitVec 3)) (quadA quadB : List (BitVec 2)) (rsp : Option Byte) :
    List (Option Bool) :=
  let hall (r : BitVec 3) (l : List (BitVec 3)) : Option Bool := (sampled l).map fun h => h != r || h == 0 || h == 7
  let quad (r : BitVec 2) (l : List (BitVec 2)) : Option Bool := (sampled l).map fun q => q != r
  let bemf (k : Nat) : Option Bool := rsp.map fun b => b.extractLsb' (3 * k) 3 != 0
  [hall s.pwr.refHall.a hallA, quad s.pwr.refQuad.a quadA, bemf 0,
   hall s.pwr.refHall.b hallB, quad s.pwr.refQuad.b quadB, bemf 1]

/-- The data byte of a valid WRSP (R495). -/
def watchRsp : List Byte → Option Byte
  | [a, d, c0, c1] => if a = 0x9B ∧ [c0, c1] = crcBytes [d] then some d else none
  | _ => none

/-- Whether the island can have sent a WRSP: it has its supply, bit 7 tells of its store, and only enabled comparators read 1 (Tables
15-9, 15-10, R512). A frame that it cannot have sent counts as not valid (log 114). -/
def islandSends (p : Peony) (d : Byte) : Bool :=
  let en := memRead p.isl.store 0x162
  !p.an.uvlo && d.getLsbD 7 == p.isl.valid && (en.getLsbD 0 || d.extractLsb' 0 3 == 0) && (en.getLsbD 1 || d.extractLsb' 3 3 == 0)

/-- CROCUS_PASS (R491-R496): the enabled criteria are judged, an unjudged one keeps its count, and a pass may wake the device. -/
def execCrocusPass (hallA hallB : List (BitVec 3)) (quadA quadB : List (BitVec 2)) (wrsp : List Byte) (s : State) : Out :=
  .next (if s.pwr.step != .asleep || !s.pwr.watch || s.pwr.pmbus != 0 then s
    else
      let rsp := (watchRsp wrsp).filter (islandSends s.pe)
      let s := s.modPwr fun p => { p with wreq := wreqFrame false }
      let f := crocusFindings s hallA hallB quadA quadB rsp
      let on (i : Nat) : Bool := s.pwr.src.getLsbD i
      let fails := (List.range 6).map fun i => match nth f i none with
        | some true => if on i then nth s.pwr.fails i 0 + 1 else 0
        | some false => 0
        | none => nth s.pwr.fails i 0
      let failed (i : Nat) : Bool := on i && nth f i none == some true
      let rcd : BitVec 6 := BitVec.ofNat 6 (flagBits ((List.range 6).map failed))
      let push (k : Nat) : Bool := [0, 1, 2].any fun i => failed (3 * k + i) && s.pwr.confirm ≤ nth fails (3 * k + i) 0
      let no := if rsp.isSome then 0 else s.pwr.noRsp + 1
      let s := (bump 0x7886 s).modPwr fun p =>
        { p with fails := fails, noRsp := no, batLow := match rsp with | some b => b.getLsbD 6 | none => p.batLow }
      let m := s.pwr.mask
      let src := (if push 0 && m.getLsbD 5 then wakeBit .pushA else 0) ||| (if push 1 && m.getLsbD 6 then wakeBit .pushB else 0)
                 ||| (if 3 ≤ no then wakeBit .vm else 0)
      if src = 0 then s
      else startExit (s.modPwr fun p => { p with woken := p.woken ||| src, watchRec := rcd }))

/-! ### VCORE (R502, R503) -/

/-- The boot reaches its training (B5-B7): a crystal starts where `sys.clk.ref` selects one. A Peony core that a reset during sleep has
found without power powers up from the island; the spec does not say how (DESIGN CHOICE, log 115). -/
def bootTrain (s : State) : State :=
  let s := if s.pe.powered then s else (coreReset true s).modPwr fun p => { p with wreq := wreqFrame true }
  { s.modLink fun l => { l with tries := (s.bootPar 0x3010).toNat, hdrOk := false } with
    boot := .train, pwr := { s.pwr with pmbus := 0, xtal := s.bootPar 0x0060 != 0 } }

/-- A readback passes within ±2 % of the request (R502, step 3). -/
def readbackPasses (s : State) (mv : Nat) : Bool := 98 * vcoreAsked s ≤ 100 * mv && 100 * mv ≤ 102 * vcoreAsked s

/-- PMBUS_REQUEST_DONE: the request of a boot, of a sleep entry or of an exit has ended; a readback outside ±2 % is no pass (R502). -/
def execPmbusRequestDone (r : PmbusResult) (s : State) : Out :=
  let mv : Nat := match r with | .pass v => v | .fail v => v
  let bad : Bool := match r with | .pass v => !readbackPasses s v | .fail _ => true
  .next (if s.pwr.pmbus = 0 then s
    else
      let k := s.pwr.pmbus
      let s := when_ bad pmbusRepeats s
      let s := s.modPwr fun p => { p with vcore := some mv, pmbus := 0 }
      if k = 1 then bootTrain (when_ bad (safeCause 3) s)
      else if k = 2 then
        sleepEntered (when_ bad (fun s => s.modPwr fun p => { p with vcoreFail := some mv }) s)
      else wakePeony (when_ bad (safeCause 3) (exitResume s)))

/-- LPO_MEASURE (R506). -/
def execLpoMeasure (centihz : Nat) (s : State) : Out :=
  .next (if s.dev == .run && s.pwr.step == .awake then s.modPwr fun p => { p with lpoHz := some centihz } else s)

/-! ### The exit (Table 15-7) -/

/-- The microseconds of a count of LPO cycles (R506). -/
def sleepDelta (s : State) (count : Nat) : Nat :=
  (ratRound (((count * 100000000 : Nat) : Rat) / ((max 1 (lpoHz s) : Nat) : Rat))).toNat

/-- The uncertainty of a sleep time (R506): 2 % for the RC LPO, 50 ppm for the crystal, and one LPO period at each end. -/
def sleepUnc (s : State) (d : Nat) : Nat := (if s.pwr.lpoXtal then (50 * d + 999999) / 1000000 else (2 * d + 99) / 100) + 62

/-- The parameters whose last journal entry has a wrong N (R738). -/
def wrongSized (s : State) : List Nat :=
  let last := (doneRecs s.fram (((bestSlot s.fram).map fun b => b.gen.toNat).getD 0)).foldl (fun m r => r.ents.foldl (fun m e => assocPut e.1 e.2.1 m) m) []
  (last.filter fun e => e.2 != valueBytes e.1).map (·.1)

/-- A persisted value outside its range, or whose journal entry has a wrong N, takes its default, that of the generation in force
among them, and CFG_RANGE names its ID (R200, R584, R738). -/
def rangeCheck (wrong : List Nat) (s : State) : State :=
  let bad (e : Nat × Int) : Bool := wrong.contains e.1 || (match parById e.1 with
    | some p => p.write.isSome && !(decide (p.lo ≤ e.2) && decide (e.2 ≤ p.hi))
    | none => false)
  let out := s.prm.now.filter bad
  let s := { s with prm := { s.prm with now := s.prm.now.map fun e => if bad e then (e.1, s.defaultOf e.1) else e } }
  forAll out (fun e s => logAster 0x53 0 e.1 0 s) s

/-- The entries of a loaded set: CFG_LOST and CFG_RANGE (R200, R201). -/
def setLoaded (lost : Bool) (s : State) : State :=
  rangeCheck (if s.fram.present then wrongSized s else []) (when_ lost (logAster 0x52 0 0 0) s)

/-- What a failed image makes the exit do (R488): a log entry names the bank, and the set that FRAM has given is checked as at a boot
and loaded into Peony. -/
def imageLog (b : Nat) (s : State) : State :=
  if !imageFails s b then s
  else
    let s := logAster 0x28 0 b 0 s
    if b = 0 then setLoaded (!s.prm.fram) (s.modLink fun l => { l with needLoad := true }) else s

/-- The microseconds of the steps of Table 15-7 from the moment at which ETIME runs again to the reload of X10: X3 to X10 after a sleep,
with the rest of X1 for a crystal reference and 620 us per image; X5 to X8 after an abandonment (R484). A training attempt that has
failed adds 230 us (R629). -/
def exitSteps (s : State) (slept : Bool) : Nat :=
  let images := [0, 1].countP fun b => !s.pwr.banks.getLsbD b
  230 * s.link.lostTries +
    (if slept then 3075 + 620 * images + (if s.pwr.xtal then 975 else 0) + Config.exitUs s.free else 1035)

/-- The time across sleep (R506-R508): ETIME takes its converted value and runs on through the exit; MTICK advances and the ms
accumulator restarts. -/
def exitTime (slept : Bool) (count : Nat) (s : State) : State :=
  let p := s.pwr
  let count := max count p.lpo
  let lost := slept && (!p.lpoOn || 2 ^ 40 - 1 ≤ count)
  let d := if slept && !lost then sleepDelta s count else 0
  let e : W48 := (if slept then p.es else s.etime) + BitVec.ofNat 48 (d + exitSteps s slept)
  let s := { s with etime := e, free := s.free + 1 }
  let s := if slept then s.modPwr fun q => { q with sleepUs := d, unc := sleepUnc s d, disc := q.disc || lost, lpo := count } else s
  let s := if lost then logAster 0x25 0 0 (p.es.toNat % 2 ^ 32) s else s
  { s with mtick := s.mtick + BitVec.ofNat 32 (s.since p.em / 1000), acc := 0, etFrac := 0, msDue := false,
           pwr := { s.pwr with em := s.etime } }

/-- The words of the wake sources, lowest bit first. -/
def wakeName (m : BitVec 9) : Text :=
  if m.getLsbD 0 then txt "wake0" else if m.getLsbD 1 then txt "wake1" else if m.getLsbD 2 then txt "rxd"
  else if m.getLsbD 3 then txt "bus" else if m.getLsbD 4 then txt "timer" else if m.getLsbD 5 then txt "push_a"
  else if m.getLsbD 6 then txt "push_b" else txt "vm"

/-- R489: every session returns to USER; H is told when it stood above. -/
def sleepLevels (s : State) : State :=
  let above := s.sess.h.level != .user
  let s := { s with sess := s.sess.map fun se => { se with level := .user, chal := none, bundle := none } }
  if above then noticeTo .h 5 (txt "level USER") s else s

/-- The ledger starts again where the link is up (X10, R58). -/
def exitTicks (s : State) : State := if s.link.up then { s with ticking := true, first := true } else s

/-- A Peony core without its configuration is loaded after X10 (R501). -/
def exitLoad (s : State) : State := if s.link.needLoad && s.link.up then startLoad s else s

/-- The reload of X10 after a sleep (R500, R501, R503). -/
def exitSleep (count : Nat) (s : State) : State :=
  let s := exitTicks (exitTime true count s)
  let s := imageLog 1 (imageLog 0 s)
  let s := match s.pwr.vcoreFail with | some mv => bump 0x7887 (logAster 0x26 0 0 mv s) | none => s
  let s := s.modPwr fun p => { p with step := .awake, watch := false, abort := none, vcoreFail := none, sensEn := true }
  let s := forAll axes2 (fun x s => s.modPos x fun p => { p with valid := false }) s
  let s := syncRts (syncBias (tempRestart s))
  let s := keptNotices s
  let s := notice 1 (txt "wake " ++ wakeName s.pwr.wakeSrc) s
  let s := if s.safe = 0 then fltPin (enterDev .run "RUN" s)
           else enterSafe (((List.range 6).find? fun i => s.safe.getLsbD i).getD 0) s
  let s := sleepLevels s
  exitLoad s

/-- The reload at which ticks run again after an abandonment at AP3 (R484): nothing is lost. -/
def exitAbandoned (s : State) : State :=
  let s := exitTicks (exitTime false 0 s)
  let s := if s.safe = 0 then s else enterSafe 0 s
  exitLoad (sleepBack s)

/-- EXIT_RUN: the exit reaches X10 once its voltage request has ended and its training has succeeded or failed. -/
def execExitRun (count : Nat) (s : State) : Out :=
  .next (if s.pwr.step != .leaving || s.pwr.pmbus != 0 || !(s.link.up || (s.link.tries = 0 && !s.link.hdrOk)) then s
    else if s.pwr.abort.isSome then exitAbandoned s
    else exitSleep count s)

end Sys2Proof.Machine
end

