-- ==== Sys2Proof/Machine/Startup.lean ====
section
/-! DEFINITION. From power-up to ready (chapter 19): the resets of Aster and what each keeps, the boot steps, the SAFE causes
of the boot, and the shadow parity check (R570). -/

namespace Sys2Proof.Machine

/-! ### Resets (Table 19-1) -/

/-- Whether some part of a base slot has been written or is being written, and the slot is not complete. -/
def baseBegun (s : State) : Bool :=
  let base (r : FramReq) : Bool := match r.op with | .base _ _ => true | _ => false
  s.fram.cur.any base || s.fram.queue.any fun r => base r && decide (r.left < baseParts)

/-- What a FRAM transaction that a reset cuts short leaves: a log slot or a header copy whose CRC fails (R652, R661). -/
def transCut (s : State) : State := match s.fram.cur.map FramReq.op with
  | some .logEntry => match s.log.queue with
    | [] => s
    | e :: _ => s.modFram fun f => { f with ring := assocPut s.log.head { e := { e with pin := false }, ok := false, old := false } f.ring }
  | some .header => s.modFram fun f =>
    let g (h : Option LogHeader) : Nat := match h with | some x => x.gen + 1 | none => 0
    if g f.hdr0 ≤ g f.hdr1 then { f with hdr0 := none } else { f with hdr1 := none }
  | _ => s

/-- What a reset leaves in FRAM of the requests that it ends: a record begun stands PENDING with a failing CRC, a base slot begun is
not valid (R200, R202, R203). -/
def framCut (s : State) : State :=
  let s := if s.commit.any (recBegun s) then leaveRecord s else s
  let s := if baseBegun s then s.modFram (putSlot none) else s
  (transCut s).modFram fun f => { f with queue := [], cur := none }

/-- The levels of the input pins of a position front end stay through a reset. -/
def AxPos.pins (p : AxPos) : AxPos := { AxPos.reset with qa := p.qa, qb := p.qb, qz := p.qz, latPin := p.latPin, hall := p.hall }

/-- A reset of Aster (R26, R622, R623): ETIME, the LPO counter, FRAM, the OTP array, Peony and the pins stay; everything else starts again. -/
def asterReset (cause : ResetCause) (s : State) : State :=
  let s := framCut (otpCut s)
  { State.reset with
    cause := cause, etime := if cause == .por then 0 else s.etime, etFrac := s.etFrac,
    host := { HostCore.reset with cts := s.host.cts }, resetAt := if cause == .por then 0 else s.etime,
    pwr := { Power.reset with wakePin := s.pwr.wakePin, lpo := if cause == .por then 0 else s.pwr.lpo },
    link := { ALink.reset with lowAt := s.etime, outside := s.link.outside },
    pe := s.pe, pos := { a := s.pos.a.pins, b := s.pos.b.pins }, fram := s.fram,
    otp := { Otp.blank with array := s.otp.array, copies := s.otp.copies },
    free := s.free, pending := s.pending }

/-- POWER_ON_RESET (R618): VIO rises above 2.9 V. The Peony core resets at its own power-on, and the valid mark of the island
store is cleared (R623). -/
def execPowerOnReset (s : State) : Out :=
  .next (if s.dev != .off then s else coreReset false (asterReset .por s))

/-- VIO_FALL (R618): the device is in OFF; Aster and the Peony core lose their state, and the gates are held off by their
pull-downs (R620). -/
def execVioFall (s : State) : Out :=
  .next (if s.dev == .off then s
    else
      let s := asterReset .por s
      let s := { s with dev := .off, vcEn := false, fltN := false }
      let s := s.modLink fun l => { l with flt := false, low := false, held := false, outside := false }
      peonyDown (s.modPe fun p => { p with flt := false, downIn := 0 }))

/-- RST_N (R622): low for 1 us in any state but OFF. -/
def execRstPin (s : State) : Out := .next (if s.dev == .off then s else asterReset .rstPin s)

/-- VCORE_BROWNOUT (R622): the monitor does not act in STOP and WATCH or while a PMBus request runs. -/
def execVcoreBrownout (s : State) : Out :=
  .next (if (s.dev == .boot || s.dev == .safe || s.dev == .run) && s.pwr.pmbus = 0 then asterReset .vcoreBo s else s)

/-! ### The boot (Table 19-2) -/

/-- Lock entries of CUST as sensed: the first ID in the low half of the word, the last in the high half (R206). -/
def lockEntries (s : State) : List (Nat × Nat) := (List.range 32).filterMap fun i =>
  (s.otpSensed (0x080 + i)).map fun w => (w.toNat % 65536, w.toNat / 65536)

/-- The persisted set (R200, R201, R633), and the counter records of R416. -/
def loadParams (s : State) : State :=
  let r := persistedSet s
  let s := { s with prm := { Params.reset with now := r.2.1, gen := r.2.2, fram := !r.1, locks := lockEntries s } }
  let s := setLoaded r.1 s
  let s := if s.fram.present then forAll axes2 (fun x s => s.modMot x fun m => { m with ops := s.fram.ops.get x }) s else s
  { s with prm := { s.prm with boot := s.prm.now.filter fun e => match parById e.1 with
      | some p => p.eff == .reset
      | none => false } }

/-- B1 (Table 17-6): the wired row, the OTP words, the intent word, the digests. The log position is read first, so that the
entries of these steps take their numbers. -/
def bootOtp (s : State) : State :=
  let s := if s.fram.present then s else safeCause 5 s
  let s := senseDone (settleIntent (senseWords (senseRow (logPosition s))))
  when_ (digestFails s) (safeCause 1) s

/-- A sensor takes its trim; TS_UNTRIMMED names one without (R430, R431). -/
def bootTrim (n : Nat) (s : State) : State :=
  let t := factTrim s n
  let s := modTs n (fun x => { x with trim := t }) s
  if t.isNone then logAster 0x3A 0 n 0 s else s

/-- B2 and B3: the FRAM load, and the host UART with its settings; session H sends `! state BOOT`. -/
def bootFram (s : State) : State :=
  let s := forAll (List.range 8) bootTrim (loadParams s)
  let s := if s.fram.present then
      { s with tries := s.fram.tries, lockAt := s.fram.lockout.map fun _ => (s.etime, 1000000 * s.parN 0x6402) }
    else s
  let s := s.modBus fun b => { b with node := s.bootPar 0x5008 |>.toNat |> (· + s.strap.toNat) }
  let s := syncBias (s.modPwr fun p => { p with sensEn := true })
  let s := s.modSes .h fun se => { se with echo := s.par 0x5803 == 1 }
  let s := s.modHost fun h => { h with bit := s.bitTime, deaf := false, rts := false }
  notice 1 (txt "state BOOT") (syncRts s)

/-- INTERNAL_RESET_RELEASE (R619, R621, R625): the straps are sampled; B1 to B3 run, and the boot goes on with the request of B4,
or without PMBus with its training. -/
def execInternalResetRelease (mode : Bool) (strap : BitVec 3) (s : State) : Out :=
  .next (if !s.inReset || s.dev == .off then s
    else
      let s := bootFram (bootOtp { s with inReset := false, mode := mode, strap := strap, bootAt := s.etime })
      if mode then bootTrain s else pmbusAsk 1 { s with boot := .pmbus })

/-- XTAL_START_TIMEOUT (R626): the RC reference stays in use. -/
def execXtalStartTimeout (s : State) : Out :=
  .next (if s.boot == .train && s.pwr.xtal && s.count 0x7827 = 0 then
      logAster 0x27 0 0 0 (s.modPwr fun p => { p with xtal := false })
    else s)

/-- PEONY_LOAD_TIMEOUT (R628): a load has not ended within 200 ms of its first tick. -/
def execPeonyLoadTimeout (s : State) : Out :=
  .next (match s.commit with
    | none => s
    | some c =>
      if !c.load || (s.mtick - c.start).toNat < 200 then s
      else
        let s := s.modLink fun l => { l with abort := l.abort || c.opened }
        safeCause 4 { s with commit := none, boot := if s.dev == .boot then .analog else s.boot })

/-- BOOT_COMPLETE (R631, R632): B10 after the analog start, or after the last training attempt. -/
def execBootComplete (s : State) : Out :=
  .next (if s.dev != .boot || s.boot != .analog then s
    else
      let us := s.since s.bootAt
      let s := { s with boot := .done, bootTime := us }
      let s := logAster 0x22 0 ((match s.cause with | .por => 0 | .rstPin => 1 | .command => 2 | .vcoreBo => 3) +
        256 * s.safe.toNat) us s
      let s := if s.safe = 0 then enterDev .run "RUN" s else enterDev .safe "SAFE" s
      busLook { s with fltN := s.fltNow })

/-- SHADOW_PARITY_CHECK (R570): the words whose shadow entries fail their parity, in the check of RUN, at step X6 of an exit, or when an
entry is read in BOOT or SAFE. -/
def execShadowParityCheck (bad : List Nat) (s : State) : Out :=
  .next (if !(s.dev == .run || s.dev == .safe || (s.dev == .boot && !s.inReset) || s.pwr.step == .leaving) || bad.isEmpty then s
    else safeCause 2 (s.modOtp fun o => { o with parity := o.parity ++ (bad.filter fun w => !o.parity.contains w) }))

end Sys2Proof.Machine
end

