-- ==== Sys2Proof/Machine/Status.lean ====
section
/-! DEFINITION. The values that `get` returns: the read-only parameters of every chapter (Tables 24-1 to 24-8), with the
session's snapshots of latches, receive buffers and motion records (R340, R534, R731). A value not yet produced is `none`
and reads `-` (R150). -/

namespace Sys2Proof.Machine

/-- A rational reading in the steps of its parameter (log 84). -/
def steps (id : Nat) (q : Rat) (perUnit : Nat) : Int := freeRound id (q * (perUnit : Rat))

/-- The position of a word for a flag. -/
def bit01 (b : Bool) : Int := if b then 1 else 0

/-! ### Records and snapshots -/

/-- A field of a latch record by its offset (R338). -/
def latField (r : LatchRec) (o : Nat) : Option Int :=
  let made (v : Int) : Option Int := if r.made then some v else none
  match o with
  | 0 => made r.pos.toInt
  | 1 => made r.wrap.toInt
  | 2 => made r.etime.toNat
  | 3 => made r.frac
  | 4 => made r.tick.toNat
  | 5 => some r.count
  | 6 => some (bit01 r.full)
  | _ => none

/-- The record of a latch as a session reads it: its snapshot, or the current record (R340). -/
def latSeen (s : State) (x : Sess) (ax : Axis) (n : Nat) : LatchRec :=
  let snap := (s.ses x).latSnap.get ax
  (if n = 0 then snap.1 else snap.2).getD ((s.pos.get ax).latch n).rcd

/-- A record that no motion has filled (R730). -/
def MotRec.unfilled : MotRec :=
  { prof := 0, result := .none, tick := 0, etime := 0, dur := 0, dist := 0, fMax := 0, marginMin := 0, iMax := 0, endPos := 0 }

/-- A field of a motion record by its offset (Table 24-7). -/
def recField (r : MotRec) (o : Nat) : Option Int := match o with
  | 0 => some r.prof
  | 1 => some r.result.ctorIdx
  | 2 => some r.tick.toNat
  | 3 => some r.etime.toNat
  | 4 => some r.dur
  | 5 => some r.dist
  | 6 => some r.fMax
  | 7 => some r.marginMin
  | 8 => some r.iMax
  | 9 => some r.endPos.toInt
  | _ => none

/-- The motion records of an axis as a session reads them (R731). -/
def recsSeen (s : State) (x : Sess) (ax : Axis) : List MotRec := ((s.ses x).recSnap.get ax).getD (s.mot.get ax).recs

/-- Copies the motion records of an axis into a session's snapshot (R731). -/
def recSnapshot (x : Sess) (ax : Axis) (s : State) : State :=
  let r := (s.mot.get ax).recs
  s.modSes x fun se => { se with recSnap := se.recSnap.set ax (some r) }

/-- MOTION_RECORD_SNAPSHOT. -/
def execMotionRecordSnapshot (x : Sess) (ax : Axis) (s : State) : Out :=
  .next (if (s.ses x).isOpen then recSnapshot x ax s else s)

/-- A field of a receive buffer as a session reads it: words, age, count (R533, R534). -/
def rxField (s : State) (x : Sess) (k o : Nat) : Option Int :=
  let now : Option RxView := (s.bus.rx[k]?).map (·.view)
  let v := match (s.ses x).rxSnap.find? fun p => p.1 == k with
    | some p => some p.2
    | none => now
  v.bind fun v =>
    if 8 < o then some (v.cnt : Int)
    else if !v.made then none
    else some (if o < 8 then ((nth v.words o 0).toNat : Int) else v.age)

/-! ### Values by group -/

/-- A read-only parameter of an axis by its offset in the axis block. -/
def axisStatus (s : State) (x : Sess) (ax : Axis) (o : Nat) : Option Int :=
  let p := s.pos.get ax
  let l := s.loop.get ax
  let m := s.mot.get ax
  let made (b : Bool) (v : Int) : Option Int := if b then some v else none
  if 0x0D0 ≤ o ∧ o ≤ 0x0D6 then latField (latSeen s x ax 0) (o - 0x0D0)
  else if 0x0D8 ≤ o ∧ o ≤ 0x0DE then latField (latSeen s x ax 1) (o - 0x0D8)
  else if 0xE00 ≤ o ∧ o < 0xF00 then recField (nth (recsSeen s x ax) ((o - 0xE00) / 16) MotRec.unfilled) (o % 16)
  else match o with
  | 0x0C0 => some p.pos.toInt
  | 0x0C1 => some p.wrap.toInt
  | 0x0C2 => some (bit01 p.valid)
  | 0x0C3 => some (steps 0x0C3 p.speed 10)
  | 0x0C4 => some p.speedCnt
  | 0x0C5 => some p.hall.toNat
  | 0x0F0 => made l.obsMade (steps 0x0F0 l.obs 10)
  | 0x0F2 => made l.curMade (steps 0x0F2 l.id 1000)
  | 0x0F3 => made l.curMade (steps 0x0F3 l.iq 1000)
  | 0x0F4 => some (if s.ready ax && m.st.moving then AxState.moving else l.st).ctorIdx
  | 0x0F5 => some l.failed.ctorIdx
  | 0x0F6 => some (match l.openPh with | some ph => phIdx ph + 1 | none => 0)
  | 0x0F7 => l.offRt.map fun i => toSigned 32 (ofSigned 32 i)
  | 0x188 => some m.st.ctorIdx
  | 0x189 => m.prof.map fun p => (p : Int)
  | 0x18A => m.prof.map fun _ => (m.seg : Int)
  | 0x18B => some (vlimOf s.set ax)
  | 0x18C => some m.ops.1
  | 0x18D => some (bit01 m.ops.2)
  | 0x18E => some m.result.ctorIdx
  | 0x198 => made m.forceMade (steps 0x198 m.est 1000)
  | 0x199 => made m.forceMade (steps 0x199 m.lim 1000)
  | 0x1A8 => some (bit01 (s.fram.envValid.get ax))
  | 0x1A9 => some (s.fram.envSlot.get ax)
  | 0x1AA => some (envBins s ax)
  | _ => some (s.count (axId ax o))

/-- A read-only parameter of `temp.` by its offset (R427, R433, R440). -/
def tempStatus (s : State) (o : Nat) : Option Int :=
  let t := s.ts (o % 8)
  if o < 0x08 then t.eff
  else if o < 0x10 then t.raw
  else if o < 0x18 then t.cnt.map fun c => (c.toNat : Int)
  else if o < 0x20 then some (bit01 t.suspect)
  else if o < 0x26 then (nth s.temp.zone (o - 0x20) none).map fun b => (b : Int)
  else if o < 0x36 then some 1
  else if o = 0x40 then some (bit01 s.trimmed)
  else some (s.count (0x3800 + o))

/-- A read-only parameter of `chg.` (R462, R465, R466). -/
def chgStatus (s : State) (id : Nat) : Option Int := match id with
  | 0x4415 => some (chgMax s.set)
  | 0x4480 => some s.chg.st.ctorIdx
  | 0x4481 => some s.chg.reason.ctorIdx
  | 0x4482 => (s.telN 2).map fun c => (c : Int)
  | 0x4483 => (ibat s).map fun i => steps 0x4483 i 1
  | 0x4484 => s.chg.tbat
  | 0x4485 => (vbat s).map fun v => bit01 (v < cellsOf s.set * s.chem.low)
  | 0x4488 => s.chg.vset.map fun v => (v : Int)
  | _ => some (s.count id)

/-- A field of the status of a session (Table 24-8). -/
def sessStatus (se : Session) (o : Nat) : Option Int := match o with
  | 0 => some (levelNum se.level)
  | 1 => some (bit01 se.machine)
  | 2 => some (bit01 se.auto)
  | 3 => some se.subs.toNat
  | 4 => some se.lines
  | 5 => some se.errs
  | 6 => some se.staging.length
  | 7 => some se.rxFree
  | 8 => some se.free
  | 9 => some se.lastSeq
  | _ => none

/-- A read-only parameter of `stat.`. -/
def statStatus (s : State) (id : Nat) : Option Int :=
  let slept := s.pwr.wakeSrc != 0
  if 0x7B00 ≤ id then sessStatus (s.ses (nth sessions ((id - 0x7B00) / 16) .h)) (id % 16)
  else match id with
  | 0x7800 => some 6240
  | 0x7801 => some 0
  | 0x7810 => some s.tick.toNat
  | 0x7811 => some s.mtick.toNat
  | 0x7812 => some s.etime.toNat
  | 0x7813 => some s.tickP
  | 0x7814 => some (centrePairs s.set)
  | 0x7816 => some (dCost s.set)
  | 0x7817 => some (dSpare s.set)
  | 0x7828 => s.link.tap.map fun t => (t : Int)
  | 0x7831 => some s.host.mPeak
  | 0x7832 => s.host.blockRate.map fun n => (n : Int)
  | 0x7840 => some s.prm.gen.toNat
  | 0x7841 => some (bit01 (!s.prm.fram))
  | 0x7842 => some (bit01 s.prm.unsaved)
  | 0x7845 => some s.fram.journal.length
  | 0x7851 => some (match s.host.cause with | none => 0 | some c => c.ctorIdx + 1)
  | 0x7870 => (s.telN 6).map fun w => (w : Int)
  | 0x7871 => (s.telN 7).map fun w => (w : Int)
  | 0x7880 => s.pwr.lpoHz.map fun h => (h : Int)
  | 0x7881 => if slept then some s.pwr.sleepUs else none
  | 0x7882 => if slept then some s.pwr.unc else none
  | 0x7883 => some (bit01 s.pwr.disc)
  | 0x7884 => if slept then some s.pwr.wakeSrc.toNat else none
  | 0x7885 => if slept then some s.pwr.watchRec.toNat else none
  | 0x7888 => some (bit01 (!s.mode))
  | 0x7889 => s.pwr.vcore.map fun v => (v : Int)
  | 0x788A => (storeGet s.cnt 0x7886).map fun _ => bit01 s.pwr.batLow
  | 0x78A0 => some s.bus.st.ctorIdx
  | 0x78A1 => if s.bus.cycled then some s.bus.cycle.toNat else none
  | 0x78A8 => s.bus.alignE
  | 0x78AC => s.bus.heard.map fun h => (h.toNat : Int)
  | 0x78E2 => s.bundleWhy.map fun w => (w.ctorIdx : Int)
  | 0x78E3 => s.bundleTick.map fun t => (t.toNat : Int)
  | 0x78F0 => some s.cause.ctorIdx
  | 0x78F1 => some s.safe.toNat
  | 0x78F2 => some s.bootTime
  | _ => some (s.count id)

/-- TMUX_A in mV (R669): 0 while its conversion or its selection is off, and not yet produced before its first result (R150). -/
def tmuxVal (s : State) : Option Int :=
  if s.par 0x7002 != 1 || tmuxByte s s.host.selA = 0 then some 0
  else s.link.fifth.map fun c => ratRound ((c.toNat * 3300 : Nat) / (4096 : Rat))

/-- The value of a read-only parameter as a session reads it. -/
def statusValue (s : State) (x : Sess) (id : Nat) : Option Int :=
  if id < 0x1000 then (if id = 0x0058 then s.sc.amp.map (fun n => (n : Int)) else some (s.count id))
  else if id < 0x3000 then axisStatus s x (if id < 0x2000 then .a else .b) (id % 0x1000)
  else if 0x3800 ≤ id ∧ id < 0x3C00 then tempStatus s (id - 0x3800)
  else if 0x4400 ≤ id ∧ id < 0x4800 then chgStatus s id
  else if 0x5301 ≤ id ∧ id < 0x5380 then rxField s x ((id - 0x5300) / 16) (id % 16 - 1)
  else if 0x7800 ≤ id then statStatus s id
  else match id with
  | 0x5010 => some s.bus.node
  | 0x5011 => some (schedHash s.set).toNat
  | 0x6010 => some s.genCount
  | 0x6011 => some s.genCur
  | 0x6012 => some s.otp.wrow.toNat
  | 0x6013 => some s.rowSplit.toNat
  | 0x6014 => some s.otpFinal
  | 0x6410 => some (s.par 0x6410)
  | 0x6420 => some (levelNum (s.ses x).level)
  | 0x6421 => some s.lockoutLeft
  | 0x6811 => some (bit01 s.log.pinFull)
  | 0x6812 => some s.pinCount
  | 0x6813 => some (min s.log.next 0xFFFFFFFF : Nat)
  | 0x6814 => some s.logOldest
  | 0x7010 => tmuxVal s
  | _ => some (s.count id)

/-- A multiplexer selection as its parameter reports it: `off` under TMUX_LOCK (R663, R666). -/
def selShown (s : State) (n : Nat) : Int := if s.otp.wrow.getLsbD 3 then 0 else n

/-- The value that `get` returns for a parameter or its twin (R150, R183, R184): the written value of the set in force, the
twin, or the reading. The sticky locks and the two selections are held where they act. -/
def getValue (s : State) (x : Sess) (p : Par) (eff : Bool) : Option Int :=
  if eff then some (s.eff p.id)
  else if p.id = 0x6000 then some s.otp.sticky.toNat
  else if p.id = 0x7000 then some (selShown s s.host.selA)
  else if p.id = 0x7001 then some (selShown s s.host.selD)
  else if p.write.isSome then some (s.par p.id)
  else statusValue s x p.id

/-- The snapshot that reading a parameter takes first (R340, R534, R731). -/
def readSnapshot (x : Sess) (id : Nat) (s : State) : State :=
  let ax : Axis := if id < 0x2000 then .a else .b
  if 0x1000 ≤ id ∧ id < 0x3000 then
    if id % 0x1000 = 0x0D0 then latSnapshot x ax 0 s
    else if id % 0x1000 = 0x0D8 then latSnapshot x ax 1 s
    else if id % 0x1000 = 0xE00 then recSnapshot x ax s
    else s
  else if 0x5300 ≤ id ∧ id < 0x5380 ∧ id % 16 = 1 then rxSnapshot x ((id - 0x5300) / 16) s
  else s

end Sys2Proof.Machine
end

