-- ==== Sys2Proof/Machine/ParamCmds.lean ====
section
/-! DEFINITION. The session and parameter commands of Forul (chapters 05 and 06): `help`, `mode`, `echo`, `sub`, `unsub`,
`auto`, `get`, `set`, `stage`, `staged`, `discard`, `info`, `list` and `reset`. -/

namespace Sys2Proof.Machine

/-! ### The session's own settings (R132, R133, R137, R153, R157, R170) -/

/-- Answers `ok`, then changes the session: its settings change when the line finishes (R132). -/
def okThen (k : Call) (f : Session → Session) (s : State) : State := (ok k s).modSes k.x f

/-- The command words of Table 5-5. -/
def commandWords : List String :=
  ["help", "mode", "echo", "sub", "unsub", "get", "set", "stage", "staged", "discard", "commit", "auto", "info", "list",
   "save", "defaults", "arm", "disarm", "move", "stop", "diag", "cal", "clear", "sleep", "reset", "log", "vlog", "otp",
   "auth", "logout", "bundle", "at", "tmux"]

/-- `help [<cmd>]`: data lines whose text the spec does not give (log 49), then `ok`. A word that Table 5-5 does not hold is
not accepted. -/
def cmdHelp (cmd : Option Text) (k : Call) (s : State) : State :=
  if cmd.any fun c => !commandWords.any fun w => txt w == c then fail k 17 s
  else emitData k ((Config.helpText cmd).map fun t => t.take 140) (txt "ok") s

/-- HELP. -/
def execHelp (x : Sess) (cmd : Option Text) (s : State) : Out := direct x "help" (cmdHelp cmd) s

/-- `mode typed`, on session H only (R137). -/
def cmdModeTyped (k : Call) (s : State) : State :=
  if k.x != .h then fail k 30 s else okThen k (fun se => { se with machine := false }) s

/-- MODE_TYPED. -/
def execModeTyped (x : Sess) (s : State) : Out := direct x "mode" cmdModeTyped s

/-- `mode machine` (R137). -/
def cmdModeMachine (k : Call) (s : State) : State := okThen k (fun se => { se with machine := true }) s

/-- MODE_MACHINE. -/
def execModeMachine (x : Sess) (s : State) : Out := direct x "mode" cmdModeMachine s

/-- `echo`, on session H only (R133). -/
def cmdEcho (on : Bool) (k : Call) (s : State) : State :=
  if k.x != .h then fail k 30 s else okThen k (fun se => { se with echo := on }) s

/-- ECHO. -/
def execEcho (x : Sess) (on : Bool) (s : State) : Out := direct x "echo" (cmdEcho on) s

/-- The subscription bits of class words; none when a word is not a class of Table 5-6. `always` cannot be subscribed. -/
def classMask (cs : List Text) : Option (BitVec 5) :=
  cs.foldl (fun m c => match m, ["fault", "state", "chg", "bus", "log"].findIdx? fun w => txt w == c with
    | some m, some i => some (m ||| (1#5 <<< i))
    | _, _ => none) (some 0)

/-- `sub` and `unsub` (R157). -/
def cmdSubs (add : Bool) (cs : List Text) (k : Call) (s : State) : State := match classMask cs with
  | none => fail k 17 s
  | some m =>
    if cs.isEmpty then fail k 18 s
    else okThen k (fun se => { se with subs := if add then se.subs ||| m else se.subs &&& ~~~m }) s

/-- SUB. -/
def execSub (x : Sess) (classes : List Text) (s : State) : Out := direct x "sub" (cmdSubs true classes) s

/-- UNSUB. -/
def execUnsub (x : Sess) (classes : List Text) (s : State) : Out := direct x "unsub" (cmdSubs false classes) s

/-- `auto` (R153). -/
def cmdAuto (on : Bool) (k : Call) (s : State) : State := okThen k (fun se => { se with auto := on }) s

/-- AUTO. -/
def execAuto (x : Sess) (on : Bool) (s : State) : Out := direct x "auto" (cmdAuto on) s

/-! ### Reads -/

/-- `get` (R183): the value of the set in force, the twin, or the reading, after the snapshot that this parameter takes. -/
def cmdGet (r : ParRef) (k : Call) (s : State) : State :=
  withRead k r (fun p eff s =>
    let s := readSnapshot k.x p.id s
    okValue k (showOpt (if eff then twinPar p else p) (getValue s k.x p eff)) s) s

/-- GET. -/
def execGet (x : Sess) (p : ParRef) (s : State) : Out := direct x "get" (cmdGet p) s

/-- `info` (R155, R726). -/
def cmdInfo (r : ParRef) (k : Call) (s : State) : State :=
  withRead k r (fun p eff s => emitData k (infoLines s p eff) (txt "ok") s) s

/-- INFO. -/
def execInfo (x : Sess) (p : ParRef) (s : State) : Out := direct x "info" (cmdInfo p) s

/-- `list` (R727). -/
def cmdList (pre : Text) (k : Call) (s : State) : State :=
  emitData k (listLines (s.ses k.x).level pre) (txt "ok") s

/-- LIST. -/
def execList (x : Sess) (pre : Text) (s : State) : Out := direct x "list" (cmdList pre) s

/-! ### PARAM (R114, R115) -/

/-- Runs a section under PARAM. While a commit runs, the lock is lent only at the end of a piece, and the line waits for it
(R110, R114); `lent` says that the line has it. A load holds no PARAM (R113). -/
def withParam (lent : Bool) (op : ParamOp) (k : Call) (f : State → State) (s : State) : State :=
  if lent || !s.committing then f s
  else (waitFor k (.param op) s).modHost fun h => { h with waiters := h.waiters ++ [(k.x, s.etime)] }

/-! ### Writes -/

/-- Places a checked value in the staging set of the session (R185). -/
def stageValue (k : Call) (p : Par) (v : Int) (s : State) : State :=
  let st := (s.ses k.x).staging
  if (storeGet st p.id).isNone && 256 ≤ st.length then failAt k 42 p.id s
  else ok k (s.modSes k.x fun se => { se with staging := storePut st p.id v })

/-- `stage` (R185). A `line` parameter is answered `err 30` before its value is read (R182, log 50). -/
def cmdStage (lent : Bool) (r : ParRef) (t : Text) (k : Call) (s : State) : State :=
  let isLine : Bool := match findRef r with
    | some (p, eff) => p.eff == .line && (writeCheck s (s.ses k.x).level false p eff).isNone
    | none => false
  if isLine then (match findRef r with | some (p, _) => failAt k 30 p.id s | none => s)
  else withWrite k r t (fun p v s => match valueCheck s p.id v with
    | some c => failAt k c p.id s
    | none => withParam lent (.stage r t) k (stageValue k p v) s) s

/-- The bit time of a rate (R163). -/
def bitOf (baud : Int) : Nat := clocksFor (max 1 baud).toNat

/-- Marks the last line of an output with the bit time that applies after it. -/
def markRate (b : Nat) (ls : List OutLine) : List OutLine := match ls.reverse with
  | [] => []
  | l :: r => ({ l with rate := some b } :: r).reverse

/-- A `line` parameter is written at the end of the line (R180, R182): the rate changes after the `ok` on session H has left
TXD, and at once when the `ok` goes to a tunnel (R163, log 51). -/
def setLine (k : Call) (p : Par) (v : Int) (s : State) : State :=
  let busy := !s.sess.h.out.isEmpty
  let s := ok k s
  let s := { s with prm := { s.prm with now := storePut s.prm.now p.id v } }
  if p.id = 0x5800 then
    if k.x = .h then s.modSes .h fun se =>
      if se.held.isEmpty then { se with out := markRate (bitOf v) se.out } else { se with held := markRate (bitOf v) se.held }
    else s.modHost fun h => { h with bit := bitOf v }
  else if p.id = 0x5803 then s.modSes .h fun se => { se with echo := v == 1 }
  else syncRts (if p.id = 0x5801 then s.modHost fun h => { h with shifting := h.cts && busy } else s)

/-- `set` (R153, R182, R187). Under `auto on` the value is judged before `err 41 BUSY` (DESIGN CHOICE, log 121). -/
def cmdSet (lent : Bool) (r : ParRef) (t : Text) (k : Call) (s : State) : State :=
  withWrite k r t (fun p v s => match valueCheck s p.id v with
    | some c => failAt k c p.id s
    | none =>
      if p.eff == .line then setLine k p v s
      else if (s.ses k.x).auto then setCommit k p v s
      else withParam lent (.set r t) k (stageValue k p v) s) s

/-- A `stage` line of a session. -/
def execStage (x : Sess) (p : ParRef) (v : Text) (s : State) : Out := direct x "stage" (cmdStage false p v) s

/-- SET. -/
def execSet (x : Sess) (p : ParRef) (v : Text) (s : State) : Out := direct x "set" (cmdSet false p v) s

/-- The data line of a staged entry (R188). -/
def stagedLine (e : Nat × Int) : Text := match parById e.1 with
  | some p => p.name.toList ++ ' ' :: showValue p e.2
  | none => []

/-- `staged` (R188). -/
def cmdStaged (lent : Bool) (k : Call) (s : State) : State :=
  withParam lent .staged k (fun s => emitData k ((s.ses k.x).staging.map stagedLine) (txt "ok") s) s

/-- STAGED. -/
def execStaged (x : Sess) (s : State) : Out := direct x "staged" (cmdStaged false) s

/-- The lowest staged entry whose write level a level does not reach (Table 5-5, level `staged`). -/
def aboveLevel (l : Level) (ents : Store) : Option Nat :=
  (ents.find? fun e => match parById e.1 with
    | some p => p.write.any fun w => !reaches l w
    | none => false).map (·.1)

/-- `discard` (R186). -/
def cmdDiscard (lent : Bool) (k : Call) (s : State) : State :=
  match aboveLevel (s.ses k.x).level (s.ses k.x).staging with
  | some i => failAt k 22 i s
  | none => withParam lent .discard k (fun s => ok k (s.modSes k.x fun se => { se with staging := [] })) s

/-- DISCARD. -/
def execDiscard (x : Sess) (s : State) : Out := direct x "discard" (cmdDiscard false) s

/-! ### PARAM on loan -/

/-- A waiting line runs its section (R114). -/
def paramSection (op : ParamOp) (k : Call) (s : State) : State := match op with
  | .stage r t => cmdStage true r t k s
  | .set r t => cmdSet true r t k s
  | .staged => cmdStaged true k s
  | .discard => cmdDiscard true k s

/-- Lends PARAM to the first waiting line (R114); its wait is recorded. -/
def lendParam (s : State) : State := match s.host.waiters with
  | [] => s
  | (x, t) :: r =>
    let s := peak 0x7839 (s.since t) (s.modHost fun h => { h with waiters := r })
    match runningCall s x with
    | some (k, .param op) => paramSection op k s
    | _ => s

/-- LOCK_GRANT: PARAM is free, and the first line that waits for it runs its section. The other locks are held inside one
step only, and no line waits for them (R111, R113). -/
def execLockGrant (l : Lock) (s : State) : Out :=
  .next (if l == .param && !s.committing && s.host.restart.isNone then lendParam s else s)

/-- PARAM_PIECE_END: a commit has held PARAM for 4 ms and lends it in turn to every line that waits for it now (R114). -/
def execParamPieceEnd (s : State) : Out := .next (match s.commit with
  | none => s
  | some c =>
    if c.load || s.host.restart.isSome || !s.due c.piece 4000 then s
    else
      let s := iter lendParam s.host.waiters.length s
      { s with commit := s.commit.map fun c => { c with piece := s.etime } })

/-! ### `reset` -/

/-- `reset` (R156): `ok` now, and the reset when every reply buffer has drained. -/
def cmdReset : Call → State → State := needs .installer fun k s => (ok k s).modHost fun h => { h with resetting := true }

/-- RESET. -/
def execReset (x : Sess) (s : State) : Out := direct x "reset" cmdReset s

end Sys2Proof.Machine
end

