-- ==== Sys2Proof/Machine/Tick.lean ====
section
/-! DEFINITION. The tick (chapter 02): the reload that ends one tick and begins the next (R28, R46, R51, R67, R75), the AUX
conversions of slot 1 (R99), the samples at the PWM centre (R29, R97, R98), and the M-class work of an ms tick (R47, R100).
The rows that apply a DOWN frame and the gap rows stand before the reload that ends their tick. -/

namespace Sys2Proof.Machine

/-! ### The end of a tick -/

/-- The three time counters and the ms accumulator over the clocks of the tick that ends (R46, R51). -/
def tickTime (clocks : Nat) (s : State) : State :=
  let us := (s.etFrac + clocks) / 80
  let acc := s.acc + clocks
  let s := { s with etime := s.etime + BitVec.ofNat 48 us, etFrac := (s.etFrac + clocks) % 80,
                    eclk := s.eclk + BitVec.ofNat 32 clocks, acc := acc }
  if acc < 80000 then s
  else { s with acc := acc - 80000, mtick := s.mtick + 1, msDue := true, ringDue := s.ringDue + 1, pwr := { s.pwr with em := s.etime } }

/-- The gap tick count after E:LINK_GAP (R90): 0 at the end of the tick that raised it, and one more for each gap tick after it. It
starts where the present run of gaps reaches the limit of R77, also when the fault is latched already (DESIGN CHOICE, log 118). -/
def afterGap (l : ALink) (gap : Bool) : Option Nat := if gap && l.gapFired then some ((l.gapAfter.map (· + 1)).getD 0) else none

/-- The end of a tick as Aster counts it (R49, R75, R78, R90): a tick is a gap without an accepted UC or an acknowledged DOWN; a
UT of it that Aster has refused and not accepted since is lost. -/
def asterTickEnd (s : State) : State :=
  let l := s.link
  let gap := !(l.gotUc && l.done && l.down.isNone && !l.downLost)
  let s := when_ (l.utBad && !l.gotUt) (bump 0x7826) s
  let s := s.modLink fun l =>
    { l with gapRun := if gap then l.gapRun + 1 else 0, gapFired := l.gapFired && gap, gapAfter := afterGap l gap,
             goodRun := if gap then 0 else l.goodRun + 1, elapsed := l.elapsed + 1, gotUt := false, gotUc := false, utBad := false, done := false,
             down := none, downRetry := false, downLost := false }
  if gap then peak 0x7823 s.link.gapRun (bump 0x7822 s) else s

/-- A record of the tick joins the queue of 16 with its DSEQ; a full queue takes one overflow record in place of its youngest
(R67). -/
def queueRec (r : PRec) (p : Peony) : Peony :=
  if p.recs.length < 16 then { p with recs := p.recs ++ [{ r with dseq := p.dseq }], dseq := p.dseq + 1 }
  else if p.recs.any fun q => q.code == 0xFF then p
  else { p with recs := p.recs.dropLast ++ [{ dseq := p.dseq, code := 0xFF, mask := 0, tick := r.tick }], dseq := p.dseq + 1 }

/-- The end of a tick as Peony counts it (R67, R75): its gap count, its records, the findings of a diagnosis, and a fresh tick for
both segments. -/
def peonyTickEnd (clocks : Nat) (s : State) : State :=
  if !s.pe.runs then s
  else s.modPe fun p =>
    let gap := !p.gotDown || p.uc != .acked
    let q := p.tickRecs.foldl (fun q r => queueRec r q) p
    { q with tickRecs := [], gapRun := if gap then p.gapRun + 1 else 0, gapFired := p.gapFired && gap, gotDown := false,
             ut := .idle, uc := .idle, ax := { a := diagTick clocks p.ax.a, b := diagTick clocks p.ax.b },
             an := { p.an with conv := List.replicate 16 0,
                               chgStop := if gap then p.an.chgStop else p.an.chgStop.filter (· != .gap) } }

/-! ### The begin of a tick -/

/-- Whether Peony converts the terminals of an axis (R99): the plan shows it sensorless, its diagnosis runs, or the axis catches
a spinning motor. The spec gives Peony no message that an axis catches; it is taken to know (DESIGN CHOICE, log 93). -/
def termsOn (s : State) (x : Axis) : Bool :=
  (s.pe.configured && (memRead s.pe.active 0x004).getLsbD (3 + axIdx x)) || (s.pe.ax.get x).diag.getLsbD 14 ||
  (s.loop.get x).st == .catching

/-- A history of the last eight conversions, newest first. -/
def pushHist (v : BitVec 12) (h : List (BitVec 12)) : List (BitVec 12) := (v :: h).take 8

/-- The rotating item of AUX pair 1 goes into its history: VGD, battery voltage, charger current, NTC, TMUX_A (R99, R669). -/
def rotItem (k : Nat) (v : BitVec 12) (n : PAnalog) : PAnalog :=
  if k = 0 then { n with vgdH := pushHist v n.vgdH } else if k = 1 then { n with batH := pushHist v n.batH }
  else if k = 2 then { n with chgH := pushHist v n.chgH } else if k = 3 then { n with ntcH := pushHist v n.ntcH }
  else { n with tmuxH := v }

/-- VMX of a diagnosis that runs (R312). -/
def diagVm (a : PAxis) : PAxis := if a.diag.getLsbD 14 then { a with diag := a.diag ||| 0x1000#16 } else a

/-- The next position of the rotating item of AUX pair 1 (R99, R669). -/
def rotNext (five : Bool) (k : Nat) : Nat := k % (if five then 5 else 4)

/-- The AUX conversions of slot 1 (Table 4-3): VM, the rotating item, A.U, A.V, A.W, B.U, B.V, B.W. Terminal results that are
not planned are 0. The comparator of E:OV has released when VM reads at or below its threshold (R290). -/
def auxSlot (codes : List (BitVec 12)) (s : State) : State :=
  let c (i : Nat) : BitVec 12 := nth codes i 0
  let ta := termsOn s .a
  let tb := termsOn s .b
  let on (b : Bool) (i : Nat) : BitVec 12 := if b then c i else 0
  let five := s.pe.configured && (memRead s.pe.active 0x004).getLsbD 5
  let s := s.modAn fun n =>
    let k := rotNext five n.rot
    let n := rotItem k (c 1) n
    { n with aux := [c 0, c 1, on ta 2, on ta 3, on ta 4, on tb 5, on tb 6, on tb 7], vmH := pushHist (c 0) n.vmH, rot := k + 1,
             ov := n.ov && decide (s.pe.vov < (c 0).toNat) }
  let s := (s.modPax .a (diagTerms (c 2) (c 3) (c 4))).modPax .b (diagTerms (c 5) (c 6) (c 7))
  if 400 ≤ (c 0).toNat then s else forAll axes2 (fun x s => s.modPax x diagVm) s

/-- The frame that Peony has accepted for this reload acts: its CONTROL entries (R85), then its gate words (R70); without one the
commands in force stay (R30). -/
def frameControl (f : DownFrame) (s : State) : State := if f.dtype = 5 then forAll (parseEntries 16 f.delta) controlEntry s else s
def frameWords (f : DownFrame) (s : State) : State := actWord .b f.gb (actWord .a f.ga s)

/-- The reload on Peony (R28, R31): the copies swap in an armed tick, TICK advances, the frame acts, the trim is taken, the AUX slot
converts, and the commands in force reach the gates. -/
def peonyTickBegin (aux : List (BitVec 12)) (s : State) : State :=
  if !s.pe.runs then s
  else
    let f := s.pe.rx
    let s := (swapAt (s.pe.tick + 1) s).modPe fun p => { p with tick := p.tick + 1, rx := none }
    let s := match f with | some f => frameControl f s | none => s
    let s := downCopy (s.modPe fun p => { p with trim := toSigned 16 (memLe p.runtime 0xF20 2) })
    let s := auxSlot aux s
    let s := match f with | some f => frameWords f s | none => s
    syncBuck (forAll axes2 (fun x s => settleGates x (applyGates x s)) s)

/-- A sin/cos source without an accepted UC for more than 2 ms makes the position not valid (R323). -/
def sincosStale (s : State) : State := match s.scAxis with
  | some x => if (s.pos.get x).valid && 2000 < s.since s.sc.at_ then posLost x s else s
  | none => s

/-- The reload of the switch tick that an acknowledged SWITCH names brings the period of the set being committed (R36). That Aster
switches at the tick it has named, and not only when SETP shows the swap, is DEDUCED (log 103). -/
def switchClk (s : State) : State := match s.commit with
  | some c => if c.sw == some s.tick && c.swAck && !c.load && c.applied.isNone then
      s.modLink fun l => { l with clk := setP (s.setWith c.ents), five := s.setWith c.ents 0x7002 == 1 } else s
  | none => s

/-- An open speed window takes the tick that has ended; the first tick after a boot or a sleep starts a new one (R324). -/
def windowTick (first : Bool) (x : Axis) (s : State) : State :=
  if first then newWindow x s else s.modPos x fun p => { p with winTicks := p.winTicks + 1 }

/-- The reload on Aster: TICK advances, its boundary is recorded (R52), what the acknowledged frame of the tick before brings to the
reload takes effect (R446, R538), every open speed window takes its tick, and a commit without a Peony side switches (R191, R231). -/
def asterTickBegin (s : State) : State :=
  let first := s.first
  let t := s.tick + 1
  let s := { s with tick := t, first := false, bounds := ((t, s.etime) :: s.bounds).take 300 }
  let s := switchClk (s.modLink fun l => { l with trim := l.trimTo, band := l.bandTo, words := l.wordsTo, overNow := false })
  let s := s.modLink fun l => { l with rot := rotNext l.five l.rot + 1 }
  let s := forAll axes2 (windowTick first) s
  let s := commitReload (sincosStale s)
  busLook (when_ (s.link.low && !s.fltLine) fltSync s)

/-- The tick ends on both dies; a sleep entry takes its steps (Table 15-3). -/
def tickEnd (s : State) : State :=
  let clocks := s.tickClocks
  let us := (s.etFrac + clocks) / 80
  let s := phaseTick s
  let s := peonyTickEnd clocks (asterTickEnd (blockTime us (tickTime clocks s)))
  sleepIsolated (sleepFlush (downEnd s))

/-- The first tick after a training or a sleep begins with nothing received (R58). -/
def tickFirst (s : State) : State := s.modLink fun l =>
  { l with elapsed := 1, gotUt := false, gotUc := false, utBad := false, done := false, down := none, downRetry := false, downLost := false }

/-- TICK_RELOAD (R28, R46, R51): the operands are the AUX codes of the tick that begins. At the first reload after a training or
a sleep no tick ends (R58). -/
def execTickReload (aux : List (BitVec 12)) (s : State) : Out :=
  .next (if !s.ticking then s
    else
      let s := if s.first then tickFirst s else tickEnd s
      if s.ticking then asterTickBegin (peonyTickBegin aux s) else s)

/-! ### The PWM centre -/

/-- The centre plan of Peony (R98, R742, R743). -/
def Peony.plan (p : Peony) : List Nat × Bool :=
  let b := if p.configured then memRead p.active 0x004 else 0
  let sc := b.getLsbD 2
  let r := if p.configured then (memRead p.active 0x005).toNat else 0
  (planList (b.getLsbD 0) (b.getLsbD 1) sc r, sc)

/-- The results of an axis among those of a plan. -/
def planOf (x : Axis) (plan : List Nat) : List Nat := plan.filter fun k => 3 * axIdx x ≤ k && k < 3 * axIdx x + 3

/-- A SAMPLE slot on an axis in class E *release*: every phase result planned lies below `release_i` (R296); a slot without one ends
nothing (R311). -/
def releaseSample (ks : List Nat) (code : Nat → BitVec 12) (a : PAxis) : PAxis :=
  if a.latch == .relE && !ks.isEmpty && ks.all fun k => ((code k).toNat - 2048 : Int).natAbs < a.rel.i then
    { a with rel := { a.rel with low := true } }
  else a

/-- What the SAMPLE slot shows of one axis: the ends of *release* and the zero findings of a diagnosis (Table 9-8). -/
def sampleAxis (plan : List Nat) (code : Nat → BitVec 12) (x : Axis) (s : State) : State :=
  let ks := planOf x plan
  let i := 3 * axIdx x
  let s := s.modPax x (releaseSample ks code)
  if ks.isEmpty then s else s.modPax x (diagZero (code i) (code (i + 1)) (code (i + 2)))

/-- CENTRE_SAMPLE (R29): the phase results A.U to B.W, the bus shunt, SIN and COS as sampled at T/2, and the short-circuit
comparators at the end of the slot (R68); PCNT is latched with them and follows the last result while the channel is assigned
(R331). -/
def execCentreSample (phs : List (BitVec 12)) (bus : BitVec 12) (sincos : BitVec 12 × BitVec 12) (cmps : BitVec 4) (s : State) : Out :=
  .next (if !s.pe.runs || !s.ticking then s
    else
      let s := forAll axes2 centreGates s
      let code (k : Nat) : BitVec 12 :=
        if k < 6 then nth phs k 0 else if k = 6 then bus else if k = 8 then sincos.1 else if k = 9 then sincos.2 else 0
      let plan := s.pe.plan
      let vals := plan.1.map code ++ (if plan.2 then [s.pe.an.pcnt] else [])
      let s := s.modAn fun n => { n with pcntLat := n.pcnt, conv := (vals ++ List.replicate 16 0).take 16, cmps := cmpsNow s.pe cmps }
      forAll axes2 (sampleAxis plan.1 code) s)

/-! ### M-class work (R47, R100) -/

/-- Puts a CONTROL entry into the queue; one that waits for the same address gives way. -/
def putControl (e : Nat × List Byte) (s : State) : State := s.modLink fun l =>
  { l with control := (l.control.filter fun c => c.1 != e.1) ++ [e] }

/-- The band code of a driver zone is sent when it changes (R256). -/
def bandControl (x : Axis) (s : State) : State := match nth s.temp.zone (axIdx x) none with
  | none => s
  | some b =>
    if s.temp.sent.get x == some b then s
    else { putControl (0xF00 + axIdx x, [BitVec.ofNat 8 b]) s with
             temp := { s.temp with sent := s.temp.sent.set x (some b) } }

/-- The TMUX_A entry: for the line that waits for it, and whenever Peony's byte is not that of the selection (R666, R668,
R671). -/
def tmuxControl (s : State) : State :=
  let asked := (waiters s fun w => match w with | .tmux _ => true | _ => false).head?.bind fun k => match k.2 with
    | .tmux n => some n
    | _ => none
  let b := tmuxByte s (asked.getD s.host.selA)
  if asked.isNone && b == s.host.tmuxSent then s else putControl (0xF30, [b]) s

/-- Item 1: the CONTROL field of the ms tick (R85, R256, R305, R460, R481). No CONTROL field goes out during a load (R628). -/
def controlItem (s : State) : State :=
  if s.commit.any (·.load) || !s.link.up then s
  else
    let s := forAll axes2 (fun x s => if (s.loop.get x).wantDiag then putControl (0xF02 + axIdx x, [1]) s else s) s
    let s := tmuxControl (forAll axes2 bandControl s)
    let s := if s.dev == .run || s.dev == .safe then
        let c := chgControl s
        forAll c.1 putControl c.2
      else s
    sleepMs s

/-- The M-class time of an ms in 0.1 us, by the budgets of Table 4-4, and what staging may use of 200 us. -/
def mTime (s : State) : Nat :=
  let bus := if s.busSync then 25 * exchangesPerMs s.busSet s.bus.node else 0
  60 + 120 + 100 + 40 * (axes2.countP fun x => s.configured x) + min 1500 bus

/-- The blocks that have crossed, at an ms tick: a full ms of a commit is one that begins and ends while it runs (R102). -/
def blockMs (running : Bool) (h : HostCore) : HostCore :=
  { h with blockRate := if running && h.crossed.isSome then h.crossed else h.blockRate, crossed := if running then some 0 else none }

/-- MS_TICK: the M-class work of the ms tick, in the order of Table 4-4. It does not run during a host-core restart (R47). -/
def execMsTick (s : State) : Out :=
  .next (if !s.ticking || !s.msDue then s
    else
      let s := { s with msDue := false }.modLink fun l => { l with ctlOpen := true }
      if s.host.restart.isSome then s
      else
        let live := s.dev == .run || s.dev == .safe
        let s := thermalItem (controlItem s)
        let s := when_ live chargerItem s
        let s := forAll axes2 (fun x s => when_ (s.configured x) (speedItem x) s) s
        let s := when_ live busItem s
        let used := mTime s
        let made := (s.commit.map fun c => c.made).getD 0
        let s := stageBlocks (max 10 ((2000 - used) / 10)) s
        let us := used + 50 * ((s.commit.map fun c => c.made).getD 0 - made)
        s.modHost fun h => blockMs (s.commit.any (!·.load)) { h with mPeak := max h.mPeak us })

end Sys2Proof.Machine
end

