-- ==== Sys2Proof/Machine/Tmux.lean ====
section
/-! DEFINITION. The test multiplexers (chapter 21): the checks of `tmux` and the two selections. The CONTROL entry of TMUX_A
goes out with the M-class work, and its acknowledgement answers the line. -/

namespace Sys2Proof.Machine

/-- A source by its word or its decimal code (R664): 0 is `off`, n + 1 code n; the codes end at a given one. -/
def tmuxSource (ws : List String) (top : Nat) (t : Text) : Except Nat Nat :=
  match ws.findIdx? fun w => txt w == t with
  | some i => .ok i
  | none =>
    if t.isEmpty || !t.all Char.isDigit then .error 17
    else match readDigits 10 t with
      | none => .error 17
      | some n => if n ≤ top then .ok (n + 1) else .error 13

/-- The checks 2 to 4 of R664, in order. -/
def withTmux (id : Nat) (ws : List String) (top : Nat) (src : Text) (k : Call) (f : Nat → State → State) (s : State) : State :=
  if (s.ses k.x).level != .factory then failAt k 22 id s
  else if s.otp.wrow.getLsbD 3 then failAt k 23 id s
  else match tmuxSource ws top src with
    | .error e => failAt k e id s
    | .ok n => f n s

/-- `tmux a <source>` (R664, R668): the entry goes into the CONTROL field of the next ms tick. Without ticks it waits. -/
def cmdTmuxA (src : Text) (k : Call) (s : State) : State :=
  withTmux 0x7000 tmuxAWords 31 src k (fun n s => waitFor k (.tmux n) s) s

/-- TMUX_A. -/
def execTmuxA (x : Sess) (src : Text) (s : State) : Out := direct x "tmux" (cmdTmuxA src) s

/-- `tmux d <source>` (R664, R670). -/
def cmdTmuxD (src : Text) (k : Call) (s : State) : State :=
  withTmux 0x7001 tmuxDWords 63 src k (fun n s => ok k (s.modHost fun h => { h with selD := n })) s

/-- TMUX_D. -/
def execTmuxD (x : Sess) (src : Text) (s : State) : Out := direct x "tmux" (cmdTmuxD src) s

end Sys2Proof.Machine
end

