-- ==== Sys2Proof/Machine/Restart.lean ====
section
/-! DEFINITION. The host-core restart (R123, R173, R229-R239): what the restart controller does at its trigger, how the lines
that were running and waiting end, and the limit of 50 ms. -/

namespace Sys2Proof.Machine

/-! ### The trigger (R229, R230) -/

/-- Whether the host core runs, so that it can restart: not in reset and not past E2 of a sleep entry. -/
def hostRuns (s : State) : Bool :=
  (s.dev == .boot || s.dev == .safe || s.dev == .run) && !s.inReset &&
    (s.pwr.step == .awake || s.pwr.step == .flush || s.pwr.step == .isolate)

/-- Takes the requests of the host core that satisfy a test from the FRAM port; one in progress ends its transaction without a
user. -/
def dropRequests (p : FramOp → Bool) (s : State) : State := s.modFram fun f =>
  { f with queue := f.queue.filter fun r => !p r.op,
           cur := f.cur.map fun r => if p r.op then { r with op := .hostRead, left := 1 } else r }

/-- A commit in BUILD or STREAM: the block send queue empties, its FRAM requests end, and ABORT goes out when staging has
opened on Peony; a record that it had begun stands PENDING with a failing CRC (R198). A commit in ARM or APPLY is left as it
stands (R230, R231). -/
def haltCommit (s : State) : State :=
  if !(s.commit.any fun c => !c.load && (c.phase == .build || c.phase == .stream)) then s
  else
    let s := if s.commit.any (recBegun s) then leaveRecord s else s
    let s := if s.commit.any (·.opened) then s.modLink fun l => { l with abort := true } else s
    let s := dropRequests (fun o => o == .record || (match o with | .profile _ _ => true | _ => false)) s
    { s with commit := s.commit.map fun c => { c with phase := .abort, queue := [] } }

/-- A base slot that was being written: the request ends, and a slot that it had begun is invalid (R200, R233). -/
def haltBase (s : State) : State :=
  let s := if baseBegun s then s.modFram (putSlot none) else s
  dropRequests (fun o => match o with | .base _ _ => true | _ => false) s

/-- Requests whose line ends, and a DONE mark, which is written again when the host core is back (R199, R233). -/
def haltReads (s : State) : State :=
  dropRequests (fun o => match o with | .logRead _ | .envSlot _ => true | _ => false)
    (s.modFram fun f => { f with queue := f.queue.filter fun r => match r.op with | .mark st _ => st != 0x33 | _ => true })

/-- The loop engine stops the calibration passes (R233): `cal offset` and `cal align` end, and the axes of a learning run are
stopped. A calibration whose commit runs has ended its pass already. -/
def haltCals (s : State) : State := forAll axes2 (fun x s =>
  let own := s.commit.any fun c => match c.by_ with | .cal _ y => y == x || s.coupled | _ => false
  let s := s.modLoop x fun l => { l with cal := none }
  if own || (s.mot.get x).learn.isNone then s
  else
    let s := s.modMot x fun m => { m with learn := none }
    if s.moving x then handStop x s else s) s

/-- Whether an output line is a whole notice of a text on a session. -/
def wholeNotice (se : Session) (t : Text) (l : OutLine) : Bool := l.notice && l.chars == frameNotice se.machine t ++ crlf

/-- Takes the unsent `! restart` of an earlier restart out of the output, and the `! level USER` with it, which then follows
the next one (R238). -/
def unsayRestart (se : Session) : Session :=
  let r := txt "restart"
  let u := txt "level USER"
  let said := se.out.any (wholeNotice se r) || se.notices.any fun n => n.text == r
  let lvl := se.out.any (wholeNotice se u) || se.notices.any fun n => n.text == u
  if !said then se
  else { se with out := se.out.filter fun l => !wholeNotice se r l && !wholeNotice se u l,
                 notices := se.notices.filter fun n => n.text != r && n.text != u,
                 restartDue := if lvl then some true else se.restartDue }

/-- A session at the trigger: its partial line and its staging set go (R173, R186), and so do its snapshots (R340, R534; those
of motion records, which R234 does not keep, too: DEDUCED, log 104). -/
def haltSession (se : Session) : Session :=
  { unsayRestart se.clearPart with staging := [], latSnap := .both (none, none), rxSnap := [], recSnap := .both none }

/-- HOST_CORE_RESTART: the restart controller acts (R229, R230, R232, R238). The 50 ms of R239 run from the first trigger. A
`reset` that has been answered `ok` still follows when the output has drained (R156). -/
def execHostCoreRestart (c : RestartCause) (s : State) : Out :=
  .next (if !hostRuns s then s
    else
      let first := match s.host.restart with
        | some r => r.2
        | none => s.etime
      let fresh := s.host.restart.isNone
      let s := logAster 0x29 0 c.ctorIdx 0 (bump 0x7850 s)
      let s := haltCals (haltReads (haltBase (haltCommit s)))
      let s := s.modHost fun h =>
        { h with restart := some (c, first), cause := some c, stopped := h.stopped && !fresh, waiters := [] }
      let s := { s with sess := s.sess.map haltSession }
      let s := s.modPwr fun p =>
        if (p.step == .flush || p.step == .isolate) && !p.watch && p.abort.isNone then { p with abort := some .restart } else p
      syncRts s)

/-! ### Its end (R233, R234) -/

/-- The commit of a running line: applied, its record is marked DONE under R199 and the line is answered; with its tick named,
what Peony or the selector does decides; otherwise it ends in ABORT with `err 40` (R233). -/
def endCommit (s : State) : State := match s.commit with
  | none => s
  | some c =>
    if c.load then s
    else if c.applied.isSome then
      if s.fram.cur.any fun r => r.op == .mark 0x33 c.gen then s
      else if s.fram.journal.any fun r => r.state == 0x11 && r.gen == c.gen then markDone s
      else finishCommit s
    else if c.sw.isSome then { s with commit := some { c with err := 40 } }
    else abortCommit 40 s

/-- Whether the restart ends a running line with `err 40` (Table 7-6). A line in the middle of its turn has not acted. A hand-over
that the loop engine has not accepted is withdrawn; one that it has accepted keeps its own reply, and so do `sleep`, `clear` on
its way to Peony, a burn that has begun, and a commit. -/
def endsWith40 (s : State) : Wait → Bool
  | .turn | .param _ | .chunk _ _ | .dump _ _ | .diag _ | .tmux _ | .remote | .base _ => true
  | .axis sel c => (selAxes sel).any fun x => (s.loop.get x).hand == some c
  | .commit | .clearDiag _ | .clearSent _ | .sleep => false
  | .otp => s.otp.run.any fun r => !r.begun
  | w@(.calOffset _) | w@(.calAlign _) | w@(.calLearn _) => !(s.commit.any fun c => commitWait c w)

/-- Withdraws what a line that ends with `err 40` had under way. -/
def withdraw (w : Wait) (s : State) : State := match w with
  | .axis sel c => forAll (selAxes sel) (fun x s => s.modLoop x fun l => { l with hand := if l.hand == some c then none else l.hand }) s
  | .tmux _ => s.modLink fun l => { l with control := l.control.filter fun e => e.1 != 0xF30 }
  | .otp => dropRequests (fun o => match o with | .intent _ _ => true | _ => false)
      (when_ s.fram.intent.isSome (framAsk 3 .otpState 1) (s.modOtp fun o => { o with run := none }))
  | _ => s

/-- Ends the line that runs on a session by Table 7-6. -/
def endRunning (x : Sess) (s : State) : State := match runningCall s x with
  | none => s
  | some (k, w) =>
    if w == .turn && k.word == txt "sleep" then answer k (txt "ok run") s
    else if endsWith40 s w then answer k (errText 40 none) (withdraw w s)
    else s

/-- `! restart`, and `! level USER` where it is due, when the replies of R234 have been given. -/
def sayRestart (x : Sess) (s : State) : State :=
  let se := s.ses x
  match se.restartDue with
  | none => s
  | some lvl =>
    if se.running.isSome || se.waiting.any (·.cut) then s
    else
      let s := s.modSes x fun se => { se with restartDue := none }
      let s := noticeTo x 5 (txt "restart") s
      if lvl then noticeTo x 5 (txt "level USER") s else s

/-- The call of a line that starts in a tick. -/
def callOf (x : Sess) (l : RxLine) (t : W32) : Call := { x := x, line := l, word := (tokens l.body).headD [], tick := t }

/-- Answers every line that waits to start with `err 40`, in order (R173, R234). -/
def endWaiting (x : Sess) (s : State) : State :=
  let ls := (s.ses x).waiting
  forAll ls (fun l s => answer (callOf x l s.tick) (errText 40 none) s) (s.modSes x fun se => { se with waiting := [] })

/-- What a restart does to a session after its running line has ended: the level and all trust go, the lines that wait are
answered, and `! restart` follows. Behind a line that still runs, the others keep their places (R234). -/
def endSession (x : Sess) (s : State) : State :=
  let se := s.ses x
  if !se.isOpen then s
  else
    let lvl := se.level != .user || se.restartDue == some true
    let s := s.modSes x fun se => { se with level := .user, chal := none, bundle := none, restartDue := some lvl,
                                            waiting := se.waiting.map fun l => { l with cut := true } }
    sayRestart x (if se.running.isNone then endWaiting x s else s)



/-- The notice of R161 for an assertion whose record is missing stands at its place in latch order (R234). The axes that it names
are a free value (log 40). -/
def sayAwait (t : W32) (s : State) : State :=
  faultNotice "fault" ['?'] (Config.placeAxes t) t s

/-- The notices of R161 for every assertion whose record is missing at the end of the restart (R234). -/
def sayMissing (s : State) : State :=
  let s := forAll (s.log.await.filter fun a => !a.2.2.2) (fun a s => sayAwait a.1 s) s
  s.modLog fun l => { l with await := l.await.map fun a => (a.1, a.2.1, a.2.2.1, true) }

/-- RESTART_COMPLETE (R234): fault notices, the replies of the running lines, `err 40` for the others, `! restart`, and
`! level USER`. -/
def execRestartComplete (s : State) : Out :=
  .next (if s.host.restart.isNone then s
    else
      let s := releaseHeld ((sayMissing s).modHost fun h => { h with restart := none, stopped := false })
      let s := when_ (!framBusy s .otpState) otpGo (endCommit s)
      let s := forAll sessions endRunning s
      let s := forAll sessions endSession s
      syncRts (releaseHold s))

/-- The kind of the stop of R239: one of the faults of class E that Aster decides (Table 20-2), which of them is a free value. -/
def restartFault : Nat := 0x07 + Config.restartKind % 8

/-- RESTART_TIMEOUT (R31, R239): 50 ms after the trigger both axes stop with class E, once in a restart. The spec names no kind
for this stop and no argument of its entry: free values (log 53). -/
def execRestartTimeout (s : State) : Out := .next (match s.host.restart with
  | none => s
  | some (_, t) =>
    if s.host.stopped then s
    else timeUp t 50000 (fun s => asterFault restartFault 3 Config.restartArg.toNat 0 0 (s.modHost fun h => { h with stopped := true })) s)

end Sys2Proof.Machine
end

