-- ==== Sys2Proof/Machine/Turn.lean ====
section
/-! DEFINITION. The turns of the host core (R107-R109): how a waiting line starts and which command it is (Table 5-5), how a
chunked reply goes on, and how characters leave session H (R163, R164, R683). -/

namespace Sys2Proof.Machine

/-! ### The arguments of a line -/

/-- An axis argument. -/
def readAxis (t : Text) : Option Axis := if t == txt "axA" then some .a else if t == txt "axB" then some .b else none

/-- An axis argument that may be `all` (Table 5-5). -/
def readSel (t : Text) : Option AxisSel := if t == txt "all" then some .all else (readAxis t).map .one

/-- `on` or `off`. -/
def readOn (t : Text) : Option Bool := if t == txt "on" then some true else if t == txt "off" then some false else none

/-- What stands in a line after its first n tokens. -/
def afterTokens : Nat → Text → Text
  | 0, t => trim t
  | n + 1, t => afterTokens n ((t.dropWhile (· == ' ')).dropWhile (· != ' '))

/-- Runs a command on an argument that has been read; a word that is not accepted is `err 17` (R152). -/
def withArg {α : Type} (a : Option α) (f : α → Call → State → State) (k : Call) (s : State) : State := match a with
  | some v => f v k s
  | none => fail k 17 s

/-! ### The commands (Table 5-5) -/

/-- The least and the most arguments of a command word. -/
def argCounts : List (String × Nat × Nat) :=
  [("help", 0, 1), ("mode", 1, 1), ("echo", 1, 1), ("sub", 1, 99), ("unsub", 1, 99), ("get", 1, 1), ("set", 2, 99),
   ("stage", 2, 99), ("staged", 0, 0), ("discard", 0, 0), ("commit", 0, 0), ("auto", 1, 1), ("info", 1, 1), ("list", 1, 1)] ++
  [("save", 0, 0), ("defaults", 0, 0), ("arm", 1, 1), ("disarm", 1, 1), ("move", 2, 2), ("stop", 1, 1), ("diag", 1, 1),
   ("cal", 2, 2), ("clear", 1, 1), ("sleep", 1, 5), ("reset", 0, 0), ("log", 1, 3), ("vlog", 1, 1), ("otp", 1, 3)] ++
  [("auth", 1, 2), ("logout", 0, 0), ("bundle", 1, 99), ("at", 2, 99), ("tmux", 2, 2)]

/-- The value of a `set` or `stage` line: all that follows the name. Only a text in quotes may hold spaces. -/
def lineValue (k : Call) (f : ParRef → Text → State → State) (name : Text) (s : State) : State :=
  let v := afterTokens 2 k.line.body
  if v.contains ' ' && v.head? != some '"' then fail k 18 s else f (readRef name) v s

/-- `otp`: the word, its argument count, its level, and then its arguments. -/
def runOtp (a : List Text) (k : Call) (s : State) : State := match a with
  | w :: r =>
    if w == txt "status" then
      (if 1 < r.length then fail k 18 s else cmdOtpStatus r.head? k s)
    else if w == txt "read" then match r with
      | [n] => needs .installer (withArg (readNum n) cmdOtpRead) k s
      | _ => fail k 18 s
    else if w == txt "burn" then match r with
      | [n, v] => needs .factory (withArg (readNum n) fun n => withArg (readNum v) fun v k s =>
          if 2 ^ 32 ≤ v then fail k 13 s else cmdOtpBurn n (BitVec.ofNat 32 v) k s) k s
      | _ => fail k 18 s
    else if w == txt "finalise" then match r with
      | [g] => cmdOtpFinalise g k s
      | _ => fail k 18 s
    else if w == txt "gen" then match r with
      | [g] => needs .installer (fun k s => if g == txt "commit" then cmdOtpGen k s else fail k 17 s) k s
      | _ => fail k 18 s
    else fail k 17 s
  | [] => fail k 18 s

/-- `bundle`. -/
def runBundle (a : List Text) (k : Call) (s : State) : State := match a with
  | w :: r =>
    if w == txt "begin" then (if r.isEmpty then cmdBundleBegin k s else fail k 18 s)
    else if w == txt "add" then cmdBundleAdd r k s
    else if w == txt "end" then (if r.isEmpty then cmdBundleEnd k s else fail k 18 s)
    else fail k 17 s
  | [] => fail k 18 s

/-- `log dump`. -/
def runLog (a : List Text) (k : Call) (s : State) : State :=
  let n := (a.drop 1).map (readDigits 10)
  if a.head? != some (txt "dump") || n.any (·.isNone) then fail k 17 s
  else cmdLogDump (nth n 0 none) (nth n 1 none) k s

/-- The session and parameter commands; none when the word is not one of them. -/
def runSession (w : Text) (a : List Text) : Option (Call → State → State) :=
  let a0 := nth a 0 []
  let is (n : String) : Bool := w == txt n
  if is "help" then some (cmdHelp a.head?)
  else if is "mode" then some fun k s =>
    if a0 == txt "typed" then cmdModeTyped k s else if a0 == txt "machine" then cmdModeMachine k s else fail k 17 s
  else if is "echo" then some (withArg (readOn a0) cmdEcho)
  else if is "sub" then some (cmdSubs true a)
  else if is "unsub" then some (cmdSubs false a)
  else if is "auto" then some (withArg (readOn a0) cmdAuto)
  else if is "get" then some (cmdGet (readRef a0))
  else if is "set" then some fun k => lineValue k (fun r v => cmdSet false r v k) a0
  else if is "stage" then some fun k => lineValue k (fun r v => cmdStage false r v k) a0
  else if is "staged" then some (cmdStaged false)
  else if is "discard" then some (cmdDiscard false)
  else if is "commit" then some cmdCommit
  else if is "info" then some (cmdInfo (readRef a0))
  else if is "list" then some (cmdList a0)
  else if is "save" then some cmdSave
  else if is "defaults" then some cmdDefaults
  else none

/-- The axis commands. -/
def runAxis (w : Text) (a : List Text) : Option (Call → State → State) :=
  let a0 := nth a 0 []
  let a1 := nth a 1 []
  let is (n : String) : Bool := w == txt n
  if is "arm" then some (withArg (readAxis a0) cmdArm)
  else if is "disarm" then some (withArg (readSel a0) cmdDisarm)
  else if is "move" then some (withArg (readAxis a0) fun x => cmdMove x ((readDigits 10 a1).getD 99))
  else if is "stop" then some (withArg (readSel a0) cmdStop)
  else if is "diag" then some (needs .installer (withArg (readAxis a0) cmdDiag))
  else if is "cal" then some (needs .installer (withArg (readAxis a1) fun x k s =>
    if a0 == txt "offset" then cmdCalOffset x k s
    else if a0 == txt "align" then cmdCalAlign x k s
    else if a0 == txt "learn" then cmdCalLearn x k s
    else fail k 17 s))
  else if is "clear" then some (withArg (readSel a0) cmdClear)
  else none

/-- The remaining commands. -/
def runSystem (w : Text) (a : List Text) : Option (Call → State → State) :=
  let a0 := nth a 0 []
  let a1 := nth a 1 []
  let is (n : String) : Bool := w == txt n
  if is "sleep" then some fun k s =>
    if a0 == txt "stop" then cmdSleep false (a.drop 1) k s
    else if a0 == txt "watch" then cmdSleep true (a.drop 1) k s
    else fail k 17 s
  else if is "reset" then some cmdReset
  else if is "log" then some (runLog a)
  else if is "vlog" then some (needs .installer fun k s => if a0 == txt "dump" then cmdVlogDump k s else fail k 17 s)
  else if is "otp" then some (runOtp a)
  else if is "auth" then some (if a.length = 2 then cmdResponse a0 a1 else cmdChallenge a0)
  else if is "logout" then some cmdLogout
  else if is "bundle" then some (runBundle a)
  else if is "at" then some fun k => withArg (readDigits 10 a0) (fun n k => cmdAt n (afterTokens 2 k.line.body) k) k
  else if is "tmux" then some fun k s =>
    if a0 == txt "a" then cmdTmuxA a1 k s else if a0 == txt "d" then cmdTmuxD a1 k s else fail k 17 s
  else none

/-- Runs a body that has at least one token: a first token that is no lower-case word is `err 10`, a word outside Table 5-5
`err 16`, a wrong number of arguments `err 18` (R152, R174). -/
def runLine (w : Text) (a : List Text) (k : Call) (s : State) : State :=
  if !w.all Char.isLower then fail k 10 s
  else match argCounts.find? fun e => txt e.1 == w with
    | none => fail k 16 s
    | some (_, lo, hi) =>
      if a.length < lo || hi < a.length then fail k 18 s
      else match runSession w a with
        | some f => f k s
        | none => match runAxis w a with
          | some f => f k s
          | none => match runSystem w a with
            | some f => f k s
            | none => fail k 16 s

/-! ### The start of a line -/

/-- Whether the reply of a command has data lines: such a command runs again (R141). An `at` line runs again when the reply that it
brought had data lines, which its stored reply says. -/
def hasData (ts : List Text) : Bool :=
  let w := nth ts 0 []
  let a := nth ts 1 []
  w == txt "help" || w == txt "staged" || w == txt "info" || w == txt "list" || w == txt "log" || w == txt "vlog" ||
    (w == txt "otp" && a == txt "status")

/-- The stored reply that a repeated machine line receives (R141). -/
def storedReply (se : Session) (l : RxLine) : Option Text := match l.frame, se.stored with
  | .seq n c, some (m, d, t, had) =>
    let again := (hasData (tokens l.body) || had) && !startsWith t (txt "err ")
    if n = m && c = d && c.isSome && !again then some t else none
  | _, _ => none

/-- The work of a line that has started (R132): what reception found is answered, a repeated line receives its stored reply, an
empty body is answered `ok`, and any other line runs. -/
def workLine (k : Call) (s : State) : State :=
  let x := k.x
  let l := k.line
  if l.cut then answer k (errText 40 none) s
  else match l.err with
    | some e => answer k (errText e none) s
    | none => match storedReply (s.ses x) l with
      | some t => answer k t s
      | none => match tokens l.body with
        | [] => ok k s
        | w :: a => runLine w a k s

/-- The oldest waiting line of a session starts: it leaves the receive buffer, and its wait is recorded (R107, R109). -/
def beginLine (x : Sess) (f : Call → State → State) (s : State) : State := match (s.ses x).waiting with
  | [] => s
  | l :: r =>
    let s := peak 0x7838 (min (s.since l.at_) (s.since (s.ses x).doneAt)) s
    syncRts (f (callOf x l s.tick) (s.modSes x fun se => { se with waiting := r }))

/-! ### Turns (R107, R108) -/

/-- Goes on with the chunked reply of a session, or ends it when Ctrl-C has been seen (R108, Table 5-1). A line whose turn had ended
does its work, also when its session has closed since (R171). -/
def resumeChunk (x : Sess) (s : State) : State := match runningCall s x with
  | some (k, .chunk rest fin) =>
    if (s.ses x).cancel then answer k (errText 43 none) s
    else if (s.ses x).free < 164 then s
    else emitData k rest fin s
  | some (k, .turn) =>
    if !(s.ses x).isOpen then closeSession x (workLine k s) else if (s.ses x).free < 164 then s else workLine k s
  | _ => s

/-- Whether a session has something to do in its turn: a line to start while its reply buffer has room, the end of a
restart to say, or a line that an earlier turn left unfinished. -/
def canTurn (s : State) (x : Sess) : Bool :=
  let se := s.ses x
  match se.running with
  | some r => (match r.wait with
    | .chunk _ _ => se.cancel || 164 ≤ se.free
    | .turn => 164 ≤ se.free
    | _ => false)
  | none => se.isOpen && (se.restartDue.isSome || (!se.waiting.isEmpty && 164 ≤ se.free))

/-- The turn of a session. -/
def sessionTurn (x : Sess) (s : State) : State :=
  let se := s.ses x
  if se.running.isSome then resumeChunk x s
  else if se.restartDue.isSome && !(se.waiting.any (·.cut)) then sayRestart x s
  else sayRestart x (beginLine x workLine s)

/-- Whether a line is `auth <level> <response>` (R600). -/
def isResponse (l : RxLine) : Bool := match tokens l.body with
  | [w, _, _] => w == txt "auth"
  | _ => false

/-- A turn that 1,200 us end before its line finishes: a line that waits has started, and a chunked reply has sent a data line
(R107, R108). A response line makes its checks when it starts, so that they stand before the end of the turn (R600, R613; DEDUCED,
log 109). -/
def cutTurn (x : Sess) (s : State) : State := match runningCall s x with
  | some (k, .chunk (d :: rest) fin) => if (s.ses x).cancel then s else waitFor k (.chunk rest fin) (dataLine k d s)
  | some _ => s
  | none => beginLine x (fun k => if isResponse k.line then workLine k else waitFor k .turn) s

/-- The reset of `reset` follows when every reply buffer has drained (R156). -/
def resetIfDrained (s : State) : State :=
  if s.host.resetting && s.host.restart.isNone && sessions.all fun x => (s.ses x).out.isEmpty && (s.ses x).held.isEmpty then asterReset .command s else s

/-- The sessions from a place of the cycle on. -/
def cycleFrom (n : Nat) : List (Nat × Sess) := [(0, Sess.h), (1, .t1), (2, .t2), (3, .t3), (4, .t4)].drop n

/-- SESSION_TURN: the next session of the cycle H, T1-T4 that has something to do takes its turn, and the cycle stands behind
it; behind the last of them stands the system turn, whose work the commands of commits, OTP and the log are (R107). -/
def execSessionTurn (s : State) : Out :=
  .next (if s.host.resetting then resetIfDrained s
    else if !s.starts then s
    else match (cycleFrom s.host.turn).find? fun p => canTurn s p.2 with
      | some p => sessionTurn p.2 (s.modHost fun h => { h with turn := p.1 + 1 })
      | none => s.modHost fun h => { h with turn := 0 })

/-- TURN_QUANTUM_EXPIRY: the next session of the cycle that has something to do has used the 1,200 us of its turn before its line
finished; the cycle stands behind it (R107). -/
def execTurnQuantumExpiry (s : State) : Out :=
  .next (if !s.starts then s
    else match (cycleFrom s.host.turn).find? fun p => canTurn s p.2 with
      | some p => cutTurn p.2 (s.modHost fun h => { h with turn := p.1 + 1 })
      | none => s)

/-- REPLY_RESUME (R108). -/
def execReplyResume (x : Sess) (s : State) : Out := .next (if s.forul && s.pwr.step == .awake then resumeChunk x s else s)

/-- LOST_NOTICE (R162): the queue has drained, and the session is told how many notices were dropped. -/
def execLostNotice (x : Sess) (s : State) : Out :=
  let se := s.ses x
  .next (if se.lost = 0 || !se.notices.isEmpty || s.host.restart.isSome then s
    else noticeTo x 5 (txt "lost " ++ dec se.lost) (s.modSes x fun se => { se with lost := 0 }))

/-! ### Characters on TXD -/

/-- Whether CTS_N holds the output of session H (R164). -/
def State.ctsHolds (s : State) : Bool := s.host.cts && s.par 0x5801 == 1

/-- The first character of the output of session H has left; the rate that its line carries applies after its last
character (R163). -/
def sendChar (s : State) : State := match s.sess.h.out with
  | [] => s
  | l :: r =>
    if 1 < l.chars.length then s.modSes .h fun se => { se with out := { l with chars := l.chars.drop 1 } :: r }
    else
      let s := s.modSes .h fun se => { se with out := r }
      match l.rate with
      | some b => s.modHost fun h => { h with bit := b }
      | none => s

/-- TXD_CHARACTER_SENT: the stop bit of a character has left TXD (R683). While CTS_N holds the output only a character that
had started completes (R164). Room that it makes goes to waiting notices. -/
def execTxdCharacterSent (s : State) : Out :=
  .next (if s.ctsHolds && !s.host.shifting then s
    else
      let s := sendChar (s.modHost fun h => { h with shifting := false })
      let s := if s.host.restart.isSome then s else s.modSes .h (flushNotices 16)
      resetIfDrained s)

/-- CTS_N_CHANGE (R164): the level is sampled at the start of each character. -/
def execCtsNChange (high : Bool) (s : State) : Out :=
  .next (s.modHost fun h => { h with cts := high, shifting := high && (if h.cts then h.shifting else !s.sess.h.out.isEmpty) })

end Sys2Proof.Machine
end

