-- ==== Sys2Proof/Machine/Dispatch.lean ====
section
/-! DEFINITION. One arm per command: the effect of the command on everything but the queue. -/

namespace Sys2Proof.Machine

/-- The effect of a command (every rule that spec/opcode_table.json cites for its row). -/
def exec (i : Instr) (s : State) : Host.Outcome State Fault Refusal :=
  match i with
  | .help x cmd => Sys2Proof.Machine.execHelp x cmd s
  | .modeTyped x => Sys2Proof.Machine.execModeTyped x s
  | .modeMachine x => Sys2Proof.Machine.execModeMachine x s
  | .echo x on => Sys2Proof.Machine.execEcho x on s
  | .sub x classes => Sys2Proof.Machine.execSub x classes s
  | .unsub x classes => Sys2Proof.Machine.execUnsub x classes s
  | .get x p => Sys2Proof.Machine.execGet x p s
  | .set x p v => Sys2Proof.Machine.execSet x p v s
  | .stage x p v => Sys2Proof.Machine.execStage x p v s
  | .staged x => Sys2Proof.Machine.execStaged x s
  | .discard x => Sys2Proof.Machine.execDiscard x s
  | .commit x => Sys2Proof.Machine.execCommit x s
  | .auto x on => Sys2Proof.Machine.execAuto x on s
  | .info x p => Sys2Proof.Machine.execInfo x p s
  | .list x pre => Sys2Proof.Machine.execList x pre s
  | .save x => Sys2Proof.Machine.execSave x s
  | .defaults x => Sys2Proof.Machine.execDefaults x s
  | .arm x ax => Sys2Proof.Machine.execArm x ax s
  | .disarm x sel => Sys2Proof.Machine.execDisarm x sel s
  | .move x ax prof => Sys2Proof.Machine.execMove x ax prof s
  | .stop x sel => Sys2Proof.Machine.execStop x sel s
  | .diag x ax => Sys2Proof.Machine.execDiag x ax s
  | .calOffset x ax => Sys2Proof.Machine.execCalOffset x ax s
  | .calAlign x ax => Sys2Proof.Machine.execCalAlign x ax s
  | .calLearn x ax => Sys2Proof.Machine.execCalLearn x ax s
  | .clear x ax => Sys2Proof.Machine.execClear x ax s
  | .clearAll x => Sys2Proof.Machine.execClearAll x s
  | .sleepStop x banks => Sys2Proof.Machine.execSleepStop x banks s
  | .sleepWatch x args => Sys2Proof.Machine.execSleepWatch x args s
  | .reset x => Sys2Proof.Machine.execReset x s
  | .logDump x seq count => Sys2Proof.Machine.execLogDump x seq count s
  | .vlogDump x => Sys2Proof.Machine.execVlogDump x s
  | .otpStatus x region => Sys2Proof.Machine.execOtpStatus x region s
  | .otpRead x word => Sys2Proof.Machine.execOtpRead x word s
  | .otpBurn x word value => Sys2Proof.Machine.execOtpBurn x word value s
  | .wiredRowBurn x value => Sys2Proof.Machine.execWiredRowBurn x value s
  | .otpFinalise x region => Sys2Proof.Machine.execOtpFinalise x region s
  | .otpGenCommit x => Sys2Proof.Machine.execOtpGenCommit x s
  | .authChallenge x level => Sys2Proof.Machine.execAuthChallenge x level s
  | .authResponse x level resp => Sys2Proof.Machine.execAuthResponse x level resp s
  | .logout x => Sys2Proof.Machine.execLogout x s
  | .bundleBegin x => Sys2Proof.Machine.execBundleBegin x s
  | .bundleAdd x hex => Sys2Proof.Machine.execBundleAdd x hex s
  | .bundleEnd x => Sys2Proof.Machine.execBundleEnd x s
  | .at x node line => Sys2Proof.Machine.execAt x node line s
  | .tmuxA x src => Sys2Proof.Machine.execTmuxA x src s
  | .tmuxD x src => Sys2Proof.Machine.execTmuxD x src s
  | .posLoad ax => Sys2Proof.Machine.execPosLoad ax s
  | .latchArm ax n => Sys2Proof.Machine.execLatchArm ax n s
  | .chargerRetry => Sys2Proof.Machine.execChargerRetry s
  | .stickyLockWrite x mask => Sys2Proof.Machine.execStickyLockWrite x mask s
  | .logPinRelease n => Sys2Proof.Machine.execLogPinRelease n s
  | .txBufferWrite k words => Sys2Proof.Machine.execTxBufferWrite k words s
  | .latchSnapshotRead x ax n => Sys2Proof.Machine.execLatchSnapshotRead x ax n s
  | .rxBufferSnapshot x k => Sys2Proof.Machine.execRxBufferSnapshot x k s
  | .motionRecordSnapshot x ax => Sys2Proof.Machine.execMotionRecordSnapshot x ax s
  | .rxCharacter x c => Sys2Proof.Machine.execRxCharacter x c s
  | .partialLineTimeout => Sys2Proof.Machine.execPartialLineTimeout s
  | .brk => Sys2Proof.Machine.execBrk s
  | .sessionTurn => Sys2Proof.Machine.execSessionTurn s
  | .turnQuantumExpiry => Sys2Proof.Machine.execTurnQuantumExpiry s
  | .replyResume x => Sys2Proof.Machine.execReplyResume x s
  | .lostNotice x => Sys2Proof.Machine.execLostNotice x s
  | .faultRecordWaitExpiry => Sys2Proof.Machine.execFaultRecordWaitExpiry s
  | .remoteTimeout => Sys2Proof.Machine.execRemoteTimeout s
  | .tunnelIdleTimeout x => Sys2Proof.Machine.execTunnelIdleTimeout x s
  | .levelIdleTimeout x => Sys2Proof.Machine.execLevelIdleTimeout x s
  | .authLockoutEnd => Sys2Proof.Machine.execAuthLockoutEnd s
  | .hostCoreRestart c => Sys2Proof.Machine.execHostCoreRestart c s
  | .restartComplete => Sys2Proof.Machine.execRestartComplete s
  | .restartTimeout => Sys2Proof.Machine.execRestartTimeout s
  | .lockGrant l => Sys2Proof.Machine.execLockGrant l s
  | .paramPieceEnd => Sys2Proof.Machine.execParamPieceEnd s
  | .tickReload aux => Sys2Proof.Machine.execTickReload aux s
  | .msTick => Sys2Proof.Machine.execMsTick s
  | .centreSample phases bus sincos cmps => Sys2Proof.Machine.execCentreSample phases bus sincos cmps s
  | .utSegment noise => Sys2Proof.Machine.execUtSegment noise s
  | .ucSegment noise => Sys2Proof.Machine.execUcSegment noise s
  | .verdictToken seg lane => Sys2Proof.Machine.execVerdictToken seg lane s
  | .loopEngineRun => Sys2Proof.Machine.execLoopEngineRun s
  | .overrun => Sys2Proof.Machine.execOverrun s
  | .eOverrun => Sys2Proof.Machine.execEOverrun s
  | .cmdOff ax => Sys2Proof.Machine.execCmdOff ax s
  | .cmdRun ax du dv dw => Sys2Proof.Machine.execCmdRun ax du dv dw s
  | .cmdHeld ax => Sys2Proof.Machine.execCmdHeld ax s
  | .cmdLows ax => Sys2Proof.Machine.execCmdLows ax s
  | .cmdRelease ax => Sys2Proof.Machine.execCmdRelease ax s
  | .cmdRest ax => Sys2Proof.Machine.execCmdRest ax s
  | .cmdClear ax => Sys2Proof.Machine.execCmdClear ax s
  | .cmdDirect ax => Sys2Proof.Machine.execCmdDirect ax s
  | .cmdReserved ax code => Sys2Proof.Machine.execCmdReserved ax code s
  | .deltaBlock blk entries => Sys2Proof.Machine.execDeltaBlock blk entries s
  | .deltaRun blk addr data => Sys2Proof.Machine.execDeltaRun blk addr data s
  | .deltaSwitch sw lastBlk => Sys2Proof.Machine.execDeltaSwitch sw lastBlk s
  | .deltaAbort => Sys2Proof.Machine.execDeltaAbort s
  | .deltaTime hi => Sys2Proof.Machine.execDeltaTime hi s
  | .deltaControl entries => Sys2Proof.Machine.execDeltaControl entries s
  | .bandCodeWrite ax code => Sys2Proof.Machine.execBandCodeWrite ax code s
  | .diagStart ax v => Sys2Proof.Machine.execDiagStart ax v s
  | .chargerSetpoint addr data => Sys2Proof.Machine.execChargerSetpoint addr data s
  | .powerDown v => Sys2Proof.Machine.execPowerDown v s
  | .tickTrim t => Sys2Proof.Machine.execTickTrim t s
  | .tmuxAEntry v => Sys2Proof.Machine.execTmuxAEntry v s
  | .configSwap => Sys2Proof.Machine.execConfigSwap s
  | .commitBuildComplete u => Sys2Proof.Machine.execCommitBuildComplete u s
  | .commitWindowClose => Sys2Proof.Machine.execCommitWindowClose s
  | .journalFold u => Sys2Proof.Machine.execJournalFold u s
  | .linkGapLimit => Sys2Proof.Machine.execLinkGapLimit s
  | .eLinkGap => Sys2Proof.Machine.execELinkGap s
  | .telemetryTimeout => Sys2Proof.Machine.execTelemetryTimeout s
  | .nckLoss => Sys2Proof.Machine.execNckLoss s
  | .fltLStuck => Sys2Proof.Machine.execFltLStuck s
  | .fltLAssert d => Sys2Proof.Machine.execFltLAssert d s
  | .retrain => Sys2Proof.Machine.execRetrain s
  | .trainingAttempt ok => Sys2Proof.Machine.execTrainingAttempt ok s
  | .trainingHeader noise => Sys2Proof.Machine.execTrainingHeader noise s
  | .trainingReply noise => Sys2Proof.Machine.execTrainingReply noise s
  | .framTransactionDone ok => Sys2Proof.Machine.execFramTransactionDone ok s
  | .framRequestAged => Sys2Proof.Machine.execFramRequestAged s
  | .logHoldTimeout => Sys2Proof.Machine.execLogHoldTimeout s
  | .fltPeonyPlaceholder => Sys2Proof.Machine.execFltPeonyPlaceholder s
  | .vgdLow code => Sys2Proof.Machine.execVgdLow code s
  | .vgdRecover code => Sys2Proof.Machine.execVgdRecover code s
  | .btLow ax p => Sys2Proof.Machine.execBtLow ax p s
  | .btRecover ax p => Sys2Proof.Machine.execBtRecover ax p s
  | .holdOffClamp g => Sys2Proof.Machine.execHoldOffClamp g s
  | .directPinChange ax p en pls => Sys2Proof.Machine.execDirectPinChange ax p en pls s
  | .brakeOn vm => Sys2Proof.Machine.execBrakeOn vm s
  | .brakeOff vm => Sys2Proof.Machine.execBrakeOff vm s
  | .blankingEnd sh above => Sys2Proof.Machine.execBlankingEnd sh above s
  | .sScLeg sh => Sys2Proof.Machine.execSScLeg sh s
  | .sScHard sh => Sys2Proof.Machine.execSScHard sh s
  | .eOv vm => Sys2Proof.Machine.execEOv vm s
  | .vmUvlo vm => Sys2Proof.Machine.execVmUvlo vm s
  | .vmUvloEnd vm => Sys2Proof.Machine.execVmUvloEnd vm s
  | .softTurnOffEnd ax => Sys2Proof.Machine.execSoftTurnOffEnd ax s
  | .releaseEEnd ax => Sys2Proof.Machine.execReleaseEEnd ax s
  | .diagComplete ax moved => Sys2Proof.Machine.execDiagComplete ax moved s
  | .clearWindowExpiry x ax => Sys2Proof.Machine.execClearWindowExpiry x ax s
  | .quadEdge ax qa qb clk => Sys2Proof.Machine.execQuadEdge ax qa qb clk s
  | .hallChange ax hs clk => Sys2Proof.Machine.execHallChange ax hs clk s
  | .indexEdge ax e => Sys2Proof.Machine.execIndexEdge ax e s
  | .eEncIdx ax => Sys2Proof.Machine.execEEncIdx ax s
  | .pcntCount up => Sys2Proof.Machine.execPcntCount up s
  | .eSincosAmp => Sys2Proof.Machine.execESincosAmp s
  | .latchEvent ax n e => Sys2Proof.Machine.execLatchEvent ax n e s
  | .speedWindowClose ax => Sys2Proof.Machine.execSpeedWindowClose ax s
  | .prechargeEnd ax => Sys2Proof.Machine.execPrechargeEnd ax s
  | .startAngleSet ax => Sys2Proof.Machine.execStartAngleSet ax s
  | .stillTimeout ax => Sys2Proof.Machine.execStillTimeout ax s
  | .catchTimeout ax => Sys2Proof.Machine.execCatchTimeout ax s
  | .openLoopHandover ax => Sys2Proof.Machine.execOpenLoopHandover ax s
  | .eStall ax => Sys2Proof.Machine.execEStall ax s
  | .disarmTimeout ax => Sys2Proof.Machine.execDisarmTimeout ax s
  | .senseFailure ax => Sys2Proof.Machine.execSenseFailure ax s
  | .phaseOpen ax p => Sys2Proof.Machine.execPhaseOpen ax p s
  | .degradedTimeout ax => Sys2Proof.Machine.execDegradedTimeout ax s
  | .calOffsetDone ax => Sys2Proof.Machine.execCalOffsetDone ax s
  | .calAlignDone ax => Sys2Proof.Machine.execCalAlignDone ax s
  | .obstruction ax => Sys2Proof.Machine.execObstruction ax s
  | .endStop ax => Sys2Proof.Machine.execEndStop ax s
  | .learnPassComplete ax => Sys2Proof.Machine.execLearnPassComplete ax s
  | .pushDetect ax => Sys2Proof.Machine.execPushDetect ax s
  | .pushEnd ax => Sys2Proof.Machine.execPushEnd ax s
  | .tsGateCount n count => Sys2Proof.Machine.execTsGateCount n count s
  | .eOt n => Sys2Proof.Machine.execEOt n s
  | .tsSuspect n => Sys2Proof.Machine.execTsSuspect n s
  | .chargerHwStop c => Sys2Proof.Machine.execChargerHwStop c s
  | .chargerTimeout t => Sys2Proof.Machine.execChargerTimeout t s
  | .batfetOn bat vm => Sys2Proof.Machine.execBatfetOn bat vm s
  | .batfetOff bat vm => Sys2Proof.Machine.execBatfetOff bat vm s
  | .lowPowerEnter => Sys2Proof.Machine.execLowPowerEnter s
  | .sleepAbort src => Sys2Proof.Machine.execSleepAbort src s
  | .wake src => Sys2Proof.Machine.execWake src s
  | .stopTimerExpiry => Sys2Proof.Machine.execStopTimerExpiry s
  | .exitRun count => Sys2Proof.Machine.execExitRun count s
  | .crocusPass hallA hallB quadA quadB wrsp => Sys2Proof.Machine.execCrocusPass hallA hallB quadA quadB wrsp s
  | .pmbusRequestDone r => Sys2Proof.Machine.execPmbusRequestDone r s
  | .lpoMeasure centihz => Sys2Proof.Machine.execLpoMeasure centihz s
  | .cycleStart => Sys2Proof.Machine.execCycleStart s
  | .cycleStartFrame bytes off interval => Sys2Proof.Machine.execCycleStartFrame bytes off interval s
  | .csfMiss => Sys2Proof.Machine.execCsfMiss s
  | .slotBoundary slot => Sys2Proof.Machine.execSlotBoundary slot s
  | .slotFrame bytes slot off damaged => Sys2Proof.Machine.execSlotFrame bytes slot off damaged s
  | .actionInstant phase => Sys2Proof.Machine.execActionInstant phase s
  | .groupMove => Sys2Proof.Machine.execGroupMove s
  | .groupStop => Sys2Proof.Machine.execGroupStop s
  | .busCollision => Sys2Proof.Machine.execBusCollision s
  | .unexpectedStartBit => Sys2Proof.Machine.execUnexpectedStartBit s
  | .tunnelNone peer tack => Sys2Proof.Machine.execTunnelNone peer tack s
  | .tunnelLine peer idx last tseq tack txt => Sys2Proof.Machine.execTunnelLine peer idx last tseq tack txt s
  | .tunnelData peer idx last tseq tack txt => Sys2Proof.Machine.execTunnelData peer idx last tseq tack txt s
  | .tunnelFinal peer idx last tseq tack txt => Sys2Proof.Machine.execTunnelFinal peer idx last tseq tack txt s
  | .tunnelClose peer tseq tack => Sys2Proof.Machine.execTunnelClose peer tseq tack s
  | .tunnelRefuse peer tseq tack => Sys2Proof.Machine.execTunnelRefuse peer tseq tack s
  | .otpPulseStart => Sys2Proof.Machine.execOtpPulseStart s
  | .otpPulseEnd r row => Sys2Proof.Machine.execOtpPulseEnd r row s
  | .shadowParityCheck bad => Sys2Proof.Machine.execShadowParityCheck bad s
  | .powerOnReset => Sys2Proof.Machine.execPowerOnReset s
  | .vioFall => Sys2Proof.Machine.execVioFall s
  | .rstPin => Sys2Proof.Machine.execRstPin s
  | .vcoreBrownout => Sys2Proof.Machine.execVcoreBrownout s
  | .internalResetRelease mode strap => Sys2Proof.Machine.execInternalResetRelease mode strap s
  | .peonyCoreReset => Sys2Proof.Machine.execPeonyCoreReset s
  | .xtalStartTimeout => Sys2Proof.Machine.execXtalStartTimeout s
  | .peonyLoadTimeout => Sys2Proof.Machine.execPeonyLoadTimeout s
  | .bootComplete => Sys2Proof.Machine.execBootComplete s
  | .txdCharacterSent => Sys2Proof.Machine.execTxdCharacterSent s
  | .ctsNChange high => Sys2Proof.Machine.execCtsNChange high s
  | .chargerHwResume => Sys2Proof.Machine.execChargerHwResume s

end Sys2Proof.Machine
end

