-- ==== Sys2Proof/Safety.lean ====
section
/-! DEFINITION. What a safe configuration of the block is, and the terms that statements use: a session that can take a line,
what its line has brought, and what stays unchanged. -/

namespace Sys2Proof.Safety

open Sys2Proof.Machine

/-! ### Safe configurations -/

/-- The addressed memories of the block are in canonical form. -/
def memoriesWf (p : Peony) : Bool :=
  Memory.wf p.active && Memory.wf p.shadow && Memory.wf p.runtime && Memory.wf p.isl.store

/-- The switches of a half-bridge are never on together (R253). -/
def legSafe (l : Leg) : Bool := !(l.hi && l.lo)

/-- No half-bridge of a die conducts through both switches. -/
def gatesSafe (p : Peony) : Bool := [Axis.a, Axis.b].all fun x => (p.ax.get x).leg.toList.all legSafe

/-- A bit of OTP that is burned in one state is burned in the other: the array and the copies of the wired row (R559, R565). -/
def burnedKept (s t : Otp) : Prop :=
  (∀ w, rawOf s w &&& ~~~ rawOf t w = 0) ∧
    s.copies.u &&& ~~~t.copies.u = 0 ∧ s.copies.v &&& ~~~t.copies.v = 0 ∧ s.copies.w &&& ~~~t.copies.w = 0
where
  /-- The raw 39 bits of a word. -/
  rawOf (o : Otp) (w : Nat) : BitVec 39 := ((o.array.find? fun p => p.1 == w).map (·.2)).getD 0

/-! ### Sessions and their lines -/

/-- A session that can start a line now (R107, R156, R482): lines start, it is open, and no line of it is in progress. -/
def Ready (x : Sess) (s : State) : Prop := s.starts = true ∧ (s.ses x).isOpen = true ∧ (s.ses x).running = none

/-- No command waits for the loop engine on an axis, of a line or of a group command (R362, R541). -/
abbrev NoHand (s : State) (y : Axis) : Prop := (s.loop.get y).hand = none ∧ (s.loop.get y).grpHand = none

/-- The line that stands last in the output of a session: in its hold when anything is held, else in its buffer. -/
def lastLine (se : Session) : Option Text := match se.held.getLast? with
  | some l => some l.chars
  | none => se.out.getLast?.map (·.chars)

/-- What a line does to its session beside its own effect: whether it runs, the output with the notices before it, the
counts, the mark of its data lines, and the time of its end. -/
def LineOnly (se se' : Session) : Prop :=
  se' = { se with running := se'.running, cancel := se'.cancel, lineAt := se'.lineAt, out := se'.out, held := se'.held, notices := se'.notices,
                  data := se'.data, lines := se'.lines, errs := se'.errs, doneAt := se'.doneAt }

/-- Every other session is as before. -/
def OthersKept (x : Sess) (s u : State) : Prop := ∀ y, y ≠ x → u.ses y = s.ses y

/-- Nothing outside the sessions has changed. -/
def OnlySessions (s u : State) : Prop := u = { s with sess := u.sess }

/-- Nothing outside one session has changed. -/
def OnlySession (x : Sess) (s u : State) : Prop := OnlySessions s u ∧ OthersKept x s u

/-- The line of a session has ended with a final reply, framed as the session frames it (R136, R140, R149); its session is
left as `se` and everything else as in `s`. -/
def Answered (x : Sess) (t : Text) (se : Session) (s u : State) : Prop :=
  (u.ses x).running = none ∧ lastLine (u.ses x) = some (frameReply (directFrame (s.ses x)) t ++ crlf) ∧
    LineOnly se (u.ses x) ∧ OnlySession x s u

/-- The line of a session runs on and waits for something; everything else is as in `s`. -/
def Started (x : Sess) (w : Wait) (s u : State) : Prop :=
  (u.ses x).running.map (·.wait) = some w ∧ LineOnly (s.ses x) (u.ses x) ∧ OnlySession x s u

/-- The line of a session gives data lines and then `ok`: all of them have been placed and the line has ended, or some have
been placed and the rest waits for room in the reply buffer (R108, R149). Nothing else changes. -/
def GivesData (x : Sess) (ds : List Text) (s u : State) : Prop :=
  LineOnly (s.ses x) (u.ses x) ∧ OnlySession x s u ∧
  (((u.ses x).running = none ∧ lastLine (u.ses x) = some (frameReply (directFrame (s.ses x)) (txt "ok") ++ crlf)) ∨
    ∃ shown rest, ds = shown ++ rest ∧ rest ≠ [] ∧ (u.ses x).running.map (·.wait) = some (.chunk rest (txt "ok")))

/-- The lines that a session sends for data lines under a framing (R130, R149). -/
def dataLines (f : Frame) (ds : List Text) : List Text := ds.map fun d => frameReply f ('|' :: ' ' :: d) ++ crlf

/-- How many of these lines find room for a line, one after the other, in a reply buffer that holds a number of characters
(R108). -/
def placed (used : Nat) : List Text → Nat
  | [] => 0
  | l :: r => if 512 - used < 164 then 0 else placed (used + l.length) r + 1

/-- The texts in the output of a session. -/
def outTexts (se : Session) : List Text := se.out.map (·.chars)

/-- All data lines of a line have been sent, then its final reply, and the line has ended. Nothing else changes (R108, R149). -/
def GivesAll (x : Sess) (f : Frame) (ds : List Text) (fin : Text) (s u : State) : Prop :=
  (u.ses x).running = none ∧ outTexts (u.ses x) = outTexts (s.ses x) ++ dataLines f ds ++ [frameReply f fin ++ crlf] ∧
    LineOnly (s.ses x) (u.ses x) ∧ OnlySession x s u

/-- The first n data lines of a line have been sent, and the line goes on when there is room for the next. Nothing else changes
(R108). -/
def GivesFirst (x : Sess) (f : Frame) (n : Nat) (ds : List Text) (fin : Text) (s u : State) : Prop :=
  (u.ses x).running.map (·.wait) = some (.chunk (ds.drop n) fin) ∧
    outTexts (u.ses x) = outTexts (s.ses x) ++ (dataLines f ds).take n ∧
    LineOnly (s.ses x) (u.ses x) ∧ OnlySession x s u

/-- The line of a session waits for FRAM: beside the session, the requests at the port and the counters, everything is as
in `s`. -/
def AsksFram (x : Sess) (w : Wait) (s u : State) : Prop :=
  (u.ses x).running.map (·.wait) = some w ∧ LineOnly (s.ses x) (u.ses x) ∧ OthersKept x s u ∧
  u = { s with sess := u.sess, cnt := u.cnt, fram := { s.fram with queue := u.fram.queue, cur := u.fram.cur } }

/-- The line of a session has started a commit of entries and waits for it (R190, R196). -/
def StartsCommit (x : Sess) (ents : Store) (s u : State) : Prop :=
  (∃ c, u.commit = some c ∧ c.ents = ents ∧ c.phase = .build ∧ c.load = false ∧ c.start = s.mtick ∧
    c.window = s.parN 0x0020 ∧ c.sw = none ∧ c.applied = none ∧ c.opened = false ∧ c.err = 0) ∧
  (u.ses x).running.map (·.wait) = some .commit ∧ LineOnly (s.ses x) (u.ses x) ∧ OthersKept x s u ∧
  (recEntries ents ≠ [] → framBusy u .record = true) ∧
  u = { s with sess := u.sess, cnt := u.cnt, commit := u.commit, pwr := { s.pwr with bias := u.pwr.bias },
               host := { s.host with crossed := none }, fram := { s.fram with queue := u.fram.queue, cur := u.fram.cur } }

/-- A line that waited has ended with a final reply under its own framing (R110, R149). -/
def Ended (x : Sess) (rn : Running) (t : Text) (u : State) : Prop :=
  (u.ses x).running = none ∧ lastLine (u.ses x) = some (frameReply rn.line.frame t ++ crlf)

/-- A line that waited for PARAM has it and has run its section: `discard` has emptied the staging set, `stage` and a `set` that stages
have placed their value, and `staged` has sent its data lines where they find room. Peony and the other sessions are as before
(R114, R185, R186, R188). -/
def SectionRuns (x : Sess) (rn : Running) (s u : State) : Prop :=
  OthersKept x s u ∧ u.pe = s.pe ∧
  (rn.wait = .param .discard → aboveLevel (s.ses x).level (s.ses x).staging = none →
    (u.ses x).staging = [] ∧ Ended x rn (txt "ok") u) ∧
  (∀ r v p n, rn.wait = .param (.stage r v) ∨ rn.wait = .param (.set r v) ∧ (s.ses x).auto = false →
    findRef r = some (p, false) → writeCheck s (s.ses x).level false p false = none → p.eff ≠ .line → p.eff ≠ .tmux →
    readValue p v = .ok n → valueCheck s p.id n = none → (s.ses x).staging.length < 256 →
    (u.ses x).staging = storePut (s.ses x).staging p.id n ∧ Ended x rn (txt "ok") u) ∧
  (rn.wait = .param .staged → (u.ses x).staging = (s.ses x).staging ∧
    ((s.ses x).notices = [] → holdsReply s x rn.line.tick = false →
      let ls := dataLines rn.line.frame ((s.ses x).staging.map stagedLine)
      placed (s.ses x).used ls = ls.length →
      outTexts (u.ses x) = outTexts (s.ses x) ++ ls ++ [frameReply rn.line.frame (txt "ok") ++ crlf] ∧ (u.ses x).running = none))

/-! ### Gates of Peony -/

/-- Every gate of an axis is off. -/
def allOff (s : State) (ax : Axis) : Prop :=
  ∀ p, ((s.pe.ax.get ax).leg.get p).hi = false ∧ ((s.pe.ax.get ax).leg.get p).lo = false

/-- Only the axis, the count of bad commands and the mark of the frame have changed. -/
def GateOnly (ax : Axis) (s t : State) : Prop :=
  t = { s with cnt := t.cnt, pe := { s.pe with
    gotDown := true, ax := s.pe.ax.set ax (t.pe.ax.get ax), an := { s.pe.an with busBlank := t.pe.an.busBlank, busBlankN := t.pe.an.busBlankN } } }

/-- Only one leg of an axis has changed, with the records of the tick and the blanking of the bus comparator. -/
def LegOnly (ax : Axis) (p : Phase) (s t : State) : Prop :=
  t = { s with pe := { s.pe with
    ax := s.pe.ax.set ax { s.pe.ax.get ax with leg := (s.pe.ax.get ax).leg.set p ((t.pe.ax.get ax).leg.get p) },
    an := { s.pe.an with busBlank := t.pe.an.busBlank, busBlankN := t.pe.an.busBlankN }, tickRecs := t.pe.tickRecs } }

/-- An axis is in *rest* with every gate off (R297). -/
def Rests (t : State) (ax : Axis) : Prop := allOff t ax ∧ (t.pe.ax.get ax).latch = .rest

/-- Peony has latched a fault: its FLT_L is driven and the line is low, the fault is in its list, and a record of the tick
carries the code and the mask. Beside its axes and its analogue part nothing else changes (R21, R294). -/
def PeonyStops (code mask : Byte) (axes : BitVec 2) (s t : State) : Prop :=
  t.pe.flt = true ∧ t.link.low = true ∧ t.pe.faults = s.pe.faults ++ [(code, axes.zeroExtend 8)] ∧
  (∃ r ∈ t.pe.tickRecs, r.mask &&& mask = mask ∧ (code ≠ 1 → r.code = code) ∧ (code = 1 → r.code = 1 ∨ r.code = 2)) ∧
  t = { s with
    pe := { s.pe with ax := t.pe.ax, an := t.pe.an, tickRecs := t.pe.tickRecs, faults := t.pe.faults, flt := true },
    link := { s.link with low := true, lowAt := t.link.lowAt }, fltN := t.fltN }

/-- The axes of a shunt that has tripped: each that was free or in class E *release* is in class S *release* with its gates
off; an axis whose gates are in class S *release* or *rest* stays so, and an axis of another shunt keeps its gates (R287-R289). -/
def ShortTaken (sh : Shunt) (s t : State) : Prop :=
  ∀ y, (hasAxis (shuntAxes sh) y = true → (s.pe.ax.get y).latch = .free ∨ (s.pe.ax.get y).latch = .relE →
      allOff t y ∧ (t.pe.ax.get y).latch = .relS) ∧
    (hasAxis (shuntAxes sh) y = true → (s.pe.ax.get y).latch = .relS ∨ (s.pe.ax.get y).latch = .rest →
      (t.pe.ax.get y).latch = (s.pe.ax.get y).latch) ∧
    (hasAxis (shuntAxes sh) y = false → (t.pe.ax.get y).latch = (s.pe.ax.get y).latch ∧
      ∀ p, ((t.pe.ax.get y).leg.get p).hi = ((s.pe.ax.get y).leg.get p).hi ∧
        ((t.pe.ax.get y).leg.get p).lo = ((s.pe.ax.get y).leg.get p).lo)

/-! ### Faults of Aster -/

/-- No axis outside a set is degraded in a motion, so that a stop meets no hold point whose fault would follow it (R398). -/
def NoHoldDue (axes : BitVec 2) (s : State) : Prop :=
  ∀ y, (s.loop.get y).holdDue = .none ∧ (hasAxis axes y = true ∨ (s.loop.get y).degr = .none ∨ s.moving y = false)

/-- Aster has stopped for a fault of its own: the fault joins its list, FLT_L is driven and low, each axis is LATCHED or
disarmed with RELEASE in its word, and an armed axis moves no more. Only the fault of a degraded axis that the stop takes out of its
motion may follow it (R398). Peony, the sets, OTP and the tick are as before (R22, R79, R294). -/
def AsterStops (k : Nat) (axes : BitVec 2) (s t : State) : Prop :=
  t.faults.take s.faults.length = s.faults ∧
  (∃ f gs, t.faults.drop s.faults.length = f :: gs ∧ f.kind = k ∧ f.axes = axes ∧ f.die = .aster ∧ f.tick = s.tick ∧
    (∀ g ∈ gs, g.die = .aster ∧ (g.kind = 0x0A ∨ g.kind = 0x09)) ∧
    (NoHoldDue axes s → gs = [])) ∧
  t.link.flt = true ∧ t.link.low = true ∧
  (∀ y, (t.loop.get y).st = (if t.latchedOn y then .latched else .disarmed) ∧
    (t.loop.get y).word = { GateWord.off with cmd := 4 } ∧ (s.armed y = true → t.moving y = false)) ∧
  t.pe = s.pe ∧ t.prm = s.prm ∧ t.otp = s.otp ∧ t.tick = s.tick

end Sys2Proof.Safety
end

