-- ==== Sys2Proof/Certificates/Slice0/Obligations.lean ====
section
/-! DEFINITION. The statements for the provers. -/

open Sys2Proof Sys2Proof.Machine Sys2Proof.Safety

/-! ### The queue -/

/-- A step performs the command at the front of the queue on the state with the rest of the queue. -/
def Obligations.FrontCommandRuns : Prop :=
  ∀ (c : Instr) (q : List Instr) (s : State), step { s with pending := c :: q } = exec c { s with pending := q }

/-! ### Lines of a session: its own settings, reads and staging (chapters 05, 06) -/

/-- `mode`, `echo`, `sub`, `unsub` and `auto` change one setting of their own session and nothing else; `mode typed` and `echo`
on a tunnel session are `err 30` and change nothing (R133, R137, R153, R157). -/
def Obligations.SessionSettingsAct : Prop :=
  ∀ (x : Sess) (s : State), Ready x s →
    (x = .h → ∃ t, exec (.modeTyped x) s = .next t ∧ Answered x (txt "ok") { s.ses x with machine := false } s t) ∧
    (x ≠ .h → ∃ t, exec (.modeTyped x) s = .next t ∧ Answered x (errText 30 none) (s.ses x) s t) ∧
    (∃ t, exec (.modeMachine x) s = .next t ∧ Answered x (txt "ok") { s.ses x with machine := true } s t) ∧
    (∀ on, x = .h → ∃ t, exec (.echo x on) s = .next t ∧ Answered x (txt "ok") { s.ses x with echo := on } s t) ∧
    (∀ on, x ≠ .h → ∃ t, exec (.echo x on) s = .next t ∧ Answered x (errText 30 none) (s.ses x) s t) ∧
    (∀ cs m, cs ≠ [] → classMask cs = some m →
      ∃ t, exec (.sub x cs) s = .next t ∧ Answered x (txt "ok") { s.ses x with subs := (s.ses x).subs ||| m } s t) ∧
    (∀ cs m, cs ≠ [] → classMask cs = some m →
      ∃ t, exec (.unsub x cs) s = .next t ∧ Answered x (txt "ok") { s.ses x with subs := (s.ses x).subs &&& ~~~m } s t) ∧
    (∀ on, ∃ t, exec (.auto x on) s = .next t ∧ Answered x (txt "ok") { s.ses x with auto := on } s t)

/-- `help`, `list`, `info`, `staged`, `vlog dump` and `otp status` give the data lines of their tables and then `ok`, in as many turns
as the reply buffer needs, and change nothing. Where no notice waits and no reply is held, the lines that fit are sent at once: with
room for all of them the line ends with `ok`, and otherwise it goes on with the first that found none. `log dump` asks FRAM for its
entries and waits for them; without an entry to show it is `ok` at once (R95, R104, R108, R149, R155, R188, R220, R585, R654, R726,
R727). The text of `help` is a free value (log 49). -/
def Obligations.ReadLinesGiveData : Prop :=
  (∀ (x : Sess) (s : State) (c : Instr) (ds : List Text), Ready x s →
    ((∃ w, c = .help x w ∧ (∀ t ∈ w, ∃ n ∈ commandWords, txt n = t) ∧ ds = (Config.helpText w).map fun l => l.take 140) ∨
     (∃ pre, c = .list x pre ∧ ds = listLines (s.ses x).level pre) ∨
     (∃ r p e, c = .info x r ∧ findRef r = some (p, e) ∧ reaches (s.ses x).level (readLevel p) = true ∧ ds = infoLines s p e) ∨
     (c = .staged x ∧ s.commit = none ∧ ds = (s.ses x).staging.map stagedLine) ∨
     (c = .vlogDump x ∧ (s.ses x).level ≠ .user ∧ ds = s.log.vlog.map violationLine) ∨
     (c = .otpStatus x none ∧ (s.ses x).level ≠ .user ∧ s.otp.run = none ∧ ds = otpRegions.map (regionLine s)) ∨
     (∃ n g a b, (n, g, a, b) ∈ otpRegions ∧ c = .otpStatus x (some (txt n)) ∧ (s.ses x).level ≠ .user ∧ s.otp.run = none ∧
       ds = ((wordsOf a b).filter fun w => (s.otpMark w).mark != .blank).map (wordLine s (g == 3)))) →
    (∃ t, exec c s = .next t ∧ GivesData x ds s t) ∧
    ((s.ses x).notices = [] → holdsReply s x s.tick = false →
      let f := directFrame (s.ses x)
      let n := placed (s.ses x).used (dataLines f ds)
      (n = ds.length → ∃ t, exec c s = .next t ∧ GivesAll x f ds (txt "ok") s t) ∧
      (n < ds.length → ∃ t, exec c s = .next t ∧ GivesFirst x f n ds (txt "ok") s t))) ∧
  (∀ (x : Sess) (seq count : Option Nat) (s : State), Ready x s →
    (dumpEntries s seq count = [] → ∃ t, exec (.logDump x seq count) s = .next t ∧ Answered x (txt "ok") (s.ses x) s t) ∧
    (dumpEntries s seq count ≠ [] → ∃ t, exec (.logDump x seq count) s = .next t ∧ AsksFram x (.dump seq count) s t ∧
      framBusy t (.logRead x) = true))

/-- `get` of a parameter that can be written answers its value in the set in force, in its own form, and changes nothing; `get` of
any other one answers its reading, or its twin, after the snapshot that this parameter takes, `-` where nothing has produced it yet
(R150, R183, R184, R340, R534, R731). -/
def Obligations.GetReadsSetInForce : Prop :=
  (∀ (x : Sess) (r : ParRef) (p : Par) (s : State), Ready x s → findRef r = some (p, false) → p.write.isSome = true →
    p.id ≠ 0x6000 → p.id ≠ 0x7000 → p.id ≠ 0x7001 → readSnapshot x p.id s = s →
    reaches (s.ses x).level (readLevel p) = true →
    ∃ t, exec (.get x r) s = .next t ∧ Answered x (txt "= " ++ showValue p (s.par p.id)) (s.ses x) s t) ∧
  (∀ (x : Sess) (r : ParRef) (p : Par) (e : Bool) (s u : State), Ready x s → findRef r = some (p, e) →
    reaches (s.ses x).level (readLevel p) = true → u = readSnapshot x p.id s →
    ∃ t, exec (.get x r) s = .next t ∧
      Answered x (txt "= " ++ showOpt (if e then twinPar p else p) (getValue u x p e)) (u.ses x) u t)

/-- A name or an ID that no parameter has is `err 20 NO_PARAM`, with the ID when it was given as one. A write lock or a level refuses
a write before its value is read: `err 21` for a read-only parameter, `err 22` for a level too low, `err 23` for a lock. Each is a
violation, and no set changes (R14, R143, R168, R205, R206, R219, R596). -/
def Obligations.RefusedAccessIsViolation : Prop :=
  (∀ (x : Sess) (n : Nat) (e : Bool) (s : State), Ready x s → findRef (.id n e) = none → s.log.vlog.length < 64 →
    ∃ t v, exec (.get x (.id n e)) s = .next t ∧ t.log.vlog = s.log.vlog ++ [v] ∧
      v.code = 20 ∧ v.sess = sessNum x ∧ v.level = (s.ses x).level ∧ v.addr = some (false, n) ∧ v.tick = s.tick ∧
      v.cmdw = txt "get" ∧ lastLine (t.ses x) = some (frameReply (directFrame (s.ses x)) (errText 20 (some n)) ++ crlf) ∧
      t.count 0x7852 = min 65535 (s.count 0x7852 + 1) ∧
      t = { s with sess := t.sess, cnt := t.cnt, log := { s.log with vlog := t.log.vlog, vseq := t.log.vseq } } ∧
      OthersKept x s t) ∧
  (∀ (x : Sess) (r : ParRef) (v : Text) (p : Par) (c : Nat) (s : State), Ready x s → findRef r = some (p, false) →
    writeCheck s (s.ses x).level false p false = some c → 20 ≤ c → c ≤ 23 →
    (∃ t, exec (.set x r v) s = .next t ∧
      lastLine (t.ses x) = some (frameReply (directFrame (s.ses x)) (errText c (some p.id)) ++ crlf) ∧
      LineOnly (s.ses x) (t.ses x) ∧ OthersKept x s t ∧
      t = { s with sess := t.sess, cnt := t.cnt, log := { s.log with vlog := t.log.vlog, vseq := t.log.vseq } }) ∧
    (∃ t, exec (.stage x r v) s = .next t ∧
      lastLine (t.ses x) = some (frameReply (directFrame (s.ses x)) (errText c (some p.id)) ++ crlf) ∧
      LineOnly (s.ses x) (t.ses x) ∧ OthersKept x s t ∧
      t = { s with sess := t.sess, cnt := t.cnt, log := { s.log with vlog := t.log.vlog, vseq := t.log.vseq } }))

/-- `stage`, and `set` under `auto off`, place the value in the staging set of their session; `discard` empties it, and waits for PARAM
while a commit runs. Nothing else changes (R114, R153, R185, R186). -/
def Obligations.StagingActs : Prop :=
  (∀ (x : Sess) (r : ParRef) (v : Text) (p : Par) (n : Int) (s : State), Ready x s → findRef r = some (p, false) →
    writeCheck s (s.ses x).level false p false = none → p.eff ≠ .line → p.eff ≠ .tmux → readValue p v = .ok n →
    valueCheck s p.id n = none → (s.ses x).staging.length < 256 → s.committing = false →
    (∃ t, exec (.stage x r v) s = .next t ∧
      Answered x (txt "ok") { s.ses x with staging := storePut (s.ses x).staging p.id n } s t) ∧
    ((s.ses x).auto = false → ∃ t, exec (.set x r v) s = .next t ∧
      Answered x (txt "ok") { s.ses x with staging := storePut (s.ses x).staging p.id n } s t)) ∧
  (∀ (x : Sess) (s : State), Ready x s → aboveLevel (s.ses x).level (s.ses x).staging = none →
    (s.committing = false → ∃ t, exec (.discard x) s = .next t ∧
      Answered x (txt "ok") { s.ses x with staging := [] } s t) ∧
    (s.committing = true → ∃ t, exec (.discard x) s = .next t ∧
      Started x (.param .discard) (s.modHost fun h => { h with waiters := h.waiters ++ [(x, s.etime)] }) t))

/-! ### Commits and the persisted set (chapter 06) -/

/-- `commit`, and `set` under `auto on`, whose checks pass start a commit of their entries: its window opens at this ms tick,
it is in BUILD with its record asked for, and the line waits for it. The set in force, the persisted set and Peony stay as they are
(R153, R187, R189, R190, R196, R198). -/
def Obligations.CommitStartsInBuild : Prop :=
  ∀ (x : Sess) (s : State), Ready x s → s.commit = none → s.fram.journal.length < 64 →
    ((s.ses x).staging ≠ [] →
      (∀ e ∈ (s.ses x).staging, ∀ p, parById e.1 = some p → ∀ l, p.write = some l → reaches (s.ses x).level l = true) →
      (∀ e ∈ (s.ses x).staging, ∃ p l, parById e.1 = some p ∧ p.write = some l) →
      (∀ e ∈ (s.ses x).staging, lockedFor s (s.ses x).level e.1 = false) → commitCheck s (s.ses x).staging = none →
      ∃ t, exec (.commit x) s = .next t ∧ StartsCommit x (s.ses x).staging s t) ∧
    (∀ r v p n, findRef r = some (p, false) → writeCheck s (s.ses x).level false p false = none → p.eff ≠ .line →
      p.eff ≠ .tmux → readValue p v = .ok n → valueCheck s p.id n = none → (s.ses x).auto = true →
      commitCheck s [(p.id, n)] = none →
      ∃ t, exec (.set x r v) s = .next t ∧ StartsCommit x [(p.id, n)] s t)

/-- `save` and `defaults` ask FRAM for a write of a base slot, with every persisted value of the set in force or with
the defaults, those of the generation in force among them, and `sec.bundle.seq`; the line waits for it. What FRAM holds, the set in force and Peony stay as they are until
then (R197, R203, R204, R584). -/
def Obligations.SaveAsksForBaseSlot : Prop :=
  ∀ (x : Sess) (s : State), Ready x s → (s.ses x).level ≠ .user → s.commit = none → s.fram.present = true →
    (∃ t, exec (.save x) s = .next t ∧ framBusy t (.base .save (fullSet s.prm.now)) = true ∧
      AsksFram x (.base .save) s t) ∧
    (s.otp.wrow.getLsbD 10 = false → ∃ t, exec (.defaults x) s = .next t ∧
      framBusy t (.base .defaults (fullSet (storePut (genDefaults s) 0x6410 (s.par 0x6410)))) = true ∧
      AsksFram x (.base .defaults) s t)

/-! ### Axis commands of Forul (chapters 09, 11, 12) -/

/-- `arm`, `disarm`, `move` and `stop` whose checks pass are handed over to the loop engine, and the line waits for it; nothing
else changes until the loop engine runs, but that `move` asks FRAM for the first records of its profile. `arm` of an armed axis, and `disarm` and `stop` of axes that have nothing to end, are
`ok` at once (R105, R362, R363, R368, R399, R400). -/
def Obligations.AxisCommandsHandOver : Prop :=
  ∀ (x : Sess) (s : State), Ready x s →
    (∀ ax, s.armed ax = false → armCheck s ax = none → NoHand s ax →
      ∃ t, exec (.arm x ax) s = .next t ∧
        Started x (.axis (.one ax) .arm) (s.modLoop ax fun l => { l with hand := some .arm }) t) ∧
    (∀ ax, s.armed ax = true → ∃ t, exec (.arm x ax) s = .next t ∧ Answered x (txt "ok") (s.ses x) s t) ∧
    (∀ sel, (∀ y ∈ selAxes sel, s.armed y = true ∧ NoHand s y) →
      ∃ t, exec (.disarm x sel) s = .next t ∧
        Started x (.axis sel .disarm) (forAll (selAxes sel) (fun y s => s.modLoop y fun l => { l with hand := some .disarm }) s) t) ∧
    (∀ sel, (∀ y ∈ selAxes sel, s.armed y = false ∧ NoHand s y) →
      ∃ t, exec (.disarm x sel) s = .next t ∧ Answered x (txt "ok") (s.ses x) s t) ∧
    (∀ ax p, moveCheck s ax p = none → NoHand s ax →
      ∃ t, exec (.move x ax p) s = .next t ∧
        (t.ses x).running.map (·.wait) = some (.axis (.one ax) (.move p)) ∧ LineOnly (s.ses x) (t.ses x) ∧ OthersKept x s t ∧
        (s.fram.present = true → framBusy t (.prefetchSeg ax) = true) ∧
        t = { s with sess := t.sess, cnt := t.cnt, loop := s.loop.set ax { s.loop.get ax with hand := some (.move p) },
                     fram := { s.fram with queue := t.fram.queue, cur := t.fram.cur } }) ∧
    (∀ sel, s.coupled = false → (∀ y ∈ selAxes sel, s.moving y = true ∧ NoHand s y) →
      ∃ t, exec (.stop x sel) s = .next t ∧
        Started x (.axis sel .stop) (forAll (selAxes sel) (fun y s => s.modLoop y fun l => { l with hand := some .stop }) s) t) ∧
    (∀ sel, (∀ y, s.moving y = false ∧ (s.mot.get y).learn = none ∧ (s.loop.get y).hand = none) →
      ∃ t, exec (.stop x sel) s = .next t ∧ Answered x (txt "ok") (s.ses x) s t)

/-- `diag` requests a diagnosis and waits for its result word (R305, R306). `clear` and `clear all` of axes that have nothing to
clear are `ok`; with a cause that stands they are `err 36`; else they are handed over to the loop engine and wait for its acceptance.
In SAFE, where no frame carries CLEAR, the faults of axes without a class S fault end at once, and the line is `ok`
(R301-R304, R362; log 43, log 44). -/
def Obligations.DiagAndClearStart : Prop :=
  ∀ (x : Sess) (s : State), Ready x s →
    (∀ ax, s.ticking = true → (s.ses x).level ≠ .user → s.armed ax = false → ∃ t, exec (.diag x ax) s = .next t ∧
      Started x (.diag ax) (s.modLoop ax fun l => if l.diagRun then l else { l with wantDiag := true }) t) ∧
    ∀ sel c, (sel = .all ∧ c = Instr.clearAll x ∨ ∃ ax, sel = .one ax ∧ c = .clear x ax) →
      (clearable s (selMask sel) = false → ∃ t, exec c s = .next t ∧ Answered x (txt "ok") (s.ses x) s t) ∧
      (clearable s (selMask sel) = true → (∃ y ∈ selAxes sel, clearBlocked s y = true) →
        ∃ t, exec c s = .next t ∧ Answered x (errText 36 none) (s.ses x) s t) ∧
      (clearable s (selMask sel) = true → (∀ y ∈ selAxes sel, clearBlocked s y = false) →
        (s.ticking = true → s.dev ≠ .safe → (∀ y ∈ selAxes sel, NoHand s y) → ∃ t, exec c s = .next t ∧
          Started x (.axis sel .clear)
            (forAll (selAxes sel) (fun y s => s.modLoop y fun l => { l with hand := some .clear }) s) t) ∧
        (s.dev = .safe → (∀ y ∈ selAxes sel, s.classS y = false) → ∃ t, exec c s = .next t ∧
          (t.ses x).running = none ∧ lastLine (t.ses x) = some (frameReply (directFrame (s.ses x)) (txt "ok") ++ crlf) ∧
          t.faults = faultsAfter (selMask sel) s.faults ∧ t.prm = s.prm ∧ t.pe = s.pe ∧ t.otp = s.otp ∧ t.commit = s.commit))

/-- `cal offset`, `cal align` and `cal learn` on axes in the state that each needs start their procedure and wait for its end;
nothing else changes yet (R377, R378, R412, R413). -/
def Obligations.CalibrationsStart : Prop :=
  ∀ (x : Sess) (ax : Axis) (s : State), Ready x s → (s.ses x).level ≠ .user →
    (s.disarmed ax = true → (s.loop.get ax).word.cmd = 0 ∨ (s.loop.get ax).word.cmd = 4 → (s.loop.get ax).relAt = none →
      stillNow s ax = true → s.ticking = true → (s.loop.get ax).cal = none →
      ∃ t, exec (.calOffset x ax) s = .next t ∧
        Started x (.calOffset ax)
          ((s.modPos ax fun p => { p with fast := false }).modLoop ax fun l => { l with cal := some (.offset 0 (.all 0) []) }) t) ∧
    (1 ≤ s.commMode ax → s.commMode ax ≤ 3 → s.ready ax = true → s.moving ax = false → (s.loop.get ax).cal = none →
      (s.mot.get ax).learn = none → (s.loop.get ax).hand = none →
      ∃ t, exec (.calAlign x ax) s = .next t ∧
        Started x (.calAlign ax) (s.modLoop ax fun l => { l with cal := some (.align 1 s.etime 0 0 0 [] []) }) t) ∧
    ((s.coupled = true → ax = .a) → (∀ y ∈ learnAxes s ax, learnOk s y = true) →
      ∃ t g, exec (.calLearn x ax) s = .next t ∧ g.pair = s.coupled ∧ g.run = false ∧
        g.next = (if atTarget s ax (s.axn ax 0x1A3) then s.axn ax 0x1A4 else s.axn ax 0x1A3) ∧
        Started x (.calLearn ax) (forAll (learnAxes s ax) (fun y s => s.modMot y fun m => { m with learn := some g }) s) t)

/-! ### Levels and bundles (chapter 18) -/

/-- `auth <level>` opens a challenge with a fresh nonce and answers it in groups; the right response sets the level, discards
the challenge and clears the count of wrong responses; a wrong one is `err 24` and counts, and at the limit starts the lockout; FRAM
takes the count and the end of the lockout. `logout` returns to USER (R597, R599-R602). -/
def Obligations.ElevationActs : Prop :=
  ∀ (x : Sess) (s : State), Ready x s →
    (∀ lv l key, authLevel lv = some l → (l = .factory → x = .h) → s.lockAt = none → levelKey s l = some key →
      (∃ t nonce, nonce.length = 16 ∧ exec (.authChallenge x lv) s = .next t ∧
        Answered x (txt "= " ++ groupHex nonce) { s.ses x with chal := some { level := l, nonce := nonce, at_ := s.etime } }
          { s with free := s.free + 1 } t) ∧
      (∀ c resp bs, (s.ses x).chal = some c → c.level = l → s.since c.at_ ≤ 1000000 * s.parN 0x6403 →
        readResponse resp = some bs →
        (bs = authResponse s x l key c.nonce → ∃ t, exec (.authResponse x lv resp) s = .next t ∧
          (t.ses x).level = l ∧ (t.ses x).chal = none ∧ (t.ses x).running = none ∧
          lastLine (t.ses x) = some (frameReply (directFrame (s.ses x)) (txt "ok") ++ crlf) ∧ OthersKept x s t ∧
          (s.tries ≠ 0 → framBusy t (.auth 0 none) = true) ∧
          t = { s with sess := t.sess, cnt := t.cnt, tries := 0, fram := { s.fram with queue := t.fram.queue, cur := t.fram.cur } }) ∧
        (bs ≠ authResponse s x l key c.nonce → ∃ t, exec (.authResponse x lv resp) s = .next t ∧
          (t.ses x).level = (s.ses x).level ∧ (t.ses x).running = none ∧
          lastLine (t.ses x) = some (frameReply (directFrame (s.ses x)) (errText 24 none) ++ crlf) ∧
          t.count 0x78E0 = min 65535 (s.count 0x78E0 + 1) ∧
          (s.tries + 1 < s.parN 0x6401 → t.tries = s.tries + 1 ∧ t.lockAt = none ∧ framBusy t (.auth (s.tries + 1) none) = true) ∧
          (s.parN 0x6401 ≤ s.tries + 1 → t.tries = 0 ∧ t.lockAt = some (s.etime, 1000000 * s.parN 0x6402) ∧
            framBusy t (.auth 0 (some (s.etime + BitVec.ofNat 48 (1000000 * s.parN 0x6402)))) = true)))) ∧
    (∃ t, exec (.logout x) s = .next t ∧ (t.ses x).level = .user ∧ (t.ses x).running = none ∧
      lastLine (t.ses x) = some (frameReply (directFrame (s.ses x)) (txt "ok") ++ crlf) ∧ OthersKept x s t ∧
      t = { s with sess := t.sess, cnt := t.cnt })

/-- A session above USER that has received no line for `sec.idle` returns to USER, and a lockout that has lasted the length that it
started with ends, of which FRAM is told; nothing else changes but the notice of the first (R601, R602). -/
def Obligations.TrustTimesOut : Prop :=
  (∀ (x : Sess) (s : State), s.parN 0x6400 ≠ 0 → 1000000 * s.parN 0x6400 ≤ s.since (s.ses x).lineAt →
    ∃ t, exec (.levelIdleTimeout x) s = .next t ∧ (t.ses x).level = .user ∧ OthersKept x s t ∧
      t.ses x = { s.ses x with level := .user, out := (t.ses x).out, notices := (t.ses x).notices, lost := (t.ses x).lost } ∧
      t = { s with sess := t.sess, cnt := t.cnt }) ∧
  (∀ (s : State) (a : W48) (us : Nat), s.lockAt = some (a, us) → us ≤ s.since a →
    ∃ t, exec .authLockoutEnd s = .next t ∧ framBusy t (.auth s.tries none) = true ∧
      t = { s with lockAt := none, cnt := t.cnt, fram := { s.fram with queue := t.fram.queue, cur := t.fram.cur } })

/-- `bundle begin` opens an empty store, `bundle add` appends the bytes of its tokens, and `bundle end` closes it: a store that
fails the form check is `err 56` and changes no parameter; a bundle that passes every check starts one commit of its entries and
its SEQ (R603, R605-R607). -/
def Obligations.BundlesAct : Prop :=
  ∀ (x : Sess) (s : State), Ready x s →
    (∃ t, exec (.bundleBegin x) s = .next t ∧ Answered x (txt "ok") { s.ses x with bundle := some [] } s t) ∧
    (∀ (ts : List Text) (bss : List (List Byte)) (old : List Byte), ts ≠ [] → (s.ses x).bundle = some old → ts.map readBytes = bss.map some → old.length + bss.flatten.length ≤ 1024 →
      ∃ t, exec (.bundleAdd x ts) s = .next t ∧
        Answered x (txt "ok") { s.ses x with bundle := some (old ++ bss.flatten) } s t) ∧
    ((s.ses x).bundle.bind readBundle = none → ∃ t, exec (.bundleEnd x) s = .next t ∧
      (t.ses x).bundle = none ∧ (t.ses x).running = none ∧ t.bundleWhy = some .format ∧ t.prm = s.prm ∧ t.commit = s.commit ∧
      lastLine (t.ses x) = some (frameReply (directFrame (s.ses x)) (errText 56 none) ++ crlf)) ∧
    (∀ b ents, (s.ses x).bundle.bind readBundle = some b →
      let u := s.modSes x fun se => { se with bundle := none }
      bundleCheck u b = none → s.commit = none → bundleStore u b.level b.entries [] = .ok ents → commitCheck u ents = none →
      s.fram.journal.length < 64 →
      s.par 0x6410 < (b.seq : Int) →
      ∃ t, exec (.bundleEnd x) s = .next t ∧ StartsCommit x (storePut ents 0x6410 b.seq) u t)

/-! ### Sleep, reset, multiplexers and remote lines (chapters 15, 05, 21, 16) -/

/-- `sleep stop` and `sleep watch` whose conditions hold take the values of the entry, record the crocus references, ask FRAM for
the images of the banks 0 and 1 that are not retained, and wait; the entry is in its flush. `reset` is `ok`, and the reset waits
for the reply buffers (R156, R480, R482, R493). -/
def Obligations.SleepAndResetStart : Prop :=
  (∀ (s : State) (watch : Bool) (banks : List Text), Ready .h s → sleepCheck s .h watch banks = none → banks.length ≤ 4 →
    (watch = true → banks = []) →
    ∃ t, exec (if watch then .sleepWatch .h banks else .sleepStop .h banks) s = .next t ∧
      (t.ses .h).running.map (·.wait) = some .sleep ∧ LineOnly (s.ses .h) (t.ses .h) ∧ OthersKept .h s t ∧
      t.pwr.step = .flush ∧ t.pwr.watch = watch ∧ t.pwr.mask = BitVec.ofNat 8 (s.parN 0x4008) ∧ t.pwr.period = s.parN 0x4010 ∧
      t.pwr.confirm = s.parN 0x4013 ∧ t.pwr.src = BitVec.ofNat 6 (s.parN 0x4012) ∧ t.pwr.woken = 0 ∧ t.pwr.abort = none ∧
      t.pwr.timer = (if s.par 0x4002 = 1 then s.parN 0x4003 else 0) ∧ t.pwr.edge = BitVec.ofNat 2 (s.parN 0x4009) ∧
      (watch = true → t.pwr.banks = BitVec.ofNat 4 (s.parN 0x4001)) ∧
      (watch = false → banks = [] → t.pwr.banks = BitVec.ofNat 4 (s.parN 0x4000)) ∧
      (∀ b, b < 2 → t.pwr.banks.getLsbD b = false → framBusy t (.image b) = true) ∧
      t.pwr.refHall.a = s.pos.a.hall ∧ t.pwr.refHall.b = s.pos.b.hall ∧
      t = { s with sess := t.sess, cnt := t.cnt, pwr := t.pwr,
                   fram := { s.fram with queue := t.fram.queue, cur := t.fram.cur } }) ∧
  (∀ (x : Sess) (s : State), Ready x s → (s.ses x).level ≠ .user → ∃ t, exec (.reset x) s = .next t ∧
    Answered x (txt "ok") (s.ses x) (s.modHost fun h => { h with resetting := true }) t)

/-- `tmux d` selects at once and `tmux a` waits for the CONTROL entry of the next ms tick; both only at FACTORY and while the
bit DEBUG_DIS of the wired row is 0. A write of `otp.sticky` sets bits and clears none. `at` puts the framed line of the session
into the tunnel of the node as LINE fragments and waits for its reply (R545, R546, R571, R664, R668, R670). -/
def Obligations.RemoteAndTestLinesAct : Prop :=
  ∀ (x : Sess) (s : State), Ready x s →
    (∀ src n, (s.ses x).level = .factory → s.otp.wrow.getLsbD 3 = false → tmuxSource tmuxDWords 63 src = .ok n →
      ∃ t, exec (.tmuxD x src) s = .next t ∧ Answered x (txt "ok") (s.ses x) (s.modHost fun h => { h with selD := n }) t) ∧
    (∀ src n, (s.ses x).level = .factory → s.otp.wrow.getLsbD 3 = false → tmuxSource tmuxAWords 31 src = .ok n →
      ∃ t, exec (.tmuxA x src) s = .next t ∧ Started x (.tmux n) s t) ∧
    (∀ m p, parById 0x6000 = some p → writeCheck s (s.ses x).level false p false = none →
      ∃ t, exec (.stickyLockWrite x m) s = .next t ∧
        Answered x (txt "ok") (s.ses x) (s.modOtp fun o => { o with sticky := o.sticky ||| m }) t) ∧
    (∀ node line v, x = .h → busLook s = s → s.busSync = true → (s.bus.node = 0 ∨ node = 0) → node ≠ s.bus.node →
      v = s.busSet → ownsTunnel v s.bus.node = true → ownsTunnel v node = true → v 0x5002 ≤ 20000 →
      startsWith (trim line) ['#'] = false → trim line ≠ ['-'] →
      ∀ q, q = ((s.tunnel node).getD (Tunnel.fresh node)) →
      (withCrc ('#' :: dec q.seq ++ ' ' :: trim line)).length ≤ 160 →
      ∃ t, exec (.at x node line) s = .next t ∧ (t.ses x).running.map (·.wait) = some .remote ∧
        LineOnly (s.ses x) (t.ses x) ∧ OthersKept x s t ∧
        t.tunnel node = some { q with
          opened := true, want := some q.seq, seq := (q.seq + 1) % 65536, at_ := s.etime,
          queue := q.queue ++ fragments 1 (textBytes (withCrc ('#' :: dec q.seq ++ ' ' :: trim line))) } ∧
        (∀ n, n ≠ node → t.tunnel n = s.tunnel n) ∧
        t = { s with sess := t.sess, bus := { s.bus with tun := t.bus.tun } })

/-! ### OTP (chapter 17) -/

/-- `otp read` shows a word with its mark and its check bits, a BLANK word as `blank`, and the majority of the wired row; a word of SECR
is `err 23`. `otp burn`, `otp finalise` and `otp gen commit` whose checks pass start an operation that asks for its first intent
record, and the line waits for it; no bit is burned yet (R567, R573, R576, R580, R583, R585). -/
def Obligations.OtpLinesAct : Prop :=
  (∀ (x : Sess) (w : Nat) (s : State), Ready x s → (s.ses x).level ≠ .user → s.otp.run = none →
    (w < 0x200 → regionOf w ≠ 3 → (s.otpMark w).mark = .blank →
      ∃ t, exec (.otpRead x w) s = .next t ∧ Answered x (txt "= blank") (s.ses x) s t) ∧
    (w < 0x200 → regionOf w ≠ 3 → (s.otpMark w).mark ≠ .blank →
      ∃ t, exec (.otpRead x w) s = .next t ∧
        Answered x (txt "= 0x" ++ hex 8 (s.otpShown w).toNat ++ txt " " ++ markText (s.otpMark w).mark ++ txt " ecc 0x" ++
          hex 2 ((s.otpRaw w).extractLsb' 32 7).toNat) (s.ses x) s t) ∧
    (w = 0x200 → ∃ t, exec (.otpRead x w) s = .next t ∧
      Answered x (txt "= 0x" ++ hex 4 s.rowMajority.toNat ++ txt " wired") (s.ses x) s t) ∧
    (0x140 ≤ w → w < 0x160 → ∃ t, exec (.otpRead x w) s = .next t ∧
      lastLine (t.ses x) = some (frameReply (directFrame (s.ses x)) (errText 23 none) ++ crlf) ∧ LineOnly (s.ses x) (t.ses x) ∧
      t = { s with sess := t.sess, cnt := t.cnt, log := { s.log with vlog := t.log.vlog, vseq := t.log.vseq } }) ∧
    (0x200 < w → ∃ t, exec (.otpRead x w) s = .next t ∧ Answered x (errText 13 none) (s.ses x) s t)) ∧
  (∀ (x : Sess) (s : State), Ready x s → s.otp.run = none → s.otpWindow = true →
    let ready := s.tempReady = true
    let begun (u : State) (job : OtpJob) (todo : List (Nat × BitVec 39)) (t : State) : Prop :=
      t.otp.run = some { job := job, by_ := x, todo := todo, pulse := false, again := 0, begun := false, saving := none } ∧
      (∀ w v r, todo = (w, v) :: r → framBusy t (.intent w v) = true) ∧
      (t.ses x).running.map (·.wait) = some .otp ∧ LineOnly (s.ses x) (t.ses x) ∧ OthersKept x s t ∧
      t = { u with sess := t.sess, cnt := t.cnt, otp := { u.otp with run := t.otp.run },
                   fram := { u.fram with queue := t.fram.queue, cur := t.fram.cur } }
    (∀ w v, ready → (s.ses x).level = .factory → w < 0x200 → s.regionShut (regionOf w) = false →
      (regionOf w = 3 → ∀ i, i < 4 → (s.otpData i).isSome = true) → burnRefused s w (burnPattern s w v) = none →
      ∃ t, exec (.otpBurn x w v) s = .next t ∧ begun s (.burn w) [(w, burnPattern s w v)] t) ∧
    (∀ v : W32, ready → (s.ses x).level = .factory → v.extractLsb' 16 16 = 0 → s.regionShut 5 = false →
      ∃ t, exec (.wiredRowBurn x v) s = .next t ∧
        begun s (.wired (v.extractLsb' 0 16)) [(0x200, (v.extractLsb' 0 16).zeroExtend 39)] t) ∧
    (∀ n r a b todo, ready → (s.ses x).level = .factory → (n, r, a, b) ∈ otpRegions.take 4 → s.regionShut r = false →
      (∀ w ∈ regionWords r, (s.otpMark w).mark = .blank ∨ (s.otpMark w).mark = .sealed ∧ Config.marginFails s.free w = false) →
      digestTodo (marginReads r s) r = some todo → todo ≠ [] →
      ∃ t, exec (.otpFinalise x (txt n)) s = .next t ∧ begun { s with free := s.free + 1 } (.finalise r) todo t) ∧
    ((s.ses x).level ≠ .user → s.commit = none → s.otp.sticky.getLsbD 4 = false → genTop s < 16 →
      ∃ t todo, exec (.otpGenCommit x) s = .next t ∧ begun s (.gen (genTop s + 1)) todo t ∧
        todo.map (·.1) = [1, 2, 3, 4, 5, 6, 7, 0].map (genWord (genTop s + 1)) ∧
        todo.map (·.2) = [1, 2, 3, 4, 5, 6, 7, 0].map fun i => eccEncode (nth (genContent s (genTop s + 1)) i 0)))


/-! ### Effects of parameter writes, and snapshots (chapters 10, 14, 16, 20, 24) -/

/-- What a write causes beside its value: `pos.load` sets the counter of its axis, clears the wrap counter and makes the position
valid; `lat.arm` arms the latch and keeps its record; `chg.retry` leaves every state but ERROR and from ERROR lets the charger
qualify; `log.pin.release` asks FRAM for the writes that clear PIN up to an LSEQ, where any slot has it set; a written transmit buffer takes the words into its back copy. A snapshot read
copies a latch record, a receive buffer or the motion records into an open session (R225, R322, R339, R340, R466, R531, R534,
R650, R731). -/
def Obligations.WrittenEffectsAndSnapshotsAct : Prop :=
  (∀ s : State,
    (∀ ax, ∃ t, exec (.posLoad ax) s = .next t ∧
      t.pos.get ax = { s.pos.get ax with
        pos := BitVec.ofInt 32 (s.axp ax 0x0B2), wrap := 0, valid := true, latWait := (t.pos.get ax).latWait } ∧
      t.pos.get (otherAxis ax) = s.pos.get (otherAxis ax) ∧ (t.loop.get ax).offRt = none ∧
      t.loop.get (otherAxis ax) = s.loop.get (otherAxis ax) ∧ t.mot.get (otherAxis ax) = s.mot.get (otherAxis ax) ∧
      (s.moving ax = true → (t.mot.get ax).st = .stopping ∧ (t.mot.get ax).aborting = true) ∧
      t = { s with pos := t.pos, loop := t.loop, mot := t.mot }) ∧
    (∀ ax n, ∃ t, exec (.latchArm ax n) s = .next t ∧
      (t.pos.get ax).latch n.val = { rcd := { ((s.pos.get ax).latch n.val).rcd with count := 0, full := false }, armed := true } ∧
      (t.pos.get ax).latch (1 - n.val) = (s.pos.get ax).latch (1 - n.val) ∧
      t = s.modPos ax fun p => { p with lat := (t.pos.get ax).lat, latWait := p.latWait.filter fun w => w.n != n.val }) ∧
    (s.chg.st ≠ .error → exec .chargerRetry s = .next s) ∧
    (s.chg.st = .error → ∃ t, exec .chargerRetry s = .next t ∧
      (vbat s = none ∨ s.host.restart.isSome = true ∨ s.par 0x4400 = 0 ∨ s.par 0x440F = 0 →
        t = s.modChg fun c => { c with qualify := true }) ∧
      ((vbat s).isSome = true → s.host.restart = none → s.par 0x4400 ≠ 0 → s.par 0x440F ≠ 0 →
        t.chg.qualify = false ∧ t.chg.st ≠ .error ∧ t.chg.tSafety = 0 ∧ t.pe = s.pe ∧ t.prm = s.prm)) ∧
    (∀ n : W32, ∃ t, exec (.logPinRelease n) s = .next t ∧ t.fram.ring = s.fram.ring ∧
      (∀ i, i ≠ 0x6801 → t.par i = s.par i) ∧
      ((∃ r ∈ s.fram.ring, r.2.e.pin = true ∧ r.2.e.lseq ≤ n.toNat) → framBusy t (.pins n.toNat) = true ∧ t.log = s.log) ∧
      t = { s with prm := t.prm, cnt := t.cnt, fram := { s.fram with queue := t.fram.queue, cur := t.fram.cur },
                   log := { s.log with pinFull := t.log.pinFull } }) ∧
    (∀ k words b, words ≠ [] → s.bus.tx[k.val]? = some b → ∃ t, exec (.txBufferWrite k words) s = .next t ∧
      t.bus.tx[k.val]? = some { b with back := words.foldl (fun l w => l.set w.1.val w.2) b.back, fresh := true } ∧
      (∀ i, i ≠ k.val → t.bus.tx[i]? = s.bus.tx[i]?) ∧ t = { s with bus := { s.bus with tx := t.bus.tx } })) ∧
  (∀ (x : Sess) (s : State), (s.ses x).isOpen = true →
    (∀ ax n, ∃ t, exec (.latchSnapshotRead x ax n) s = .next t ∧ OnlySession x s t ∧
      t.ses x = { s.ses x with latSnap := (t.ses x).latSnap } ∧
      (if n.val = 0 then ((t.ses x).latSnap.get ax).1 else ((t.ses x).latSnap.get ax).2) = some ((s.pos.get ax).latch n.val).rcd ∧
      (t.ses x).latSnap.get (otherAxis ax) = (s.ses x).latSnap.get (otherAxis ax)) ∧
    (∀ k b, s.bus.rx[k.val]? = some b → ∃ t, exec (.rxBufferSnapshot x k) s = .next t ∧ OnlySession x s t ∧
      t.ses x = { s.ses x with rxSnap := (t.ses x).rxSnap } ∧
      ((t.ses x).rxSnap.find? fun p => p.1 == k.val) = some (k.val, b.view) ∧
      ∀ j, j ≠ k.val → ((t.ses x).rxSnap.find? fun p => p.1 == j) = (s.ses x).rxSnap.find? fun p => p.1 == j) ∧
    (∀ ax, ∃ t, exec (.motionRecordSnapshot x ax) s = .next t ∧ OnlySession x s t ∧
      t.ses x = { s.ses x with recSnap := (t.ses x).recSnap } ∧ (t.ses x).recSnap.get ax = some (s.mot.get ax).recs ∧
      (t.ses x).recSnap.get (otherAxis ax) = (s.ses x).recSnap.get (otherAxis ax)))

/-! ### Reception (chapter 05) -/

/-- A character that a session accepts joins its partial line, with its echo in typed mode; CR makes the partial line a waiting
line; what session H receives during a host-core restart is counted, and what it receives before B3 leaves no trace. A partial
machine line that stands still for `host.h.line_to` is discarded and counted, and a break returns session H to typed mode
(R128, R133, R137, R142, R166, R232, R627). -/
def Obligations.ReceptionActs : Prop :=
  (∀ (x : Sess) (c : Byte) (s : State), s.receives = true → (s.ses x).isOpen = true → (s.ses x).skip = none →
    (s.ses x).part.length < 160 → (s.ses x).rxFree ≠ 0 → (s.ses x).esc = 0 → 0x20 ≤ c.toNat → c.toNat ≤ 0x7E →
    ∃ t, exec (.rxCharacter x c) s = .next t ∧ OthersKept x s t ∧
      t = { s with sess := t.sess, host := { s.host with rts := t.host.rts } } ∧
      t.ses x = { s.ses x with part := (s.ses x).part ++ [Char.ofNat c.toNat], charAt := s.etime, lastCr := false,
                               out := (t.ses x).out } ∧
      (t.ses x).out = (s.ses x).out ++
        (if (t.ses x).echoes then [{ notice := false, chars := [Char.ofNat c.toNat], rate := none }] else [])) ∧
  (∀ (x : Sess) (s : State), s.receives = true → (s.ses x).isOpen = true → (s.ses x).skip = none →
    (s.ses x).machine = false → startsWith (trim (s.ses x).part) ['#'] = false → (trim (s.ses x).part) ≠ [] →
    ∃ t, exec (.rxCharacter x 0x0D) s = .next t ∧ OthersKept x s t ∧
      (∃ l, (t.ses x).waiting = (s.ses x).waiting ++ [l] ∧ l.body = (s.ses x).part ∧ l.frame = .plain ∧ l.err = none ∧
        l.tick = s.tick ∧ l.at_ = s.etime ∧ l.enter = false) ∧
      (t.ses x).part = [] ∧ (t.ses x).lineAt = s.etime ∧ (t.ses x).lastCr = true) ∧
  (∀ (c : Byte) (s : State), s.host.deaf = true → exec (.rxCharacter .h c) s = .next s) ∧
  (∀ (c : Byte) (s : State), s.host.deaf = false → s.dev ≠ .off → s.host.restart.isSome = true →
    ∃ t, exec (.rxCharacter .h c) s = .next t ∧ t.count 0x7855 = min 65535 (s.count 0x7855 + 1) ∧ t = { s with cnt := t.cnt }) ∧
  (∀ s : State, s.sess.h.machine = true → s.sess.h.part ≠ [] → s.parN 0x5805 * 1000 ≤ s.since s.sess.h.charAt →
    ∃ t, exec .partialLineTimeout s = .next t ∧ t.sess.h = s.sess.h.clearPart ∧ OthersKept .h s t ∧
      t.count 0x783D = min 65535 (s.count 0x783D + 1) ∧
      t = { s with sess := t.sess, cnt := t.cnt, host := { s.host with rts := t.host.rts } }) ∧
  (∀ s : State, s.receives = true → ∃ t, exec .brk s = .next t ∧ OthersKept .h s t ∧
    t.sess.h = { s.sess.h with machine := false, echo := s.par 0x5803 == 1, lastCr := false, part := [], skip := none,
                               badByte := false, esc := 0 } ∧
    t = { s with sess := t.sess, host := { s.host with rts := t.host.rts } })

/-! ### Turns (chapters 04, 05, 07) -/

/-- The next session that has something to do takes its turn, and the cycle stands behind it: its first waiting line starts, or one
that an earlier turn has begun goes on. What reception refused is answered with its error, a repeated machine line with its stored
reply, an empty body with `ok`, and a word that is no command with `err 16`; the line leaves the buffer. The line that a session has begun
before it closed completes, and nobody receives its reply. With no such session the cycle begins again. A turn that runs out of time
leaves its line begun, or one data line of a chunked reply further on (R107, R108, R132, R138, R139, R141, R152, R171). -/
def Obligations.TurnsStartLines : Prop :=
  (∀ (x : Sess) (n : Nat) (l : RxLine) (r : List RxLine) (tx : Text) (s : State), s.starts = true →
    ((cycleFrom s.host.turn).find? fun p => canTurn s p.2) = some (n, x) → (s.ses x).restartDue = none →
    ((s.ses x).running = none ∧ (s.ses x).waiting = l :: r ∨
      ∃ rn, (s.ses x).running = some rn ∧ rn.wait = .turn ∧ rn.line = l ∧ (s.ses x).waiting = r) → l.cut = false →
    (l.err = none → storedReply (s.ses x) l = none → tx = txt "ok" ∧ tokens l.body = [] ∨
      ∃ w a, tokens l.body = w :: a ∧ w.all Char.isLower = true ∧ (argCounts.find? fun e => txt e.1 == w) = none ∧
        tx = errText 16 none) →
    (l.err = none → ∀ u, storedReply (s.ses x) l = some u → tx = u) → (∀ e, l.err = some e → tx = errText e none) →
    ∃ t, exec .sessionTurn s = .next t ∧ (t.ses x).running = none ∧ (t.ses x).waiting = r ∧
      ((s.ses x).isOpen = true → lastLine (t.ses x) = some (frameReply l.frame tx ++ crlf)) ∧ OthersKept x s t ∧
      t = { s with sess := t.sess, cnt := t.cnt, host := { s.host with turn := n + 1, rts := t.host.rts } }) ∧
  (∀ s : State, s.starts = true → ((cycleFrom s.host.turn).find? fun p => canTurn s p.2) = none →
    exec .sessionTurn s = .next { s with host := { s.host with turn := 0 } } ∧ exec .turnQuantumExpiry s = .next s) ∧
  (∀ (x : Sess) (n : Nat) (s : State), s.starts = true →
    ((cycleFrom s.host.turn).find? fun p => canTurn s p.2) = some (n, x) →
    (∀ l r, (s.ses x).running = none → (s.ses x).waiting = l :: r → ∃ t, exec .turnQuantumExpiry s = .next t ∧
      (t.ses x).running = some { line := l, tick := s.tick, wait := .turn } ∧ (t.ses x).waiting = r ∧ OthersKept x s t ∧
      t = { s with sess := t.sess, cnt := t.cnt, host := { s.host with turn := n + 1, rts := t.host.rts } }) ∧
    (∀ rn d rest fin, (s.ses x).running = some rn → rn.wait = .chunk (d :: rest) fin → (s.ses x).cancel = false →
      (s.ses x).notices = [] → holdsReply s x rn.line.tick = false → ∃ t, exec .turnQuantumExpiry s = .next t ∧
      (t.ses x).running.map (·.wait) = some (.chunk rest fin) ∧
      outTexts (t.ses x) = outTexts (s.ses x) ++ dataLines rn.line.frame [d] ∧ LineOnly (s.ses x) (t.ses x) ∧ OthersKept x s t ∧
      t = { s with sess := t.sess, host := { s.host with turn := n + 1 } }))

/-- A chunked reply goes on with the data lines that the buffer has room for and ends when it has sent them all; it ends with
`err 43` when Ctrl-C has been seen; a session whose notice queue has drained is told how many notices were dropped, as soon as there
is room; an `at` line that waits 50 ms is `err 44`; a tunnel session without a line for `host.tun.idle` closes
(R108, R110, R135, R141, R162, R235, R549). -/
def Obligations.LinesGoOnOrEnd : Prop :=
  (∀ (x : Sess) (rn : Running) (rest : List Text) (fin : Text) (s : State), s.forul = true → s.pwr.step = .awake →
    (s.ses x).isOpen = true → (s.ses x).running = some rn → rn.wait = .chunk rest fin →
    ((s.ses x).cancel = true → ∃ t, exec (.replyResume x) s = .next t ∧ (t.ses x).running = none ∧ OnlySession x s t ∧
      lastLine (t.ses x) = some (frameReply rn.line.frame (errText 43 none) ++ crlf)) ∧
    ((s.ses x).cancel = false → 164 ≤ (s.ses x).free → (s.ses x).notices = [] → holdsReply s x rn.line.tick = false →
      let n := placed (s.ses x).used (dataLines rn.line.frame rest)
      (n = rest.length → ∃ t, exec (.replyResume x) s = .next t ∧ (t.ses x).running = none ∧ OnlySession x s t ∧
        outTexts (t.ses x) =
          outTexts (s.ses x) ++ dataLines rn.line.frame rest ++ [frameReply rn.line.frame fin ++ crlf] ∧
        ∀ q c, rn.line.frame = .seq q c → ∃ had, (t.ses x).stored = some (q, c, fin, had) ∧ (t.ses x).lastSeq = q) ∧
      (n < rest.length → ∃ t, exec (.replyResume x) s = .next t ∧ GivesFirst x rn.line.frame n rest fin s t))) ∧
  (∀ s : State, s.sess.h.lost ≠ 0 → s.sess.h.notices = [] → s.host.restart = none → s.sess.h.isOpen = true →
    let l := frameNotice s.sess.h.machine (txt "lost " ++ dec s.sess.h.lost) ++ crlf
    let se := s.sess.h
    (164 ≤ se.free → ∃ t, exec (.lostNotice .h) s = .next t ∧ OnlySession .h s t ∧
      t.sess.h = { se with lost := 0, out := (t.ses .h).out } ∧
      outTexts (t.ses .h) = outTexts se ++ [if se.machine = false ∧ se.part ≠ [] then crlf ++ l ++ se.part else l]) ∧
    (se.free < 164 → ∃ t, exec (.lostNotice .h) s = .next t ∧ OnlySession .h s t ∧
      t.sess.h = { se with lost := 0, notices := [{ cls := 5, text := txt "lost " ++ dec se.lost }] })) ∧
  (∀ (x : Sess) (s : State), x ≠ .h → (s.ses x).lost ≠ 0 → (s.ses x).notices = [] → s.host.restart = none →
    exec (.lostNotice x) s = .next (s.modSes x fun se => { se with lost := 0 })) ∧
  (∀ (k : Call) (q : Tunnel) (s : State), remoteCall s = some k → 164 ≤ (s.ses .h).free → (s.ses .h).isOpen = true →
    s.host.restart = none → (atNode k).bind s.tunnel = some q → q.unack.isSome = true ∨ q.queue = [] → 50000 ≤ s.since q.at_ →
    ∃ t, exec .remoteTimeout s = .next t ∧ (t.ses .h).running = none ∧ OnlySession .h s t ∧
      lastLine (t.ses .h) = some (frameReply k.line.frame (errText 44 none) ++ crlf)) ∧
  (∀ (x : Sess) (s : State), x ≠ .h → (s.ses x).isOpen = true → s.parN 0x5810 * 1000000 ≤ s.since (s.ses x).lineAt →
    ∃ t, exec (.tunnelIdleTimeout x) s = .next t ∧ (t.ses x).isOpen = false ∧ (t.ses x).waiting = [] ∧
      ((∀ r, (s.ses x).running = some r → r.wait ≠ .turn) → (t.ses x).staging = [] ∧ (t.ses x).level = .user) ∧
      (t.ses x).stored = none ∧ OthersKept x s t ∧ (∀ q ∈ t.bus.tun, q.sess ≠ some x) ∧
      t = { s with sess := t.sess, host := { s.host with waiters := t.host.waiters }, bus := { s.bus with tun := t.bus.tun },
                   fram := { s.fram with queue := t.fram.queue, cur := t.fram.cur } })

/-! ### Host-core restart and PARAM (chapter 07) -/

/-- A host-core restart empties the staging sets and partial lines of every session and forgets their snapshots, ends a commit in
BUILD or STREAM, keeps a reset that was answered, and leaves Peony, the parameters and the faults as they are; at its end every open session stands at USER without a challenge or a bundle;
50 ms after its trigger both axes have stopped with a latched fault of class E (R156, R229, R230, R234, R239). The kind of that
fault is a free value (log 53); that motion-record snapshots go too is the model's reading (log 104). -/
def Obligations.RestartActs : Prop :=
  (∀ (c : RestartCause) (s : State), hostRuns s = true → ∃ t, exec (.hostCoreRestart c) s = .next t ∧
    (∃ a, t.host.restart = some (c, a) ∧ (s.host.restart = none → a = s.etime)) ∧ t.host.cause = some c ∧
    t.host.waiters = [] ∧ t.host.resetting = s.host.resetting ∧ (∀ x, (t.ses x).staging = [] ∧ (t.ses x).part = [] ∧
      (t.ses x).rxSnap = [] ∧ (∀ y, (t.ses x).latSnap.get y = (none, none) ∧ (t.ses x).recSnap.get y = none)) ∧
    (∀ k, s.commit = some k → k.load = false → k.phase = .build ∨ k.phase = .stream →
      (∃ k', t.commit = some k' ∧ k'.phase = .abort ∧ k'.queue = [] ∧ k'.ents = k.ents ∧ k'.by_ = k.by_) ∧
      (k.opened = true → t.link.abort = true)) ∧
    t.count 0x7850 = min 65535 (s.count 0x7850 + 1) ∧ t.pe = s.pe ∧ t.prm = s.prm ∧ t.faults = s.faults ∧ t.otp = s.otp) ∧
  (∀ s : State, s.host.restart.isSome = true → ∃ t, exec .restartComplete s = .next t ∧ t.host.restart = none ∧
    t.host.stopped = false ∧ ∀ x, (s.ses x).isOpen = true →
      (t.ses x).level = .user ∧ (t.ses x).chal = none ∧ (t.ses x).bundle = none) ∧
  (∀ (c : RestartCause) (a : W48) (s : State), s.host.restart = some (c, a) → s.host.stopped = false → 50000 ≤ s.since a →
    ∃ t, exec .restartTimeout s = .next t ∧ t.host.stopped = true ∧ t.link.flt = true ∧
      (∃ f ∈ t.faults, f.axes = 3 ∧ f.die = .aster ∧ f.kind = restartFault) ∧ (∀ y, (t.loop.get y).st = .latched) ∧ t.pe = s.pe ∧ t.prm = s.prm)

/-- While no commit runs, PARAM is granted to the first line that waits for it, and the end of a piece of a commit lends it to every
line that waits then; the line does what it waited for and ends. A grant without a waiting line, a grant of another lock, which no
line waits for, and a piece that has not lasted 4 ms change nothing (R110, R111, R114). That the load of the complete Peony side holds
no PARAM is the model's reading (log 80). -/
def Obligations.ParamIsLent : Prop :=
  (∀ (x : Sess) (a : W48) (r : List (Sess × W48)) (rn : Running) (s : State), s.host.waiters = (x, a) :: r →
    (s.ses x).isOpen = true → (s.ses x).running = some rn →
    (s.committing = false → s.host.restart = none → ∃ t, exec (.lockGrant .param) s = .next t ∧ t.host.waiters = r ∧
      SectionRuns x rn s t) ∧
    (∀ c, r = [] → s.commit = some c → c.load = false → s.host.restart = none → s.due c.piece 4000 = true →
      ∃ t, exec .paramPieceEnd s = .next t ∧ t.host.waiters = [] ∧ t.commit = some { c with piece := s.etime } ∧
        SectionRuns x rn s t)) ∧
  (∀ (c : Commit) (s : State), s.commit = some c → c.load = false → s.host.restart = none → s.due c.piece 4000 = true →
    ∃ t, exec .paramPieceEnd s = .next t ∧ t.host.waiters = [] ∧ t.commit = some { c with piece := s.etime } ∧ t.pe = s.pe ∧
      (s.host.waiters = [] → t = { s with commit := some { c with piece := s.etime } })) ∧
  ∀ s : State,
    (s.host.waiters = [] ∨ s.committing = true ∨ s.host.restart.isSome = true → exec (.lockGrant .param) s = .next s) ∧
    (∀ l, l ≠ .param → exec (.lockGrant l) s = .next s) ∧
    ((∀ c, s.commit = some c → c.load = true ∨ s.due c.piece 4000 = false) ∨ s.host.restart.isSome = true →
      exec .paramPieceEnd s = .next s)

/-! ### The tick (chapter 02) -/

/-- A reload while ticks run advances TICK on both dies. Where a tick ends at it, ETIME, ECLK and the ms accumulator take the clocks of
that tick, and MTICK advances when 80,000 clocks are full; at the first reload after a training or a sleep they stand still. ETIME of
the new boundary is recorded (R46, R51, R52, R58). -/
def Obligations.ReloadAdvancesTime : Prop :=
  ∀ (aux : List (BitVec 12)) (s : State), s.ticking = true →
    (s.first = false → s.pwr.step = .awake → s.pe.downIn = 0 →
      ∃ t, exec (.tickReload aux) s = .next t ∧ t.tick = s.tick + 1 ∧ t.first = false ∧
        t.bounds.head? = some (s.tick + 1, t.etime) ∧ (s.pe.runs = true → t.pe.tick = s.pe.tick + 1) ∧
        let clocks := ((s.link.clk : Int) + s.link.trim).toNat
        t.etime = s.etime + BitVec.ofNat 48 ((s.etFrac + clocks) / 80) ∧ t.etFrac = (s.etFrac + clocks) % 80 ∧
        t.eclk = s.eclk + BitVec.ofNat 32 clocks ∧
        (s.acc + clocks < 80000 → t.acc = s.acc + clocks ∧ t.mtick = s.mtick ∧ t.msDue = s.msDue) ∧
        (80000 ≤ s.acc + clocks → t.acc = s.acc + clocks - 80000 ∧ t.mtick = s.mtick + 1 ∧ t.msDue = true)) ∧
    (s.first = true → ∃ t, exec (.tickReload aux) s = .next t ∧ t.tick = s.tick + 1 ∧ t.first = false ∧
      (s.pe.runs = true → t.pe.tick = s.pe.tick + 1) ∧ t.etime = s.etime ∧ t.etFrac = s.etFrac ∧ t.eclk = s.eclk ∧
      t.acc = s.acc ∧ t.mtick = s.mtick)

/-- The M-class work of an ms tick runs once, and in RUN and SAFE it shows the receive buffers as they stand; during a host-core
restart it does not run. At the PWM centre Peony latches PCNT, its planned results and the comparators; Aster is untouched (R29, R47,
R68, R331, R533). -/
def Obligations.MsWorkAndCentreAct : Prop :=
  ∀ s : State, s.ticking = true →
    (s.msDue = true → s.host.restart = none → ∃ t, exec .msTick s = .next t ∧ t.msDue = false ∧
      (s.commit = none → t.host.crossed = none) ∧
      t.tick = s.tick ∧ t.etime = s.etime ∧ t.prm.now = s.prm.now ∧
      (s.dev = .run ∨ s.dev = .safe → ∀ r ∈ t.bus.rx, r.view = { words := r.words, age := r.age, cnt := r.cnt, made := r.made })) ∧
    (s.msDue = true → s.host.restart.isSome = true →
      exec .msTick s = .next { s with msDue := false, link := { s.link with ctlOpen := true } }) ∧
    (s.msDue = false → exec .msTick s = .next s) ∧
    (s.pe.runs = true → ∀ phs bus sincos cmps, ∃ t, exec (.centreSample phs bus sincos cmps) s = .next t ∧
      t.pe.an.pcntLat = s.pe.an.pcnt ∧ t.pe.an.cmps = cmpsNow s.pe cmps ∧ t.pe.an.conv.length = 16 ∧
      (∀ i k, (s.pe.plan.1)[i]? = some k → i < 16 → k < 6 → nth t.pe.an.conv i 0 = nth phs k 0) ∧
      (s.pe.plan.2 = true → s.pe.plan.1.length < 16 → nth t.pe.an.conv s.pe.plan.1.length 0 = s.pe.an.pcnt) ∧
      t = { s with pe := { s.pe with ax := t.pe.ax, an := t.pe.an } })

/-! ### The link (chapter 03) -/

/-- Peony sends a UT and a UC once in a tick with the next sequence number. When no noise falls on it, Aster accepts it and answers
ACK: the AUX and the centre results, the comparator byte and SETP arrive as Peony holds them. A UC of a tick that the dies began with
different periods is answered NAK and brings nothing (R62-R68, R72, R73, R91). -/
def Obligations.SegmentsArrive : Prop :=
  ∀ s : State, s.pe.live = true → s.ticking = true →
    (s.pe.ut = .idle → s.pe.an.aux.length = 8 → ∀ noise, ∃ t tok, exec (.utSegment noise) s = .next t ∧
      t.pe = { s.pe with utSeq := s.pe.utSeq + 1, ut := .out (segment (utBody s.pe (s.pe.utSeq + 1))) tok } ∧
      (noise = [] → s.link.utSeq = s.pe.utSeq →
        tok = ackByte ∧ t.link.gotUt = true ∧ t.link.utSeq = s.pe.utSeq + 1 ∧ t.link.utAt = s.etime ∧
        t.link.aux = s.pe.an.aux ∧ t.link.bst = bstByte s.pe)) ∧
    (s.pe.uc = .idle → s.pe.an.conv.length = 16 → ∀ noise, ∃ t tok, exec (.ucSegment noise) s = .next t ∧
      t.pe = { s.pe with ucSeq := s.pe.ucSeq + 1, uc := .out (segment (ucBody s.pe (s.pe.ucSeq + 1))) tok } ∧
      (noise = [] → s.link.ucSeq = s.pe.ucSeq → s.pe.baseP = s.tickP →
        tok = ackByte ∧ t.link.gotUc = true ∧ t.link.ucSeq = s.pe.ucSeq + 1 ∧ t.link.conv = s.pe.an.conv ∧
        t.link.cmps = cmpsByte s.pe ∧ t.link.setp = s.pe.setp) ∧
      (s.pe.baseP ≠ s.tickP → tok = nakByte ∧ t = { s with pe := t.pe }))

/-- Verdicts: ACK acknowledges a UT and takes its record from the queue; a first NAK calls for one retry and a second one loses
the segment; the same for a UC. Peony takes a DOWN frame of the coming tick once: its words wait for the reload, a repetition is
acknowledged and changes nothing, and without a training it answers nothing, which is one retry and then a lost frame. A frame with
CLEAR that is taken ends the faults of its axes on Aster, where none was latched since it went out (R67, R69, R70, R72-R74, R80, R302). -/
def Obligations.VerdictsAct : Prop :=
  ∀ (hit : Byte) (s : State),
    (∀ noise bs tok, s.pe.ut = .out bs tok ∨ s.pe.ut = .retried bs tok → tok ^^^ hit = 0xA5 →
      exec (.verdictToken .ut ⟨noise, hit⟩) s = .next { s with
        pe := { s.pe with ut := .acked, recs := if nth bs 22 0 = 0 then s.pe.recs else s.pe.recs.drop 1 } }) ∧
    (∀ noise bs tok, s.pe.ut = .out bs tok → tok ^^^ hit ≠ 0xA5 →
      exec (.verdictToken .ut ⟨noise, hit⟩) s = .next { s with pe := { s.pe with ut := .again bs } }) ∧
    (∀ noise bs tok, s.pe.ut = .retried bs tok → tok ^^^ hit ≠ 0xA5 →
      exec (.verdictToken .ut ⟨noise, hit⟩) s = .next { s with pe := { s.pe with ut := .lost } }) ∧
    (∀ noise bs tok, s.pe.uc = .out bs tok ∨ s.pe.uc = .retried bs tok → tok ^^^ hit = 0xA5 →
      exec (.verdictToken .uc ⟨noise, hit⟩) s = .next { s with pe := { s.pe with uc := .acked } }) ∧
    (∀ noise bs tok, s.pe.uc = .out bs tok → tok ^^^ hit ≠ 0xA5 →
      exec (.verdictToken .uc ⟨noise, hit⟩) s = .next { s with pe := { s.pe with uc := .again bs } }) ∧
    (∀ noise bs tok, s.pe.uc = .retried bs tok → tok ^^^ hit ≠ 0xA5 →
      exec (.verdictToken .uc ⟨noise, hit⟩) s = .next { s with pe := { s.pe with uc := .lost } }) ∧
    (∀ f, s.link.down = some f → s.pe.live = true → f.tickl = (s.pe.tick + 1).extractLsb' 0 8 → f.delta.length ≤ 32 →
      f.dtype = 0 → hit = 0 →
      (f.seq = s.pe.downSeq + 1 → f.ga.cmd ≠ 6 → f.gb.cmd ≠ 6 → exec (.verdictToken .down ⟨[], hit⟩) s = .next { s with
        link := { s.link with down := none, downRetry := false, wordsTo := { a := f.ga, b := f.gb } },
        pe := { s.pe with gotDown := true, downSeq := f.seq,
                          rx := some { f with delta := f.delta ++ List.replicate (32 - f.delta.length) 0 } } }) ∧
      (f.seq = s.pe.downSeq → f.ga.cmd ≠ 6 → f.gb.cmd ≠ 6 →
        exec (.verdictToken .down ⟨[], hit⟩) s = .next { s with link := { s.link with down := none, downRetry := false, wordsTo := { a := f.ga, b := f.gb } } }) ∧
      (f.seq = s.pe.downSeq + 1 → ∀ m : BitVec 2,
        m = ((if f.ga.cmd = 6 then 1 else 0) ||| if f.gb.cmd = 6 then 2 else 0) &&& s.link.clear → m ≠ 0 →
        (∀ n, s.link.clearN = some n → s.faults.length ≤ n) → ∃ t, exec (.verdictToken .down ⟨[], hit⟩) s = .next t ∧ t.faults = faultsAfter m s.faults ∧
          t.link.clear = s.link.clear &&& ~~~m ∧ (∀ y, hasAxis m y = true → (t.loop.get y).st ≠ .latched) ∧ t.prm = s.prm)) ∧
    (∀ f noise, s.link.down = some f → s.pe.live = false →
      (s.link.downRetry = false → ∃ t, exec (.verdictToken .down ⟨noise, hit⟩) s = .next t ∧
        t.link = { s.link with downRetry := true } ∧ t.count 0x7821 = min 65535 (s.count 0x7821 + 1) ∧
        t = { s with link := t.link, cnt := t.cnt }) ∧
      (s.link.downRetry = true → exec (.verdictToken .down ⟨noise, hit⟩) s = .next
        { s with link := { s.link with down := none, downRetry := false, downLost := true } }))

/-- The loop engine sends one DOWN frame in a tick, with the next sequence number and the low byte of the tick that it names:
with HELD for both axes when no UC was accepted and when its work is abandoned, which counts as an overrun; until a `clear` is
accepted, an assertion of Peony keeps OFF in both (R23, R42, R48, R49, R56, R69, R77). -/
def Obligations.DownFrameGoesOut : Prop :=
  ∀ s : State, s.ticking = true → s.link.done = false →
    (∃ t, exec .loopEngineRun s = .next t ∧ t.link.done = true ∧ t.link.downSeq = s.link.downSeq + 1 ∧ t.tick = s.tick ∧
      t.pe.active = s.pe.active ∧ ∃ f, t.link.down = some f ∧ f.seq = s.link.downSeq + 1 ∧ f.tickl = (s.tick + 1).extractLsb' 0 8 ∧
      (s.link.gotUc = false → s.dev ≠ .safe → s.commit.any (·.load) = false → s.link.off = false → f.ga.cmd = 2 ∧ f.gb.cmd = 2) ∧
      (s.link.gotUc = false → s.link.off = true → (∀ y, (s.loop.get y).word.cmd ≠ 4) → f.ga.cmd = 0 ∧ f.gb.cmd = 0)) ∧
    (s.link.gotUc = true → s.dev ≠ .safe → s.commit.any (·.load) = false → s.link.off = false →
      ∃ t, exec .overrun s = .next t ∧ t.link.done = true ∧
        (∃ f, t.link.down = some f ∧ f.ga.cmd = 2 ∧ f.gb.cmd = 2 ∧ f.seq = s.link.downSeq + 1) ∧ 
        (s.link.overStop = false → t.link.overRun = s.link.overRun + 1) ∧ t.link.overNow = true ∧
        t.count 0x7815 = min 65535 (s.count 0x7815 + 1) ∧ t = { s with link := t.link, cnt := t.cnt, commit := t.commit })

/-- What Aster stops for with a fault of its own: three overruns, the gap limit, 2 ms without a UT, and a stuck FLT_L. Each
latches its fault on both axes, drives FLT_L, and leaves both axes LATCHED with RELEASE in their words; Peony is not touched
(R22, R50, R77, R78, R79, R81, R294). -/
def Obligations.AsterFaultsStop : Prop :=
  ∀ (s : State) (c : Instr) (k : Nat),
    (c = .eOverrun ∧ k = 0x0D ∧ 3 ≤ s.link.overRun ∧ s.link.overNow = true ∧ s.link.overStop = false ∧ (s.faults.any fun f => f.kind == 0x0D) = false ∨
     c = .eLinkGap ∧ k = 0x05 ∧ s.ticking = true ∧ s.link.gapFired = false ∧ s.parN 0x3000 ≤ s.gapNow ∨
     c = .telemetryTimeout ∧ k = 0x05 ∧ s.ticking = true ∧ 2000 ≤ s.since s.link.utAt ∧ s.gapLatched 2 = false ∨
     c = .fltLStuck ∧ k = 0x05 ∧ s.ticking = true ∧ s.link.low = true ∧ s.link.flt = false ∧ 2000 ≤ s.since s.link.lowAt ∧
       2 ≤ s.link.bst4 ∧ s.gapLatched 1 = false) →
    ∃ t, exec c s = .next t ∧ AsterStops k 3 s t

/-- Peony alone decides on its own gaps and on a lost clock: both axes enter class E, it drives FLT_L and keeps a record, and the
charger stops until a run byte; a lost clock takes it off the link. Nothing on Aster changes but FLT_L (R21, R76, R80, R459). -/
def Obligations.PeonyGapsStop : Prop :=
  ∀ (s : State) (c : Instr) (code : Byte),
    (c = .linkGapLimit ∧ code = 0x05 ∧ s.pe.runs = true ∧ s.ticking = true ∧ s.pe.gapFired = false ∧ s.pe.gapLimit ≤ s.pe.gapNow ∨
     c = .nckLoss ∧ code = 0x06 ∧ s.pe.runs = true) →
    ∃ t, exec c s = .next t ∧ t.pe.gapFired = true ∧ t.pe.flt = true ∧ t.pe.an.buck = false ∧ t.pe.an.needRun = true ∧
      (c = .nckLoss → t.pe.linked = false ∧ t.pe.nck = false) ∧ t.pe.faults = s.pe.faults ++ [(code, 3)] ∧
      (∃ r ∈ t.pe.tickRecs, r.code = code ∧ r.tick = s.pe.tick) ∧ (∀ y, (t.pe.ax.get y).latch ≠ .free) ∧ t.link.low = true ∧
      t = { s with pe := t.pe, link := { s.link with low := t.link.low, lowAt := t.link.lowAt }, fltN := t.fltN }

/-- Training: an attempt counts, starts NCK, releases FLT_L on both dies, takes the link down and passes to its header; Aster sends
the TICK of the first tick after the training, its period and its bits of WROW, and Peony takes them, the bits the first time alone;
its reply with the right PID and echo brings the link up with sequence numbers 0. A retraining is asked for after 16 more gaps (R20,
R86-R90, R744). -/
def Obligations.TrainingActs : Prop :=
  (∀ s : State, s.training = true → s.pe.powered = true → s.link.hdrOk = false → s.link.tries ≠ 0 → s.link.held = false →
    s.link.outside = false →
    ∃ t, exec (.trainingAttempt true) s = .next t ∧ t.link.tries = s.link.tries - 1 ∧ t.link.hdrOk = true ∧ t.link.hdrs = 0 ∧
      t.link.up = false ∧ t.link.freed = true ∧ t.link.low = false ∧
      t.pe = { s.pe with nck := true, linked := false, reply := none, rx := none } ∧
      t.count 0x7827 = min 65535 (s.count 0x7827 + 1) ∧
      t = { s with link := t.link, pe := t.pe, cnt := t.cnt, fltN := t.fltN, free := s.free + 1 }) ∧
  (∀ s : State, s.link.hdrOk = true → s.pe.powered = true → s.link.hdrs < 4 → tickLen (s.parN 0x3400) < 65536 →
    exec (.trainingHeader []) s = .next { s with
      link := { s.link with hdrs := s.link.hdrs + 1 },
      pe := { s.pe with
        tick := if s.boot = .train then 0 - 1 else s.tick, hdrP := tickLen (s.parN 0x3400),
        wrow := some (s.pe.wrow.getD s.wrowBits), fresh := false,
        reply := some (segment [0xF0, 0x43, (s.pe.wrow.getD s.wrowBits).zeroExtend 8, pstatByte s.pe]) } }) ∧
  (∀ (s : State) (pstat : Byte), s.link.hdrOk = true → s.pe.reply = some (segment [0xF0, 0x43, s.wrowBits.zeroExtend 8, pstat]) →
    ∃ t, exec (.trainingReply []) s = .next t ∧ t.link.up = true ∧
      t.pe.linked = true ∧ t.link.utSeq = 0 ∧ t.link.ucSeq = 0 ∧ t.link.downSeq = 0 ∧ t.pe.utSeq = 0 ∧ t.pe.ucSeq = 0 ∧
      t.pe.downSeq = 0 ∧ t.link.setp = pstat.getLsbD 0 ∧ t.link.retrain = false ∧ t.link.hdrOk = false ∧ t.link.freed = false ∧
      (s.boot = .train → t.ticking = true ∧ t.first = true ∧ t.tick + 1 = 0 ∧ t.boot = .load)) ∧
  (∀ (s : State) (n : Nat), s.ticking = true → s.link.gapFired = true → s.link.gapAfter = some n → 16 ≤ n →
    s.link.retrain = false → exec .retrain s = .next { s with link := { s.link with
      retrain := true, tries := (s.bootPar 0x3010).toNat, gapAfter := none, hdrOk := false } })

/-! ### Gate commands (chapters 03, 08) -/

/-- The gate command words on an axis that is not latched and whose gates nothing holds off: OFF turns every gate off; RUN puts its
duties in force and drives each leg by its tick class; HELD keeps the command in force, and acts as OFF without one; LOWS turns
every low side on; DIRECT hands the legs to their pins. Without BRIDGE_PERMIT, RUN and LOWS count as bad and act as OFF, and so
do a DIRECT that is not allowed and a reserved code; such a word leaves a diagnosis running (R70, R250, R260, R263, R265, R745). HELD
while LOWS is in force acts as OFF by the model's choice (log 90). -/
def Obligations.GateCommandsDrive : Prop :=
  ∀ (ax : Axis) (s : State), s.pe.live = true → (s.pe.ax.get ax).latch = .free →
    (∃ t, exec (.cmdOff ax) s = .next t ∧ GateOnly ax s t ∧ allOff t ax ∧ (t.pe.ax.get ax).cmd = 0 ∧
      (t.pe.ax.get ax).hasDuty = false) ∧
    (s.gateHeld ax = false →
      (s.pe.permit = true → ∀ du dv dw, ∃ t, exec (.cmdRun ax du dv dw) s = .next t ∧ GateOnly ax s t ∧
        (t.pe.ax.get ax).cmd = 1 ∧ (t.pe.ax.get ax).duty = { u := du, v := dv, w := dw } ∧ (t.pe.ax.get ax).hasDuty = true ∧
        (t.pe.ax.get ax).leg.u = { (s.pe.ax.get ax).leg.u.reload (s.pe.ax.get ax).stepOn (s.pe.ax.get ax).stepOff du.toNat s.pe.tickP
          (s.pe.ax.get ax).dead (s.pe.minOn ax) with blankN := (t.pe.ax.get ax).leg.u.blankN } ∧
        (t.pe.ax.get ax).leg.v = { (s.pe.ax.get ax).leg.v.reload (s.pe.ax.get ax).stepOn (s.pe.ax.get ax).stepOff dv.toNat s.pe.tickP
          (s.pe.ax.get ax).dead (s.pe.minOn ax) with blankN := (t.pe.ax.get ax).leg.v.blankN } ∧
        (t.pe.ax.get ax).leg.w = { (s.pe.ax.get ax).leg.w.reload (s.pe.ax.get ax).stepOn (s.pe.ax.get ax).stepOff dw.toNat s.pe.tickP
          (s.pe.ax.get ax).dead (s.pe.minOn ax) with blankN := (t.pe.ax.get ax).leg.w.blankN }) ∧
      (s.pe.permit = true → ∃ t, exec (.cmdLows ax) s = .next t ∧ GateOnly ax s t ∧ (t.pe.ax.get ax).cmd = 3 ∧
        ∀ p, ((t.pe.ax.get ax).leg.get p).hi = false ∧ ((t.pe.ax.get ax).leg.get p).lo = true) ∧
      (s.pe.permit = true → s.pe.directDis ax = false → memRead s.pe.active (gateBase ax + 10) ≠ 0 →
        ∃ t, exec (.cmdDirect ax) s = .next t ∧ GateOnly ax s t ∧ (t.pe.ax.get ax).cmd = 7 ∧
          ∀ p l, l = (s.pe.ax.get ax).leg.get p → l.btLow = false →
            ((t.pe.ax.get ax).leg.get p).hi = (l.en && l.pls && (l.hi || !l.bstLow)) ∧
            ((t.pe.ax.get ax).leg.get p).lo = (l.en && !l.pls))) ∧
    ((s.pe.ax.get ax).diag.getLsbD 14 = false →
      (((s.pe.ax.get ax).cmd = 1 ∧ (s.pe.ax.get ax).hasDuty = true ∨ (s.pe.ax.get ax).cmd = 7) →
        ∃ t, exec (.cmdHeld ax) s = .next t ∧ GateOnly ax s t ∧ (t.pe.ax.get ax).cmd = (s.pe.ax.get ax).cmd ∧
          (t.pe.ax.get ax).duty = (s.pe.ax.get ax).duty ∧ (t.pe.ax.get ax).hasDuty = (s.pe.ax.get ax).hasDuty) ∧
      (((s.pe.ax.get ax).cmd ≠ 1 ∨ (s.pe.ax.get ax).hasDuty = false) → (s.pe.ax.get ax).cmd ≠ 7 →
        ∃ t, exec (.cmdHeld ax) s = .next t ∧ GateOnly ax s t ∧ allOff t ax ∧ (t.pe.ax.get ax).cmd = 0)) ∧
    (∀ c, (s.pe.permit = false ∧ (c = .cmdLows ax ∨ c = .cmdDirect ax ∨ ∃ du dv dw, c = .cmdRun ax du dv dw) ∨
        (s.pe.directDis ax = true ∨ memRead s.pe.active (gateBase ax + 10) = 0) ∧ c = .cmdDirect ax ∨ ∃ k : BitVec 4, 8 ≤ k.toNat ∧ c = .cmdReserved ax k) →
      ∃ t, exec c s = .next t ∧ GateOnly ax s t ∧ allOff t ax ∧ (t.pe.ax.get ax).cmd = 0 ∧
        (t.pe.ax.get ax).diag = (s.pe.ax.get ax).diag ∧ t.count 0x7829 = min 65535 (s.count 0x7829 + 1))

/-- RELEASE puts an axis that conducts into class E *release* with every low side on, and any other into *rest*; REST puts it into
*rest* with every gate off; CLEAR frees it whatever its latch, with every gate off, and ends the faults that Peony holds for it
alone. An axis in *release* or *rest* ignores every command but CLEAR (R24, R296, R297, R302, R745). -/
def Obligations.LatchCommandsAct : Prop :=
  ∀ (ax : Axis) (s : State), s.pe.live = true →
    ((s.pe.ax.get ax).latch = .free →
      (∃ t, exec (.cmdRest ax) s = .next t ∧ GateOnly ax s t ∧ allOff t ax ∧ (t.pe.ax.get ax).latch = .rest) ∧
      (∃ t, exec (.cmdRelease ax) s = .next t ∧ GateOnly ax s t ∧ (t.pe.ax.get ax).cmd = 0 ∧
        (s.conducts ax = true → s.pe.an.vgdLow = false → s.pe.an.uvlo = false → (t.pe.ax.get ax).latch = .relE ∧
          ∀ p, ((t.pe.ax.get ax).leg.get p).hi = false ∧ ((t.pe.ax.get ax).leg.get p).lo = true) ∧
        (s.conducts ax = false ∨ s.pe.an.vgdLow = true ∨ s.pe.an.uvlo = true →
          (t.pe.ax.get ax).latch = .rest ∧ allOff t ax))) ∧
    (∃ t, exec (.cmdClear ax) s = .next t ∧ (t.pe.ax.get ax).latch = .free ∧ (t.pe.ax.get ax).cmd = 0 ∧ allOff t ax ∧
      (∀ f ∈ t.pe.faults, f.2 &&& (axBit ax).zeroExtend 8 = 0) ∧ (t.pe.flt = true ↔ t.pe.faults ≠ []) ∧
      t = { s with pe := { s.pe with
        gotDown := true, ax := s.pe.ax.set ax (t.pe.ax.get ax), an := { s.pe.an with busBlank := t.pe.an.busBlank, busBlankN := t.pe.an.busBlankN },
        faults := t.pe.faults, flt := t.pe.flt } }) ∧
    ((s.pe.ax.get ax).latch ≠ .free → ∀ c, (c = .cmdOff ax ∨ c = .cmdHeld ax ∨ c = .cmdLows ax ∨ c = .cmdRelease ax ∨
        c = .cmdRest ax ∨ c = .cmdDirect ax ∨ (∃ du dv dw, c = .cmdRun ax du dv dw) ∨
        ∃ k : BitVec 4, 8 ≤ k.toNat ∧ c = .cmdReserved ax k) →
      exec c s = .next { s with pe := { s.pe with gotDown := true } })

/-! ### The delta field and the configuration of Peony (chapters 03, 06) -/

/-- Blocks and runs reach the shadow copy alone: block 0 opens staging over a copy of the active area, a run writes its 29 bytes,
an entry of a block its own; ABORT discards them; SWITCH arms only when every block up to LASTBLK is held; the swap, once the tick
before it has nothing left to do, exchanges the copies and toggles SETP. What is in force on Peony changes at the swap alone (R71, R82, R83, R121; log 92). -/
def Obligations.StagingOnPeony : Prop :=
  ∀ s : State, s.pe.live = true →
    (∀ blk addr data, s.pe.staging = true → addr.toNat % 4096 + 29 ≤ 0xF00 → ∃ t, exec (.deltaRun blk addr data) s = .next t ∧
      t.pe.held.contains blk.toNat = true ∧ t = { s with pe := { s.pe with
        gotDown := true, shadow := memWrites s.pe.shadow (addr.toNat % 4096) (data.take 29), held := t.pe.held } }) ∧
    (∀ ents a ds, s.pe.staging = false → parseEntries 16 (ents.take 31) = [(a, ds)] → a + ds.length ≤ 0xF00 → ds ≠ [] →
      ∃ t, exec (.deltaBlock 0 ents) s = .next t ∧ t = { s with pe := { s.pe with
        gotDown := true, shadow := memWrites s.pe.active a ds, staging := true, rejected := false, armed := none, held := [0] } }) ∧
    (∀ blk ents, blk ≠ 0 → s.pe.staging = false →
      exec (.deltaBlock blk ents) s = .next { s with pe := { s.pe with gotDown := true } }) ∧
    (∀ sw last, s.pe.staging = true → (∀ n, n ≤ last.toNat → s.pe.held.contains n = true) →
      exec (.deltaSwitch sw last) s = .next { s with pe := { s.pe with gotDown := true, armed := some sw } }) ∧
    (∀ sw last n, n ≤ last.toNat → s.pe.held.contains n = false →
      exec (.deltaSwitch sw last) s = .next { s with pe := { s.pe with gotDown := true } }) ∧
    exec .deltaAbort s = .next { s with pe := { s.pe with
      gotDown := true, shadow := [], staging := false, rejected := false, armed := none, held := [] } } ∧
    (s.pe.armed = some (s.pe.tick + 1) → s.pe.runs = true → s.pe.ucOver = true → ∃ t, exec .configSwap s = .next t ∧
      t.pe.active = s.pe.shadow ∧ t.pe.shadow = s.pe.active ∧ t.pe.setp = !s.pe.setp ∧ t.pe.staging = false ∧
      t.pe.armed = none ∧ t.pe.held = [] ∧ t.pe.configured = true ∧ t.pe.runtime = s.pe.runtime ∧
      t.pe.rejected = s.pe.rejected ∧ t = { s with pe := t.pe })

/-- TIME that agrees with TICK only marks the frame, and one that does not acts as a third gap. CONTROL entries reach the run-time
area: band codes up to 5, the charger's set points, the tick trim, the TMUX_A byte without its reserved bits, and 0x5A at 0xF10,
which starts the power-down. The start of a diagnosis turns every gate of its axis off (R85, R256, R305, R460, R481, R538,
R668). -/
def Obligations.ControlEntriesAct : Prop :=
  ∀ s : State, s.pe.live = true →
    exec (.deltaTime ((s.pe.tick + 1).extractLsb' 8 24)) s = .next { s with pe := { s.pe with gotDown := true } } ∧
    (∀ hi, hi ≠ (s.pe.tick + 1).extractLsb' 8 24 → s.pe.gapFired = false → ∃ t, exec (.deltaTime hi) s = .next t ∧
      t.pe.gapFired = true ∧ t.pe.flt = true ∧ t.pe.faults = s.pe.faults ++ [(5, 3)] ∧ ∀ y, (t.pe.ax.get y).latch ≠ .free) ∧
    (∀ ents v, parseEntries 16 (ents.take 32) = [(0xF30, [v])] → ∃ t, exec (.deltaControl ents) s = .next t ∧
      t.pe.gotDown = true ∧ t.pe.an.tmuxA = v &&& 0x9F ∧ t.pe.runtime = memWrite s.pe.runtime 0xF30 v ∧ t.pe.active = s.pe.active) ∧
    (∀ v, ∃ t, exec (.tmuxAEntry v) s = .next t ∧ t.pe.an.tmuxA = v &&& 0x9F ∧ t.pe.runtime = memWrite s.pe.runtime 0xF30 v ∧
      t = { s with pe := { s.pe with runtime := t.pe.runtime, an := { s.pe.an with
        tmuxA := t.pe.an.tmuxA, buck := t.pe.an.buck, iTarget := t.pe.an.iTarget } } }) ∧
    (∀ ax (c : Byte), c.toNat ≤ 5 → ∃ t, exec (.bandCodeWrite ax c) s = .next t ∧ (t.pe.ax.get ax).band = c.toNat ∧
      t.pe.runtime = memWrite s.pe.runtime (0xF00 + axIdx ax) c ∧
      (t.pe.ax.get ax).leg = (s.pe.ax.get ax).leg ∧ t.pe.ax.get (otherAxis ax) = s.pe.ax.get (otherAxis ax)) ∧
    (∀ ax (c : Byte), 5 < c.toNat → exec (.bandCodeWrite ax c) s = .next s) ∧
    (∀ ax, (s.pe.ax.get ax).diag.getLsbD 14 = false → (s.pe.ax.get ax).cmd = 0 →
      (s.pe.ax.get ax).latch ≠ .relS → (s.pe.ax.get ax).latch ≠ .relE → s.pe.an.uvlo = false → ∃ t, exec (.diagStart ax 1) s = .next t ∧
        (t.pe.ax.get ax).diag.getLsbD 14 = true ∧ (t.pe.ax.get ax).diagClk = 0 ∧ (t.pe.ax.get ax).diagH = [] ∧ allOff t ax ∧
        t.pe.ax.get (otherAxis ax) = s.pe.ax.get (otherAxis ax)) ∧
    (∀ (addr : BitVec 12) data, 0xF08 ≤ addr.toNat → addr.toNat + data.length ≤ 0xF0F → ∃ t,
      exec (.chargerSetpoint addr data) s = .next t ∧ t.pe.runtime = memWrites s.pe.runtime addr.toNat data ∧
      t.pe.active = s.pe.active ∧ t.pe.ax = s.pe.ax) ∧
    (∃ t, exec (.powerDown 0x5A) s = .next t ∧ t.pe.downIn = 2 ∧ t.pe.powered = true ∧ t.pe.ax = s.pe.ax ∧
      t.pe.active = s.pe.active) ∧
    (∀ v : BitVec 16, ∃ t, exec (.tickTrim v) s = .next t ∧
      t.pe.runtime = memWrites s.pe.runtime 0xF20 (leBytes 2 v.toNat) ∧ t.pe.trim = s.pe.trim ∧ t.pe.ax = s.pe.ax)

/-! ### Gate supply, direct pins and chopper (chapter 08) -/

/-- VGD below 8.5 V takes every gate off but those of a soft turn-off that goes on, leaves the passive pull-downs to hold them, holds
both axes off until OFF, moves a *release* of class E to *rest* and leaves the record 0x41; above 9.0 V it ends, and the clamps hold
again. A low bootstrap supply makes a leg whose high side is on full-low with its record, and keeps any other from turning on; it ends
above 7.4 V (R245, R260, R274, R275, R310, R693). The mask of the record 0x41 is a free value (log 23). -/
def Obligations.GateSupplyActs : Prop :=
  ∀ s : State, s.pe.powered = true →
    (∀ code : BitVec 12, s.pe.an.vgdLow = false → code.toNat < 1700 → ∃ t, exec (.vgdLow code) s = .next t ∧
      t.pe.an = { s.pe.an with vgdLow := true } ∧
      (∀ y, ((s.pe.ax.get y).latch ≠ .relS → allOff t y) ∧ (t.pe.ax.get y).vgdHold = true ∧
        (t.pe.ax.get y).latch = (if (s.pe.ax.get y).latch = .relE then .rest else (s.pe.ax.get y).latch) ∧
        ∀ p, ((t.pe.ax.get y).leg.get p).passive = true ∧ ((t.pe.ax.get y).leg.get p).clampHi = false ∧
          ((t.pe.ax.get y).leg.get p).clampLo = false) ∧
      (∃ r ∈ t.pe.tickRecs, r.code = 0x41 ∧ r.tick = s.pe.tick) ∧
      t = { s with pe := { s.pe with ax := t.pe.ax, an := t.pe.an, tickRecs := t.pe.tickRecs } }) ∧
    (∀ code : BitVec 12, 1800 < code.toNat → s.pe.an.vgdLow = true → ∃ t, exec (.vgdRecover code) s = .next t ∧
      (∀ y p, ∀ l, l = (s.pe.ax.get y).leg.get p →
        (t.pe.ax.get y).leg.get p = { l with passive := false, clampHi := !l.hi, clampLo := !l.lo }) ∧
      t = { s with pe := { s.pe with ax := t.pe.ax, an := { s.pe.an with vgdLow := false } } }) ∧
    (∀ code : BitVec 12, s.pe.an.vgdLow = false → exec (.vgdRecover code) s = .next s) ∧
    (∀ ax p, ((s.pe.ax.get ax).leg.get p).btLow = false → ((s.pe.ax.get ax).leg.get p).hi = false →
      ∃ t, exec (.btLow ax p) s = .next t ∧ LegOnly ax p s t ∧
        (t.pe.ax.get ax).leg.get p = { (s.pe.ax.get ax).leg.get p with bstLow := true }) ∧
    (∀ ax p, s.pe.an.vgdLow = false → ((s.pe.ax.get ax).leg.get p).btLow = false → ((s.pe.ax.get ax).leg.get p).hi = true →
      ∃ t, exec (.btLow ax p) s = .next t ∧ LegOnly ax p s t ∧ ((t.pe.ax.get ax).leg.get p).btLow = true ∧
        ((t.pe.ax.get ax).leg.get p).hi = false ∧ ((t.pe.ax.get ax).leg.get p).lo = true ∧
        ∃ r ∈ t.pe.tickRecs, r.code = 0x40 ∧ r.mask &&& legBit ax p = legBit ax p) ∧
    (∀ ax p, (s.pe.ax.get ax).cmd ≠ 7 → ∃ t, exec (.btRecover ax p) s = .next t ∧ LegOnly ax p s t ∧
      (t.pe.ax.get ax).leg.get p = { (s.pe.ax.get ax).leg.get p with btLow := false, bstLow := false })

/-- Direct pins drive their half-bridge under CMD DIRECT with EN and PLS, never both sides at once, and act under no other
command; no high side turns on while its bootstrap supply is low; a gate that is off takes its hold-off clamp unless its passive
pull-down holds it; the chopper switches at its two thresholds with its slew step (R248, R260, R263, R264, R268, R269, R271). -/
def Obligations.PinsClampAndChopperAct : Prop :=
  ∀ s : State,
    (∀ ax p en pls, s.pe.powered = true → (s.pe.ax.get ax).cmd = 7 → (s.pe.ax.get ax).latch = .free → s.gateHeld ax = false →
      ((s.pe.ax.get ax).leg.get p).btLow = false →
      ∃ t, exec (.directPinChange ax p en pls) s = .next t ∧ LegOnly ax p s t ∧
        ((t.pe.ax.get ax).leg.get p).hi =
          (en && pls && (((s.pe.ax.get ax).leg.get p).hi || !((s.pe.ax.get ax).leg.get p).bstLow)) ∧ ((t.pe.ax.get ax).leg.get p).lo = (en && !pls) ∧
        ((t.pe.ax.get ax).leg.get p).en = en ∧ ((t.pe.ax.get ax).leg.get p).pls = pls) ∧
    (∀ ax p en pls, s.pe.powered = false ∨ (s.pe.ax.get ax).cmd ≠ 7 ∨ (s.pe.ax.get ax).latch ≠ .free →
      ∃ t, exec (.directPinChange ax p en pls) s = .next t ∧ LegOnly ax p s t ∧
        (t.pe.ax.get ax).leg.get p = { (s.pe.ax.get ax).leg.get p with en := en, pls := pls }) ∧
    (∀ ax p, ∃ t, exec (.holdOffClamp (.bridge ax p .high)) s = .next t ∧ LegOnly ax p s t ∧
      (((s.pe.ax.get ax).leg.get p).hi = false → ((s.pe.ax.get ax).leg.get p).passive = false →
        (t.pe.ax.get ax).leg.get p = { (s.pe.ax.get ax).leg.get p with clampHi := true }) ∧
      (((s.pe.ax.get ax).leg.get p).passive = true → t = s)) ∧
    (∀ ax p, ∃ t, exec (.holdOffClamp (.bridge ax p .low)) s = .next t ∧ LegOnly ax p s t ∧
      (((s.pe.ax.get ax).leg.get p).lo = false → ((s.pe.ax.get ax).leg.get p).passive = false →
        (t.pe.ax.get ax).leg.get p = { (s.pe.ax.get ax).leg.get p with clampLo := true }) ∧
      (((s.pe.ax.get ax).leg.get p).passive = true → t = s)) ∧
    (s.pe.isl.gbrk = false → s.pe.isl.brkPassive = false →
      exec (.holdOffClamp .brk) s = .next { s with pe := { s.pe with isl := { s.pe.isl with brkClamp := true } } }) ∧
    (s.pe.isl.brkPassive = true → exec (.holdOffClamp .brk) s = .next s) ∧
    (∀ vm : BitVec 12, s.pe.isl.brkOn < vm.toNat → exec (.brakeOn vm) s = .next
      { s with pe := { s.pe with isl := { s.pe.isl with
        gbrk := true, brkClamp := false, brkPassive := false,
        brkStep := if s.pe.isl.gbrk = true then s.pe.isl.brkStep else s.pe.isl.slew } } }) ∧
    (∀ vm : BitVec 12, vm.toNat ≤ s.pe.isl.brkOn → exec (.brakeOn vm) s = .next s) ∧
    (∀ vm : BitVec 12, vm.toNat < s.pe.isl.brkOff → exec (.brakeOff vm) s = .next
      { s with pe := { s.pe with isl := { s.pe.isl with
        gbrk := false, brkStep := if s.pe.isl.gbrk = false then s.pe.isl.brkStep else s.pe.isl.slew } } }) ∧
    (∀ vm : BitVec 12, s.pe.isl.brkOff ≤ vm.toNat → exec (.brakeOff vm) s = .next s)

/-! ### Protection (chapter 09) -/

/-- Short circuits and the overvoltage: a normal comparator is ignored inside its blanking window, sampled at the end of it and
acts outside; the hard comparator always acts. The axes of the shunt enter class S *release* with their record and FLT_L; an
overvoltage takes both axes into class E. VM below 7.0 V takes every gate and the buck off, gives the chopper its fixed thresholds and
clears the island store; above 7.5 V the lockout ends. Both kinds of *release* end in *rest* (R270, R286-R291, R295, R296, R479). -/
def Obligations.ProtectionActs : Prop :=
  (∀ s : State, s.pe.powered = true →
    (∀ sh, s.blanking sh = true → exec (.sScLeg sh) s = .next s) ∧
    (∀ sh, s.blanking sh = false → ∃ t, exec (.sScLeg sh) s = .next t ∧ PeonyStops 1 (shuntBit sh) (shuntAxes sh) s t ∧
      ShortTaken sh s t ∧ t.pe.an = s.pe.an) ∧
    (∀ sh, ∃ t, exec (.sScHard sh) s = .next t ∧ PeonyStops 2 (shuntBit sh ||| 0x80) (shuntAxes sh) s t ∧
      ShortTaken sh s t ∧ t.pe.an = s.pe.an) ∧
    (∀ sh, s.blanking sh = true → ∃ t, exec (.blankingEnd sh true) s = .next t ∧ t.blanking sh = false ∧
      PeonyStops 1 (shuntBit sh) (shuntAxes sh) s t ∧ ShortTaken sh s t) ∧
    (∀ sh, s.blanking sh = true → ∃ t, exec (.blankingEnd sh false) s = .next t ∧ t.blanking sh = false ∧
      (∀ y, allOff s y → allOff t y) ∧ t = { s with pe := { s.pe with ax := t.pe.ax, an := t.pe.an } } ∧
      ∀ y, (t.pe.ax.get y).latch = (s.pe.ax.get y).latch) ∧
    (∀ vm : BitVec 12, s.pe.vov < vm.toNat → ∃ t, exec (.eOv vm) s = .next t ∧
      PeonyStops 3 0x3F 3 s t ∧ t.pe.an.ov = true ∧ ∀ y, (t.pe.ax.get y).latch ≠ .free) ∧
    (∀ vm : BitVec 12, vm.toNat ≤ s.pe.vov → exec (.eOv vm) s = .next s)) ∧
  (∀ s : State,
    (∀ vm : BitVec 12, s.pe.an.uvlo = false → vm.toNat < 350 → s.pe.powered = true → ∃ t, exec (.vmUvlo vm) s = .next t ∧
      t.pe.an.uvlo = true ∧ t.pe.an.buck = false ∧ t.pe.an.iTarget = 0 ∧ t.pe.isl = { s.pe.isl with
        gbrk := false, brkStep := if s.pe.isl.gbrk = false then s.pe.isl.brkStep else s.pe.isl.slew, brkClamp := false, brkPassive := true,
        brkOn := 3300, brkOff := 3150, slew := 8, store := [], valid := false } ∧
      (∀ y, allOff t y ∧ (t.pe.ax.get y).latch = (if (s.pe.ax.get y).latch = .relE then .rest else (s.pe.ax.get y).latch)) ∧
      (∃ r ∈ t.pe.tickRecs, r.code = 0x42 ∧ r.mask = 0x3F ∧ r.tick = s.pe.tick) ∧
      t = { s with pe := { s.pe with ax := t.pe.ax, an := t.pe.an, isl := t.pe.isl, tickRecs := t.pe.tickRecs } }) ∧
    (∀ vm : BitVec 12, 375 < vm.toNat →
      exec (.vmUvloEnd vm) s = .next { s with pe := { s.pe with an := { s.pe.an with uvlo := false }, isl := { s.pe.isl with
        brkPassive := false, brkClamp := s.pe.isl.brkClamp || (s.pe.isl.brkPassive && !s.pe.isl.gbrk) } } }) ∧
    (∀ vm : BitVec 12, vm.toNat ≤ 375 → exec (.vmUvloEnd vm) s = .next s) ∧
    (∀ ax, (s.pe.ax.get ax).latch = .relS → ∃ t, exec (.softTurnOffEnd ax) s = .next t ∧ Rests t ax ∧
      t = { s with pe := { s.pe with ax := s.pe.ax.set ax (t.pe.ax.get ax) } }) ∧
    (∀ ax, (s.pe.ax.get ax).latch = .relE →
      ((s.pe.ax.get ax).rel.low = true ∨ (s.pe.ax.get ax).rel.t ≤ s.since (s.pe.ax.get ax).rel.since →
        ∃ t, exec (.releaseEEnd ax) s = .next t ∧ Rests t ax ∧
          t = { s with pe := { s.pe with ax := s.pe.ax.set ax (t.pe.ax.get ax) } }) ∧
      ((s.pe.ax.get ax).rel.low = false → s.since (s.pe.ax.get ax).rel.since < (s.pe.ax.get ax).rel.t → s.ticking = true →
        exec (.releaseEEnd ax) s = .next s)) ∧
    (∀ ax, (s.pe.ax.get ax).latch = .free → exec (.releaseEEnd ax) s = .next s ∧ exec (.softTurnOffEnd ax) s = .next s))

/-- A diagnosis whose 3,000 us have passed ends with DONE and its findings, and a phase is open when both of its pairs failed; one
whose axis moves is abandoned with MOVED; each die answers the other's assertion of FLT_L, Peony with class E on both axes and Aster
with both axes stopped, gate-off words and its tick marked, which is a hold point of an axis degraded in motion; a clear window closes
after 1 s (R23, R154, R305, R306, R398). -/
def Obligations.DiagnosisFltAndWindowAct : Prop :=
  ∀ s : State,
    (∀ ax (w : W16), w = (s.pe.ax.get ax).diag → w.getLsbD 14 = true → 240000 ≤ (s.pe.ax.get ax).diagClk →
      ∃ t, exec (.diagComplete ax false) s = .next t ∧
      let d := (t.pe.ax.get ax).diag
      t = { s with pe := { s.pe with ax := s.pe.ax.set ax { s.pe.ax.get ax with diag := d } } } ∧
      d.getLsbD 15 = true ∧ d.getLsbD 14 = false ∧
      (∀ k, k < 5 ∨ k = 8 ∨ k = 9 ∨ k = 10 ∨ k = 12 ∨ k = 13 → d.getLsbD k = w.getLsbD k) ∧
      d.getLsbD 5 = (w.getLsbD 2 && w.getLsbD 4) ∧ d.getLsbD 6 = (w.getLsbD 2 && w.getLsbD 3) ∧
      d.getLsbD 7 = (w.getLsbD 3 && w.getLsbD 4)) ∧
    (∀ ax, (s.pe.ax.get ax).diag.getLsbD 14 = true → exec (.diagComplete ax true) s = .next
      { s with pe := { s.pe with ax := s.pe.ax.set ax { s.pe.ax.get ax with diag := 0xA000 } } }) ∧
    (∀ ax moved, (s.pe.ax.get ax).diag.getLsbD 14 = false ∨ (moved = false ∧ (s.pe.ax.get ax).diagClk < 240000) →
      exec (.diagComplete ax moved) s = .next s) ∧
    (s.link.flt = true ∨ s.link.held = true → s.link.low = true → s.pe.powered = true → ∃ t, exec (.fltLAssert .aster) s = .next t ∧
      (∀ y, (t.pe.ax.get y).latch ≠ .free) ∧ t = { s with pe := { s.pe with ax := t.pe.ax, an := t.pe.an } }) ∧
    (s.inReset = false → s.pe.flt = true → s.link.low = true → s.link.mark = none → NoHoldDue 0 s →
      ∃ t, exec (.fltLAssert .peony) s = .next t ∧ t.link.mark = some (s.tick, s.etime) ∧ t.link.off = true ∧
        t.log.await = s.log.await ++ [(s.tick, s.etime, none, false)] ∧
        (∀ y, (t.loop.get y).word = GateWord.off ∧ (s.armed y = true → t.moving y = false) ∧
          (t.loop.get y).st = (if t.latchedOn y then .latched else .disarmed)) ∧ t.faults = s.faults ∧ t.pe = s.pe) ∧
    (s.inReset = false → s.pe.flt = true → s.link.low = true → s.link.mark = none →
      ∃ t, exec (.fltLAssert .peony) s = .next t ∧ t.link.mark = some (s.tick, s.etime) ∧ t.link.off = true ∧ t.pe = s.pe ∧
        (∀ y, ((t.loop.get y).word.cmd = 0 ∨ (t.loop.get y).word.cmd = 4) ∧ (s.armed y = true → t.moving y = false)) ∧
        ∀ f ∈ t.faults, f ∈ s.faults ∨ f.die = .aster ∧ (f.kind = 0x0A ∨ f.kind = 0x09)) ∧
    (s.inReset = false → s.pe.flt = true → s.link.mark.isSome = true → exec (.fltLAssert .peony) s = .next s) ∧
    (∀ x ax at_, (s.ses x).clearWin.get ax = some at_ → s.due at_ 1000000 = true →
      ∃ t, exec (.clearWindowExpiry x ax) s = .next t ∧ (t.ses x).clearWin.get ax = none ∧
        t = { s with sess := t.sess, etime := t.etime } ∧
        ∀ y z, ¬ (y = x ∧ z = ax) → (t.ses y).clearWin.get z = (s.ses y).clearWin.get z)

/-! ### Position (chapter 10) -/

/-- A decoder sample or a Hall change takes the levels that have passed their filter and counts one step of the selected source, up or
down with the direction, or an illegal change; PCNT counts while its channel is on. The first qualified index sets the reference phase,
a later one within tolerance ends a run of failures and one outside counts; a level that has not stood for the filter, or that the
filtered pin has already, does nothing. An event of a latch counts and, when the latch takes it, records the position and disarms it; the window of the speed closes after its ticks
(R317-R321, R324, R326-R328, R331, R337-R339). -/
def Obligations.PositionInputsAct : Prop :=
  (∀ (s : State) (ax : Axis), s.counting = true →
    (∀ qa qb runA runB clk a b, a = (if encFilt s ax ≤ runA then qa else (s.pos.get ax).qa) →
      b = (if encFilt s ax ≤ runB then qb else (s.pos.get ax).qb) → ∃ t, exec (.quadEdge ax ⟨qa, runA⟩ ⟨qb, runB⟩ clk) s = .next t ∧
      (t.pos.get ax).qa = a ∧ (t.pos.get ax).qb = b ∧ (t.pos.get ax).lat = (s.pos.get ax).lat ∧
      (t.pos.get ax).phi = (s.pos.get ax).phi ∧ (t.pos.get ax).valid = (s.pos.get ax).valid ∧
      (∀ d, quadStep (s.pos.get ax).qa (s.pos.get ax).qb a b = some d → t.cnt = s.cnt ∧
        (t.pos.get ax).pos = (s.pos.get ax).pos + (if s.srcIs ax 1 then
          BitVec.ofInt 32 (if s.axp ax 0x0A1 == 1 then -d else d) else 0)) ∧
      (quadStep (s.pos.get ax).qa (s.pos.get ax).qb a b = none → (t.pos.get ax).pos = (s.pos.get ax).pos ∧
        t.count (axId ax 0x0C6) = min 65535 (s.count (axId ax 0x0C6) + 1)) ∧
      t = { s with cnt := t.cnt, pos := s.pos.set ax (t.pos.get ax) }) ∧
    (∀ hs runU runV runW clk h, h = hallFiltered (hallFilt s ax) hs (s.pos.get ax).hall runU runV runW → ∃ t,
      exec (.hallChange ax ⟨hs, runU, runV, runW⟩ clk) s = .next t ∧ (t.pos.get ax).hall = h ∧
      (h = (s.pos.get ax).hall → t = s) ∧
      (h ≠ (s.pos.get ax).hall → hallStep (s.pos.get ax).hall h = none →
        t.count (axId ax 0x0C8) = min 65535 (s.count (axId ax 0x0C8) + 1) ∧
        t = { s with cnt := t.cnt, pos := s.pos.set ax { s.pos.get ax with hall := h } }) ∧
      ∀ d k, hallStep (s.pos.get ax).hall h = some (d, k) → (t.loop.get ax).bnd = some (k, s.eclkAt clk) ∧
        (t.pos.get ax).pos = (s.pos.get ax).pos + (if s.srcIs ax 2 then
          BitVec.ofInt 32 (if s.axp ax 0x0A1 == 1 then -d else d) else 0) ∧
        (∀ n : Fin 2, ((t.pos.get ax).latch n.val).rcd.count = if s.latSrc ax n.val = 5
          then min 65535 (((s.pos.get ax).latch n.val).rcd.count + 1) else ((s.pos.get ax).latch n.val).rcd.count) ∧
        t = { s with pos := s.pos.set ax (t.pos.get ax), loop := s.loop.set ax { s.loop.get ax with
          bnd := (t.loop.get ax).bnd, bndStep := (t.loop.get ax).bndStep, bndAt := (t.loop.get ax).bndAt,
          cal := (t.loop.get ax).cal, offRt := (t.loop.get ax).offRt, offWait := (t.loop.get ax).offWait } }) ∧
    (∀ up, s.pe.powered = true → memRead s.pe.active 0x100 = 1 → exec (.pcntCount up) s = .next
      { s with pe := { s.pe with an := { s.pe.an with pcnt := if up then s.pe.an.pcnt + 1 else s.pe.an.pcnt - 1 } } })) ∧
  (∀ (s : State) (ax : Axis),
    (∀ level run clk, run < encFilt s ax ∨ level = (s.pos.get ax).qz → exec (.indexEdge ax ⟨level, run, clk⟩) s = .next s) ∧
    (∀ run clk, s.counting = true → encFilt s ax ≤ run → (s.pos.get ax).qz = true →
      exec (.indexEdge ax ⟨false, run, clk⟩) s = .next { s with pos := s.pos.set ax { s.pos.get ax with qz := false } }) ∧
    (∀ run clk, s.counting = true → encFilt s ax ≤ run → (s.pos.get ax).qz = false →
      s.axp ax 0x0A5 ≠ 1 ∨ ((s.pos.get ax).qa = true ∧ (s.pos.get ax).qb = true) → ∃ t, exec (.indexEdge ax ⟨true, run, clk⟩) s = .next t ∧
      (t.pos.get ax).qz = true ∧
      (s.axp ax 0x0A4 = 1 → s.srcIs ax 1 = true →
        ((s.pos.get ax).phi = none →
          (t.pos.get ax).phi = some ((s.pos.get ax).pos.toInt % (4 * s.axp ax 0x0A3)) ∧ (t.pos.get ax).idxRun = (s.pos.get ax).idxRun) ∧
        ∀ phi, (s.pos.get ax).phi = some phi → (t.pos.get ax).phi = some phi ∧
          (t.pos.get ax).idxErr = some (idxError (s.pos.get ax).pos.toInt phi (4 * s.axp ax 0x0A3)) ∧
          (t.pos.get ax).idxRun = if (idxError (s.pos.get ax).pos.toInt phi (4 * s.axp ax 0x0A3)).natAbs ≤ s.axp ax 0x0A6
            then 0 else (s.pos.get ax).idxRun + 1) ∧
      (s.axp ax 0x0A4 ≠ 1 ∨ s.srcIs ax 1 = false → t.cnt = s.cnt ∧ (t.pos.get ax).phi = (s.pos.get ax).phi ∧
        (t.pos.get ax).idxRun = (s.pos.get ax).idxRun ∧ (t.pos.get ax).idxErr = (s.pos.get ax).idxErr) ∧
      (∀ n : Fin 2, ((t.pos.get ax).latch n.val).rcd.count = if s.latSrc ax n.val = 4
        then min 65535 (((s.pos.get ax).latch n.val).rcd.count + 1) else ((s.pos.get ax).latch n.val).rcd.count) ∧
      (t.pos.get ax).pos = (s.pos.get ax).pos ∧ t = { s with cnt := t.cnt, pos := s.pos.set ax (t.pos.get ax) }) ∧
    (∀ (n : Fin 2) level run clk, run < pinFilt s ax ∨ level = (s.pos.get ax).pin n.val →
      exec (.latchEvent ax n ⟨level, run, clk⟩) s = .next s) ∧
    (∀ (n : Fin 2) level run clk, s.counting = true → pinFilt s ax ≤ run → level ≠ (s.pos.get ax).pin n.val →
      pinEvent (s.latSrc ax n.val) level = false →
      exec (.latchEvent ax n ⟨level, run, clk⟩) s = .next { s with pos := s.pos.set ax ((s.pos.get ax).setPin n.val level) }) ∧
    (∀ (n : Fin 2) level run clk, s.counting = true → pinFilt s ax ≤ run → level ≠ (s.pos.get ax).pin n.val →
      (s.latSrc ax n.val = 1 ∧ level = true) ∨ (s.latSrc ax n.val = 2 ∧ level = false) ∨ s.latSrc ax n.val = 3 → ∃ t,
      exec (.latchEvent ax n ⟨level, run, clk⟩) s = .next t ∧ (t.pos.get ax).pin n.val = level ∧
      ((t.pos.get ax).latch n.val).rcd.count = min 65535 (((s.pos.get ax).latch n.val).rcd.count + 1) ∧
      (t.pos.get ax).latch (1 - n.val) = (s.pos.get ax).latch (1 - n.val) ∧
      (latTakes s ax n.val = true → ((t.pos.get ax).latch n.val).armed = false ∧
        (s.scSource ax = false → ((t.pos.get ax).latch n.val).rcd.pos = (s.pos.get ax).pos ∧
          ((t.pos.get ax).latch n.val).rcd.wrap = (s.pos.get ax).wrap)) ∧
      (latTakes s ax n.val = false → ((t.pos.get ax).latch n.val).rcd.pos = ((s.pos.get ax).latch n.val).rcd.pos) ∧
      t = { s with pos := s.pos.set ax { s.pos.get ax with
        lat := (t.pos.get ax).lat, latWait := (t.pos.get ax).latWait, latPin := (t.pos.get ax).latPin } }) ∧
    (s.ticking = true → s.axn ax 0x0A9 ≤ (s.pos.get ax).winTicks → ∃ t, exec (.speedWindowClose ax) s = .next t ∧
      (∃ w, (t.pos.get ax).closed = some w ∧ w.delta = (s.pos.get ax).ext - (s.pos.get ax).winPos ∧ w.ticks = s.axn ax 0x0A9 ∧
        w.clocks = s.tickP) ∧ (t.pos.get ax).winTicks = 0 ∧ (t.pos.get ax).winPos = (s.pos.get ax).ext ∧
      (t.pos.get ax).pos = (s.pos.get ax).pos ∧ t = { s with pos := s.pos.set ax (t.pos.get ax) }))


/-! ### Faults that Aster decides (chapters 10-13) -/

/-- The faults of an axis or a sensor that Aster decides stop both axes: a failed index, a lost sin/cos signal, a stall, a sense
failure without reconstruction, an open phase without limp, the end of degraded operation, an obstruction without reversal, and a
hot or suspect sensor (R294, R328, R334, R335, R369, R371-R374, R406, R408, R437, R442). -/
def Obligations.AxisFaultsStop : Prop :=
  ∀ (s : State) (c : Instr) (k : Nat) (m : BitVec 2) (x : Axis),
    (c = .eEncIdx x ∧ k = 0x0B ∧ m = axBit x ∧ s.axp x 0x0A7 ≤ (s.pos.get x).idxRun ∧
       (s.faults.any fun f => f.kind == 0x0B && hasAxis f.axes x) = false ∨
     c = .eSincosAmp ∧ k = 0x0C ∧ m = axBit x ∧ s.scAxis = some x ∧ (s.par 0x0055 ≤ s.sc.outRun ∨ 2 ≤ s.sc.qRun) ∧
       (s.faults.any fun f => f.kind == 0x0C) = false ∨
     c = .eStall x ∧ k = 0x07 ∧ m = axBit x ∧ (s.mot.get x).obsTick ≠ some s.tick ∧
       ((∃ t0, (s.loop.get x).stallAt = some t0 ∧ s.axn x 0x04A * 1000 ≤ s.since t0) ∨
        ((s.loop.get x).openLoop.isSome = true ∧ s.axn x 0x039 * 1000 ≤ s.since (s.loop.get x).since)) ∨
     c = .senseFailure x ∧ k = 0x0A ∧ m = axBit x ∧ s.armed x = true ∧ (s.loop.get x).senseDue.any (fun d => !d.1) = true ∨
     (∃ p, c = .phaseOpen x p ∧ k = 0x09 ∧ m = axBit x ∧ openProved s x p = true ∧ s.armed x = true ∧
       (s.loop.get x).senseTick ≠ some s.tick ∧
       ((s.loop.get x).degr = .none ∧ (s.axp x 0x079 ≠ 1 ∨ s.commMode x = 4) ∨ (∃ q, (s.loop.get x).degr = .recon q) ∨
        ∃ q, q ≠ p ∧ (s.loop.get x).degr = .limp q)) ∨
     (c = .degradedTimeout x ∧ m = axBit x ∧ s.axn x 0x04C * 100000 ≤ s.since (s.loop.get x).degrAt ∧
       ((∃ q, (s.loop.get x).degr = .recon q ∧ k = 0x0A) ∨ ∃ q, (s.loop.get x).degr = .limp q ∧ k = 0x09)) ∨
     c = .obstruction x ∧ k = 0x08 ∧ m = axBit x ∧ (s.mot.get x).obsDue = some false ∧ s.coupled = false ∨
     (∃ n : Fin 8, c = .tsSuspect n ∧ k = 0x0E ∧ m = 3 ∧ (s.ts n.val).due = true ∧ s.asleep = false ∧ (s.ts n.val).hot = true) ∨
     ∃ n : Fin 8, ∃ w, c = .eOt n ∧ 6 ≤ n.val ∧ k = 0x04 ∧ m = 3 ∧ s.asleep = false ∧ (s.ts n.val).b5 = false ∧ (s.ts n.val).cnt = some w ∧
       w.toNat ≤ (s.ts n.val).nOn) →
    ∃ t, exec c s = .next t ∧ AsterStops k m s t ∧
      (c = .eEncIdx x ∨ c = .eSincosAmp → (t.pos.get x).valid = false ∧ (t.loop.get x).offRt = none)

/-- Degraded operation and reversal in place of a fault: the D-class work that decides a sense failure rebuilds the failed channel from
the other two, and one that decides an obstruction under `reverse` turns the motion; the commands report them with their entries. An
open phase limps. No fault is latched and Peony is not touched (R371-R374, R408, R409). -/
def Obligations.DegradesAndReverses : Prop :=
  ∀ (s : State) (x : Axis),
    (∀ p, 4 ≤ (s.loop.get x).sumRun → (s.loop.get x).degr = .none → failedChannel (s.loop.get x).resid = some p →
      s.axp x 0x073 = 0 → senseDecide x s = { s with loop := s.loop.set x { s.loop.get x with
        failed := senseFail (some p), sumRun := 0, senseTick := some s.tick, senseDue := some (true, phIdx p + 1),
        degr := .recon p, degrAt := s.etime, i := rebuild p (s.loop.get x).i } }) ∧
    (∀ n, s.armed x = true → (s.loop.get x).senseDue = some (true, n) →
      ∃ t, exec (.senseFailure x) s = .next t ∧ t.loop = s.loop.set x { s.loop.get x with senseDue := none } ∧
        t.count 0x7A30 = min 65535 (s.count 0x7A30 + 1) ∧ t.faults = s.faults ∧ t.mot = s.mot ∧ t.pe = s.pe) ∧
    (∀ p, openProved s x p = true → s.armed x = true → (s.loop.get x).senseTick ≠ some s.tick → (s.loop.get x).degr = .none →
      s.axp x 0x079 = 1 → s.commMode x ≠ 4 →
      ∃ t, exec (.phaseOpen x p) s = .next t ∧ (t.loop.get x).degr = .limp p ∧ (t.loop.get x).degrAt = s.etime ∧
        (t.loop.get x).openPh = some p ∧ (t.loop.get x).st = (s.loop.get x).st ∧ t.count 0x7A31 = min 65535 (s.count 0x7A31 + 1) ∧
        t.loop = s.loop.set x (t.loop.get x) ∧ t.faults = s.faults ∧ t.mot = s.mot ∧ t.pe = s.pe) ∧
    (openProved s x .u = false → exec (.phaseOpen x .u) s = .next s) ∧
    ((s.mot.get x).hit = true → (s.mot.get (otherAxis x)).hit = false → (s.mot.get x).obsDue = none → s.paired = false →
      reacts s x = true → s.host.restart = none → (s.mot.get x).st = .run →
      obsDecide s = { s with
        mot := s.mot.set x { s.mot.get x with st := .reversing, ref := refNow s x, revBack := false, follow := none, overN := 0,
                                              entry := false, obsDue := some true, obsTick := some s.tick },
        loop := s.loop.set x { s.loop.get x with stallAt := none } }) ∧
    (s.coupled = false → (s.mot.get x).obsDue = some true → ∃ t, exec (.obstruction x) s = .next t ∧
      t.mot = s.mot.set x { s.mot.get x with obsDue := none } ∧ t.count 0x7A32 = min 65535 (s.count 0x7A32 + 1) ∧
      t.loop = s.loop ∧ t.faults = s.faults ∧ t.pe = s.pe)

/-! ### Arming and calibration (chapter 11) -/

/-- The sequence from DISARMED to READY and back: each time ends its state and leads to the next one of Table 11-3, an `arm` that
ends is answered, and `disarm` ends in DISARMED after 20 ms at the latest, which for a degraded axis in motion is a hold point with
its fault (R261, R364, R366-R368, R373, R374, R398). -/
def Obligations.ArmingGoesOn : Prop :=
  ∀ (s : State) (x : Axis),
    ((s.loop.get x).st = .precharge → (s.loop.get x).disarming = false → s.axn x 0x069 * 100 ≤ s.since (s.loop.get x).since →
      exec (.prechargeEnd x) s = .next { s with loop := s.loop.set x { s.loop.get x with st := .start, since := s.etime } }) ∧
    ((s.loop.get x).st = .start → (s.loop.get x).disarming = false → alignsStart s x = false → ∃ t, exec (.startAngleSet x) s = .next t ∧
      t = { s with sess := t.sess, loop := s.loop.set x { s.loop.get x with st := .ready, since := s.etime, offWait := (s.loop.get x).offRt.isNone && s.commMode x == 3 } } ∧
      ∀ y sel, (selAxes sel).contains x = true → (t.ses y).running.map (·.wait) ≠ some (.axis sel .arm)) ∧
    ((s.loop.get x).st = .start → (s.loop.get x).disarming = false → alignsStart s x = true → s.axn x 0x034 * 1000 ≤ s.since (s.loop.get x).since →
      ∃ t, exec (.startAngleSet x) s = .next t ∧
        t = { s with sess := t.sess, loop := s.loop.set x { s.loop.get x with st := .ready, since := s.etime, offRt := some (s.pos.get x).pos.toInt, offWait := false } }) ∧
    ((s.loop.get x).st = .wait → s.axn x 0x032 * 1000 ≤ s.since (s.loop.get x).since → ∃ t, exec (.stillTimeout x) s = .next t ∧
      (t.loop.get x).st = .disarmed ∧ (t.loop.get x).word = GateWord.off ∧ (t.loop.get x).wantDiag = false ∧
      t = { s with sess := t.sess, loop := s.loop.set x (t.loop.get x) } ∧
      ∀ y sel, (selAxes sel).contains x = true → (t.ses y).running.map (·.wait) ≠ some (.axis sel .arm)) ∧
    ((s.loop.get x).st = .catching → 50000 ≤ s.since (s.loop.get x).since → exec (.catchTimeout x) s = .next
      { s with loop := s.loop.set x { s.loop.get x with st := .wait, since := s.etime, wantDiag := true } }) ∧
    (∀ a t0, (s.loop.get x).openLoop = some a → (s.loop.get x).lockAt = some t0 → 50000 ≤ s.since t0 →
      let q := clampTo (limitA s x) ((s.axp x 0x035 : Rat) / 100) * angSin (toAngle a.1 - (s.loop.get x).angle)
      exec (.openLoopHandover x) s = .next { s with
        loop := s.loop.set x { s.loop.get x with openLoop := none, lockAt := none },
        mot := s.mot.set x { s.mot.get x with intV := q, iqRef := q } }) ∧
    ((s.loop.get x).disarming = true → s.armed x = true → 20000 ≤ s.since (s.loop.get x).since → (s.loop.get x).degr = .none →
      ∃ t, exec (.disarmTimeout x) s = .next t ∧ (t.loop.get x).st = .disarmed ∧ (t.loop.get x).word = GateWord.off ∧
        (t.loop.get x).disarming = false ∧ (t.loop.get x).iq = 0 ∧ (t.mot.get x).st = .idle ∧ t.faults = s.faults ∧ t.pe = s.pe ∧
        t.pos = s.pos ∧ t.prm = s.prm ∧ ∀ y, y ≠ x → (t.loop.get y).st = (s.loop.get y).st) ∧
    (∀ f, (s.loop.get x).disarming = true → 20000 ≤ s.since (s.loop.get x).since → degradedFault (s.loop.get x).degr = some f →
      (s.mot.get x).st = .run ∨ (s.mot.get x).st = .stopping ∨ (s.mot.get x).st = .reversing →
      ∃ t, exec (.disarmTimeout x) s = .next t ∧ AsterStops f.1 (axBit x) s t)

/-- A calibration that has run to its end and passes its checks ends with a commit of what it found, by the line that asked: `cal offset`
after 1,024 ticks with three offsets inside 64 counts, `cal align` when both movements lie within 10 % of the expected one, and in
`foc` with the offset of the rotor. A check that fails ends the line with `err 37` or `err 71`, and a commit already under way with
`err 41`; then no value changes (R377, R379). -/
def Obligations.CalibrationsEnd : Prop :=
  ∀ (s : State) (x : Axis),
    (∀ n sums vm, (s.loop.get x).cal = some (.offset n sums vm) →
      let steady := s.disarmed x = true ∧ stillFor s x = true ∧ vmSteady vm = true
      let inside := ∀ q ∈ sums.toList, (offsetOf q).natAbs ≤ 64
      let ends (e : Nat) : Prop := ∃ t, exec (.calOffsetDone x) s = .next t ∧
        t = { s with sess := t.sess, loop := s.loop.set x { s.loop.get x with cal := none } } ∧
        ∀ y rn, (s.ses y).isOpen = true → (s.ses y).running = some rn → rn.wait = .calOffset x → Ended y rn (errText e none) t
      (n < 1024 → exec (.calOffsetDone x) s = .next s) ∧
      (1024 ≤ n → steady → inside → s.commit = none → s.fram.journal.length < 64 →
        ∃ t, exec (.calOffsetDone x) s = .next t ∧ (t.loop.get x) = { s.loop.get x with cal := none } ∧
          (∃ c, t.commit = some c ∧ c.phase = .build ∧
            c.ents = [(axId x 0x074, offsetOf sums.u), (axId x 0x075, offsetOf sums.v), (axId x 0x076, offsetOf sums.w)]) ∧
          t.sess = s.sess ∧ t.prm = s.prm ∧ t.pe = s.pe ∧ t.faults = s.faults) ∧
      (1024 ≤ n → ¬steady → ends 37) ∧ (1024 ≤ n → steady → ¬inside → ends 71) ∧
      (1024 ≤ n → steady → inside → s.commit.isSome = true → ends 41)) ∧
    (∀ at_ p0 p1 p2 f b, (s.loop.get x).cal = some (.align 6 at_ p0 p1 p2 f b) → (s.loop.get x).st = .disarmed →
      let near (p : Int) : Prop := ((BitVec.ofInt 32 (p1 - p) : W32).toInt - alignExpect s x : Rat) ≤ alignExpect s x / 10 ∧
        (alignExpect s x - (BitVec.ofInt 32 (p1 - p) : W32).toInt : Rat) ≤ alignExpect s x / 10
      let ends (e : Nat) : Prop := ∃ t, exec (.calAlignDone x) s = .next t ∧ (t.loop.get x).cal = none ∧
        t = { s with sess := t.sess, loop := s.loop.set x (t.loop.get x), mot := s.mot.set x { s.mot.get x with learn := none } } ∧
        ∀ y rn, (s.ses y).isOpen = true → (s.ses y).running = some rn → rn.wait = .calAlign x → Ended y rn (errText e none) t
      (near p0 ∧ near p2 → s.commit = none → s.fram.journal.length < 64 → ∃ t, exec (.calAlignDone x) s = .next t ∧
        (∃ c, t.commit = some c ∧ c.phase = .build ∧ c.ents = alignAngles x f b) ∧
        (t.loop.get x) = { s.loop.get x with cal := none, offRt := if s.commMode x = 3 then circMean ((mRev s x : Rat) / (max 1 (s.axn x 0x021) : Nat)) [(p0 : Rat), (p1 : Rat), (p2 : Rat)] else (s.loop.get x).offRt } ∧
        t.sess = s.sess ∧ t.prm = s.prm ∧ t.pe = s.pe ∧ t.faults = s.faults) ∧
      (¬(near p0 ∧ near p2) → ends 37) ∧ (near p0 ∧ near p2 → s.commit.isSome = true → ends 41)) ∧
    ((s.loop.get x).cal = none → exec (.calOffsetDone x) s = .next s ∧ exec (.calAlignDone x) s = .next s)

/-! ### Motion ends (chapter 12) -/

/-- The ends that a motion finds: an end stop in CREEP, or pressing in HOME, which loads the position; a push starts ASSIST and its
end leads to HOLD or IDLE, each in a tick with an accepted UC alone; a complete learning pass is taken and the other profile is next
(R398, R407, R413, R417, R418, R425). -/
def Obligations.MotionFindsItsEnd : Prop :=
  ∀ (s : State) (x : Axis),
    (s.link.gotUc = true → (s.mot.get x).st = .run → (s.mot.get x).segKind ≠ 6 → (s.mot.get x).endFound = true → (s.loop.get x).degr = .none →
      ∃ t, exec (.endStop x) s = .next t ∧ (t.mot.get x).result = .endstop ∧
        (t.mot.get x).st = (if (s.mot.get x).holds then .hold else .idle) ∧ (t.mot.get x).ref = (s.pos.get x).ext ∧
        t = { s with sess := t.sess, mot := s.mot.set x (t.mot.get x) }) ∧
    (s.link.gotUc = true → (s.mot.get x).st = .run → (s.mot.get x).segKind = 6 → s.homed x = true → (s.loop.get x).degr = .none →
      ∃ t, exec (.endStop x) s = .next t ∧ (t.mot.get x).result = .homed ∧
        (t.mot.get x).st = (if (s.mot.get x).holds then .hold else .idle) ∧ (t.pos.get x).valid = true ∧
        (t.pos.get x).wrap = 0 ∧ (∀ c, (s.mot.get x).copy = some c → (t.pos.get x).pos = c.target) ∧
        t = { s with sess := t.sess, pos := s.pos.set x (t.pos.get x), loop := s.loop.set x (t.loop.get x),
                     mot := s.mot.set x (t.mot.get x) }) ∧
    (∀ t0 up, s.link.gotUc = true → (s.mot.get x).pushAt = some (t0, up) → s.axp x 0x1C3 * 1000 ≤ s.since t0 → (pushNow s x).isSome = true →
      s.axp x 0x1C0 ≠ 2 → ∃ t, exec (.pushDetect x) s = .next t ∧ t.pe = s.pe ∧ t.loop = s.loop ∧ t.faults = s.faults ∧
        t.mot = s.mot.set x { s.mot.get x with st := .assist, pushPos := up, pushHold := (s.mot.get x).st == .hold, pushAt := none, pushEnd := none, vref := 0 }) ∧
    (∀ t0, s.link.gotUc = true → (s.mot.get x).st = .assist → (s.mot.get x).pushEnd = some t0 → 500000 ≤ s.since t0 →
      exec (.pushEnd x) s = .next { s with mot := s.mot.set x { s.mot.get x with st := if (s.mot.get x).pushHold then .hold else .idle, ref := (s.pos.get x).ext, vref := 0, aref := 0, pushEnd := none } }) ∧
    (s.link.gotUc = false → exec (.endStop x) s = .next s ∧ exec (.pushDetect x) s = .next s ∧ exec (.pushEnd x) s = .next s) ∧
    (∀ g, s.coupled = false → (s.mot.get x).learn = some g → g.run = true → g.pair = false → s.moving x = false →
      (s.mot.get x).result = .done → ∃ t, exec (.learnPassComplete x) s = .next t ∧ ∃ g', (t.mot.get x).learn = some g' ∧
        g'.run = false ∧ g'.next = learnOther s x g.next ∧
        (g.dirPos = true → g'.donePos = g.donePos + 1 ∧ g'.doneNeg = g.doneNeg) ∧
        (g.dirPos = false → g'.doneNeg = g.doneNeg + 1 ∧ g'.donePos = g.donePos) ∧
        t = { s with mot := s.mot.set x { s.mot.get x with learn := some g' }, cnt := t.cnt, fram := { s.fram with queue := t.fram.queue, cur := t.fram.cur } })

/-! ### Temperature and charging (chapters 13, 14) -/

/-- A gate count enters the latest counts and ends hardware B5 at or above N_off; a count of Peony at or below N_on stops the axes
of its zone, or the charger in the charger zone; a suspect sensor under cross-check stops nothing, and no fault of Aster latches in
STOP or WATCH (R429, R435, R437, R441, R513). -/
def Obligations.TemperatureActs : Prop :=
  ∀ (s : State) (n : Fin 8),
    (∀ w : W16, n.val < 6 → s.pe.runs = true → ∃ t, exec (.tsGateCount n w) s = .next t ∧
      t.pe.an.ts = s.pe.an.ts.set n.val w ∧
      t.pe.an.b5 = (if s.pe.nOff n.val ≤ w.toNat then s.pe.an.b5.set n.val false else s.pe.an.b5) ∧
      t = { s with pe := { s.pe with an := { s.pe.an with ts := t.pe.an.ts, b5 := t.pe.an.b5, chgStop := t.pe.an.chgStop, buck := t.pe.an.buck, iTarget := t.pe.an.iTarget } } }) ∧
    (∀ w : W16, 6 ≤ n.val → s.temp.ts.length = 8 → s.dev = .boot ∨ s.dev = .run ∨ s.dev = .safe → ∃ t, exec (.tsGateCount n w) s = .next t ∧
      (t.ts n.val).cnt = some w ∧ (t.ts n.val).b5 = ((s.ts n.val).b5 && w.toNat < (s.ts n.val).nOff) ∧
      t = { s with temp := { s.temp with ts := t.temp.ts } }) ∧
    (n.val < 6 → s.pe.powered = true → s.inB5 n.val = false → (nth s.pe.an.ts n.val 0xFFFF).toNat ≤ s.pe.nOn n.val →
      ∃ t, exec (.eOt n) s = .next t ∧ PeonyStops 4 (otMask (zoneOf n.val)) (otAxes (zoneOf n.val)) s t ∧
        t.pe.an.b5 = s.pe.an.b5.set n.val true ∧
        (∀ y, hasAxis (otAxes (zoneOf n.val)) y = true → (t.pe.ax.get y).latch ≠ .free) ∧
        (∀ y, hasAxis (otAxes (zoneOf n.val)) y = false → t.pe.ax.get y = s.pe.ax.get y) ∧
        (zoneOf n.val = 2 → t.pe.an.buck = false)) ∧
    ((s.ts n.val).due = true → (s.ts n.val).hot = false → s.temp.ts.length = 8 → s.asleep = false → ∃ t, exec (.tsSuspect n) s = .next t ∧
      t.temp = { s.temp with ts := s.temp.ts.set n.val { s.ts n.val with due := false } } ∧
      t.count 0x7A39 = min 65535 (s.count 0x7A39 + 1) ∧ t.faults = s.faults ∧ t.pe = s.pe ∧ t.loop = s.loop) ∧
    (s.asleep = true → exec (.tsSuspect n) s = .next s ∧ (6 ≤ n.val → exec (.eOt n) s = .next s))

/-- While the host core runs, a charger timer that has run out leads to the state of Table 14-4, or to the pause of Table 14-5. Each hardware stop that holds
switches the buck off, a gap stop until a run byte, and they end when their conditions have; the battery FET closes while BAT
exceeds VM and opens while VM exceeds BAT (R459, R466, R471, R477). The comparisons of headroom and clamp are the model's reading
(log 113). -/
def Obligations.ChargerActs : Prop :=
  (∀ s : State, s.host.restart = none →
    (s.chg.st = .pre → s.parN 0x440A * 60000 ≤ s.chg.tPre → ∃ t, exec (.chargerTimeout .pre) s = .next t ∧
      t.chg.st = .error ∧ t.chg.reason = .preTo ∧ t.pe = s.pe) ∧
    (s.chg.st = .pre ∨ s.chg.st = .bulk ∨ s.chg.st = .absorb → s.parN 0x4409 * 360000 ≤ s.chg.tSafety →
      ∃ t, exec (.chargerTimeout .safety) s = .next t ∧ t.chg.st = .error ∧ t.chg.reason = .timer ∧ t.pe = s.pe) ∧
    (s.chg.st = .absorb → 60000 < s.chg.tAbsorb → ∃ t, exec (.chargerTimeout .absorb) s = .next t ∧
      t.chg.st = (if s.par 0x4400 == 1 then .float else .done) ∧ t.chg.reason = .none ∧ t.pe = s.pe) ∧
    (s.chg.st = .float ∨ s.chg.st = .trickle ∨ s.chg.st = .done → 60000 < s.chg.tRestart →
      ∃ t, exec (.chargerTimeout .restart) s = .next t ∧ t.chg.st = .bulk ∧ t.chg.reason = .none ∧ t.pe = s.pe) ∧
    (s.chg.st.charging = true → 1000 ≤ s.chg.clampMs.length → ∃ t, exec (.chargerTimeout .clampTime) s = .next t ∧
      t.chg.st = .error ∧ t.chg.reason = .batOv ∧ t.pe = s.pe) ∧
    (s.chg.st.charging = true → 5 < s.chg.tVin → ∃ t, exec (.chargerTimeout .vin) s = .next t ∧
      t.chg.st = .pause ∧ some t.chg.reason = (pauseReasons s).head? ∧ t.chg.kept = s.chg.st ∧ t.pe = s.pe) ∧
    (s.chg.st ≠ .off → s.chg.st ≠ .error → s.chg.st ≠ .backup → 1 < s.chg.tBackup →
      ∃ t, exec (.chargerTimeout .backup) s = .next t ∧ t.chg.st = .backup ∧ t.pe = s.pe ∧
        t.count 0x4487 = min 65535 (s.count 0x4487 + 1)) ∧
    (s.chg.st = .bulk → s.par 0x4400 = 2 → 1000 < s.chg.tLimit → ∃ t, exec (.chargerTimeout .nimhClamp) s = .next t ∧
      t.chg.st = .trickle ∧ t.chg.reason = .none ∧ t.pe = s.pe) ∧
    (∀ v, s.chg.st = .backup → s.parN 0x4413 * 100 < s.chg.tReturn → vbat s = some v → s.par 0x4400 ≠ 0 → s.par 0x440F ≠ 0 →
      let st : ChgState := if v < cellsOf s.set * s.chem.pre then .pre else if v < cellsOf s.set * s.chem.restart then .bulk
        else if s.par 0x4400 == 1 then .float else if s.par 0x4400 == 2 then .trickle else .done
      ∃ t, exec (.chargerTimeout .ret) s = .next t ∧ t.chg.qualify = false ∧ t.chg.kept = st ∧ t.pe = s.pe ∧
        (pauseReasons s = [] → t.chg.st = st ∧ t.chg.reason = .none) ∧
        (∀ r l, pauseReasons s = r :: l → t.chg.st = .pause ∧ t.chg.reason = r))) ∧
  (∀ s : State,
    (∀ c, s.pe.powered = true → (c = .zch → s.inB5 4 = true) → (c = .gap → s.pe.gapFired = true) →
      (c = .headroom → s.pe.headroom 150 = true) → (c = .clamp → s.pe.overMax = true) →
      ∃ t, exec (.chargerHwStop c) s = .next t ∧ t.pe.an.buck = false ∧ t.pe.an.chgStop.contains c = true ∧
        (c = .gap → t.pe.an.needRun = true) ∧
        t = { s with pe := { s.pe with an := { s.pe.an with buck := false, iTarget := 0, chgStop := t.pe.an.chgStop, needRun := t.pe.an.needRun } } }) ∧
    (s.pe.powered = true → ∃ t, exec .chargerHwResume s = .next t ∧
      (∀ c, t.pe.an.chgStop.contains c = (s.pe.an.chgStop.contains c && s.stopHolds c)) ∧
      (s.pe.an.needRun = true → t.pe.an.buck = false ∧ t.pe.an.iTarget = 0) ∧
      t = { s with pe := { s.pe with an := { s.pe.an with buck := t.pe.an.buck, iTarget := t.pe.an.iTarget, chgStop := t.pe.an.chgStop } } }) ∧
    (∀ bat vm : BitVec 12, vm.toNat < bat.toNat →
      exec (.batfetOn bat vm) s = .next { s with pe := { s.pe with isl := { s.pe.isl with batfet := true } } }) ∧
    (∀ bat vm : BitVec 12, bat.toNat ≤ vm.toNat → exec (.batfetOn bat vm) s = .next s) ∧
    (∀ bat vm : BitVec 12, bat.toNat < vm.toNat →
      exec (.batfetOff bat vm) s = .next { s with pe := { s.pe with isl := { s.pe.isl with batfet := false } } }) ∧
    (∀ bat vm : BitVec 12, vm.toNat ≤ bat.toNat → exec (.batfetOff bat vm) s = .next s))


/-! ### Sleep (chapter 15) -/

/-- The entry into STOP and WATCH goes on or is abandoned: once the reply has left and no CLOSE has still to go out, the late domain is
isolated and the core loses what no retained bank holds, while positions, Peony and the faults stay. A source acts before AP3 as an
abort, then it is latched, and asleep it starts the exit with its request for the RUN voltage; the timer and the crocus pass are such
sources, and a response that the island cannot have sent is none (R482, R484-R487, R490-R497, R502, R503, R512, R555). That such a
response counts as not valid, and what the expiry of the timer says of the LPO count, are the model's choice (log 114). -/
def Obligations.SleepGoesOn : Prop :=
  ∀ s : State,
    let woken (w : WakeSrc) (t : State) : Prop := t.pwr.woken = s.pwr.woken ||| wakeBit w ∧ t.pwr.abort = s.pwr.abort ∧
      t = { s with pwr := { s.pwr with woken := t.pwr.woken, wakePin := t.pwr.wakePin } }
    let leaves (src : BitVec 9) (t : State) : Prop := t.pwr.step = .leaving ∧ t.pwr.wakeSrc = src ∧ t.pwr.woken = src ∧
      t.pwr.pmbus = 3 ∧ t.pwr.pmSeq = pmbusTry t ∧ t.pwr.sensEn = false ∧ t = { s with pwr := t.pwr, cnt := t.cnt }
    (s.pwr.step = .drain → s.sess.h.out = [] → s.sess.h.held = [] → closing s = false →
      (s.mode = false → ∃ t, exec .lowPowerEnter s = .next t ∧
        t.pwr.step = .asleep ∧ t.pwr.pmbus = 2 ∧ t.pwr.pmSeq = pmbusTry t ∧ t.pwr.isoLate = true ∧ t.commit = none ∧
        (∀ y, (t.loop.get y).st = .disarmed ∧ (t.pos.get y).pos = (s.pos.get y).pos ∧ (t.pos.get y).wrap = (s.pos.get y).wrap) ∧
        (s.pwr.banks.getLsbD 0 = true → t.prm = s.prm) ∧ (s.pwr.banks.getLsbD 0 = false → t.prm.now = []) ∧
        t.pe = s.pe ∧ t.otp = s.otp ∧ t.faults = s.faults ∧ t.sess.h.level = s.sess.h.level) ∧
      (s.mode = true → s.pwr.woken = 0 → ∃ t, exec .lowPowerEnter s = .next t ∧ t.pwr.step = .asleep ∧ t.pwr.reverse = true ∧
        t.pwr.assist = s.pwr.banks ∧ t.pwr.bias = false ∧ t.pwr.pmbus = s.pwr.pmbus ∧ t.pe = s.pe)) ∧
    (s.pwr.step ≠ .drain ∨ s.sess.h.out ≠ [] ∨ s.sess.h.held ≠ [] ∨ closing s = true → exec .lowPowerEnter s = .next s) ∧
    (∀ w, wakeActs s w = true →
      (s.pwr.step = .asleep → s.pwr.pmbus = 0 → s.mode = false → ∃ t, exec (.wake w) s = .next t ∧ leaves (s.pwr.woken ||| wakeBit w) t) ∧
      (s.pwr.step = .drain → ∃ t, exec (.wake w) s = .next t ∧ woken w t) ∧
      (s.pwr.watch = true → s.pwr.step = .flush ∨ s.pwr.step = .isolate → ∃ t, exec (.wake w) s = .next t ∧ woken w t) ∧
      (s.pwr.watch = false → s.pwr.step = .flush ∨ s.pwr.step = .isolate → s.pwr.abort = none →
        ∃ t, exec (.sleepAbort (.wake w)) s = .next t ∧ exec (.wake w) s = .next t ∧ t.pwr.woken = s.pwr.woken ||| wakeBit w ∧
          t = { s with pwr := { s.pwr with woken := t.pwr.woken, wakePin := t.pwr.wakePin, abort := some (.wake w) } })) ∧
    (∀ w, wakeActs s w = false → exec (.wake w) s = .next s) ∧
    (s.pwr.watch = false → s.pwr.step = .flush ∨ s.pwr.step = .isolate → s.pwr.abort = none → s.faults ≠ [] ∨ s.link.off = true →
      exec (.sleepAbort .fault) s = .next { s with pwr := { s.pwr with abort := some .fault } }) ∧
    (s.pwr.watch = false → s.pwr.step = .flush ∨ s.pwr.step = .isolate → s.pwr.abort = none → s.host.restart.isSome = true →
      exec (.sleepAbort .restart) s = .next { s with pwr := { s.pwr with abort := some .restart } }) ∧
    (s.pwr.step = .asleep → wakeActs s .timer = true → s.pwr.pmbus = 0 → s.mode = false →
      ∃ t, exec .stopTimerExpiry s = .next t ∧ leaves (s.pwr.woken ||| 16) t ∧
        s.pwr.timer * lpoHz s ≤ 100 * t.pwr.lpo) ∧
    (∀ ha hb qa qb wrsp, s.pwr.step = .asleep → s.pwr.watch = true → s.pwr.pmbus = 0 →
      let rsp := (watchRsp wrsp).filter (islandSends s.pe)
      (rsp.isSome = true → (∀ i < 6, nth (crocusFindings s ha hb qa qb rsp) i none = some false) →
        ∃ t, exec (.crocusPass ha hb qa qb wrsp) s = .next t ∧ t.count 0x7886 = min 4294967295 (s.count 0x7886 + 1) ∧
          t = { s with cnt := t.cnt, pwr := { s.pwr with
            fails := List.replicate 6 0, noRsp := 0, batLow := t.pwr.batLow, wreq := [0x9B, 0x00, 0xE1, 0xF0] } }) ∧
      (rsp = none → 2 ≤ s.pwr.noRsp → s.mode = false →
        ∃ t, exec (.crocusPass ha hb qa qb wrsp) s = .next t ∧ t.pwr.step = .leaving ∧ t.pwr.wakeSrc.getLsbD 8 = true ∧
          t.pwr.pmbus = 3 ∧ t = { s with pwr := t.pwr, cnt := t.cnt }))

/-- The exit and its requests: the voltage request of a sleep entry, a boot or an exit ends with what it found, and one that has failed
has repeated its transactions three times, each after CLEAR_FAULTS; asleep, the reverse bias and the retention assist are on, and
from X3 they are off. Ticks run again at X10 with every position invalid and every session at USER, in RUN or in SAFE by its causes;
an abandoned entry is back in RUN (R481, R484, R489, R495, R500-R504, R506, R507). A Peony core that a boot finds without power powers up
from the island by the model's choice (log 115). -/
def Obligations.ExitsGoOn : Prop :=
  ∀ s : State,
    let again := PmbusCmd.clearFaults :: pmbusTry s
    (∀ v, s.pwr.pmbus = 1 → readbackPasses s v = true → ∃ t, exec (.pmbusRequestDone (.pass v)) s = .next t ∧ t.boot = .train ∧ t.pwr.vcore = some v ∧
      t.pwr.pmbus = 0 ∧ t.pwr.pmSeq = s.pwr.pmSeq ∧ t.link.tries = (s.bootPar 0x3010).toNat ∧ t.safe = s.safe ∧ t.pe.powered = true ∧
      (s.pe.powered = true → t = { s with boot := .train, pwr := t.pwr, link := t.link }) ∧
      (s.pe.powered = false → t.pwr.wreq = [0x9B, 0x01, 0xF1, 0xD1] ∧ ∀ y, allOff t y)) ∧
    (∀ v, s.pwr.pmbus = 1 → ∃ t, exec (.pmbusRequestDone (.fail v)) s = .next t ∧ t.boot = .train ∧ t.pwr.vcore = some v ∧
      t.pwr.pmSeq = s.pwr.pmSeq ++ again ++ again ++ again ∧ t.safe.getLsbD 3 = true ∧ (s.pe.powered = true → t.pe = s.pe)) ∧
    (∀ v, s.pwr.pmbus = 2 → readbackPasses s v = true → s.pwr.woken = 0 → exec (.pmbusRequestDone (.pass v)) s = .next
      { s with pwr := { s.pwr with vcore := some v, pmbus := 0, bias := false, reverse := true, assist := s.pwr.banks } }) ∧
    (∀ v, s.pwr.pmbus = 3 → readbackPasses s v = true → ∃ t, exec (.pmbusRequestDone (.pass v)) s = .next t ∧ t.pe.powered = true ∧ t.pwr.pmbus = 0 ∧
      t.pwr.reverse = false ∧ t.pwr.assist = 0 ∧ (∀ p, t.clamp p = none) ∧ t.pwr.wreq = [0x9B, 0x01, 0xF1, 0xD1] ∧
      t.link.tries = (s.bootPar 0x3010).toNat ∧ t.link.up = false ∧ t.link.needLoad = !s.pe.isl.valid ∧
      (s.pe.isl.valid = true → t.pe.active = s.pe.isl.store ∧ t.pe.configured = true) ∧
      (s.pe.isl.valid = false → t.pe.active = [] ∧ t.pe.configured = false) ∧ ∀ y, allOff t y) ∧
    (∀ f, s.dev = .run → s.pwr.step = .awake →
      exec (.lpoMeasure f) s = .next { s with pwr := { s.pwr with lpoHz := some f } }) ∧
    (∀ n, s.pwr.step = .leaving → s.pwr.pmbus = 0 → s.link.up = true → s.pwr.abort = none → s.pwr.lpoOn = true → n < 2 ^ 40 - 1 →
      s.pwr.lpo < 2 ^ 40 - 1 →
      ∃ t, exec (.exitRun n) s = .next t ∧ t.pwr.step = .awake ∧ t.ticking = true ∧ t.first = true ∧
        (∀ y, (t.pos.get y).valid = false) ∧ (∀ x, (t.ses x).level = .user) ∧ t.pwr.sleepUs = sleepDelta s (max n s.pwr.lpo) ∧
        t.dev = (if s.safe = 0 then .run else .safe)) ∧
    (∀ n a, s.pwr.step = .leaving → s.pwr.pmbus = 0 → s.link.up = true → s.pwr.abort = some a → s.safe = 0 →
      ∃ t, exec (.exitRun n) s = .next t ∧ t.pwr.step = .awake ∧ t.pwr.abort = none ∧ t.ticking = true ∧ t.dev = s.dev ∧
        t.prm = s.prm ∧ t.pos = s.pos)

/-! ### The bus (chapter 16) -/

/-- Cycles: the master numbers them and sends a start frame with its hash; a listening slave that hears its own hash locks, and
another hash is a mismatch; in SYNC the next number at its time is followed, and a missed frame counts and passes a cycle or loses
the bus. A data frame of the node itself that stands on the line has been sent when the next command of the line comes (R520, R524,
R527-R529, R540, R543, R544). -/
def Obligations.BusCyclesGo : Prop :=
  ∀ s : State, s.busLive = true → s.par 0x5000 = 1 →
    let own := s.bus.own = none
    let comp (u : State) : Nat := 2 + (u.busSet 0x500A).toNat
    (∀ c, s.bus.st ≠ .off → c = .cycleStart ∨ c = .csfMiss ∨ (∃ n, c = .slotBoundary n) ∨ (∃ b o i, c = .cycleStartFrame b o i) ∨
        (∃ b n o d, c = .slotFrame b n o d) → exec c s = exec c (ownDone s)) ∧
    (own → s.bus.st = .master → s.bus.stopping = false → ∃ t, exec .cycleStart s = .next t ∧
      t.bus.cycle = (if s.bus.ran then s.bus.cycle + 1 else 0) ∧ t.bus.ran = true ∧ t.bus.st = .master ∧
      t.bus.sent = csfBytes false t.bus.cycle (schedHash t.busSet) ∧ t.bus.hearing = 0 ∧
      t.bus.heard = (if s.bus.cycled then some s.bus.hearing else s.bus.heard) ∧ t.bus.cycled = true ∧
      t = { s with bus := t.bus, sess := t.sess, cnt := t.cnt }) ∧
    (own → s.bus.st = .master → s.bus.stopping = true → ∃ t, exec .cycleStart s = .next t ∧ t.bus.st = .off ∧ t.bus.tun = [] ∧
      t.pe = s.pe ∧ t.prm = s.prm) ∧
    (∀ n off iv, own → s.bus.st = .listen → ∃ t, exec (.cycleStartFrame (csfBytes false n (schedHash (takeBusSet s).busSet)) off iv) s = .next t ∧
      t.bus.st = .locking ∧ t.bus.lock = 1 ∧ t.bus.cycle = n ∧ t.bus.miss = 0 ∧ t.bus.comp = comp (takeBusSet s) ∧
      t = { s with bus := t.bus, sess := t.sess, cnt := t.cnt }) ∧
    (∀ n h off iv, own → s.bus.st = .listen → h ≠ schedHash (takeBusSet s).busSet →
      ∃ t, exec (.cycleStartFrame (csfBytes false n h) off iv) s = .next t ∧ t.bus.st = .hash ∧ t.bus.cycle = n ∧
        t = { s with bus := t.bus, sess := t.sess, cnt := t.cnt }) ∧
    (∀ (off : Int) (iv j : Nat), own → s.bus.st = .sync → s.bus.stopping = false → -40 ≤ off → off ≤ 160 →
      j = ((iv : Int) + s.bus.comp - comp (takeBusSet s)).toNat → intervalOk s.busSet j = true →
      ∃ t, exec (.cycleStartFrame (csfBytes false (s.bus.cycle + 1) (schedHash (takeBusSet s).busSet)) off iv) s = .next t ∧
        t.bus.st = .sync ∧ t.bus.cycle = s.bus.cycle + 1 ∧ t.bus.miss = 0 ∧ t.bus.interval = some j ∧
        t = { s with bus := t.bus, sess := t.sess, cnt := t.cnt }) ∧
    (own → s.bus.st = .sync → s.bus.stopping = false → s.bus.miss + 1 < s.par 0x5006 → ∃ t, exec .csfMiss s = .next t ∧
      t.bus.st = .sync ∧ t.bus.miss = s.bus.miss + 1 ∧ t.bus.cycle = s.bus.cycle + 1 ∧
      t = { s with bus := t.bus, sess := t.sess, cnt := t.cnt }) ∧
    (own → s.bus.st = .sync → s.bus.stopping = false → s.par 0x5006 ≤ s.bus.miss + 1 → ∃ t, exec .csfMiss s = .next t ∧
      t.bus.st = .listen ∧ t.bus.miss = 0 ∧ t.bus.hearing = 0 ∧ t.pe = s.pe ∧ t.prm = s.prm) ∧
    (s.bus.sent ≠ [] → ∃ t, exec .busCollision s = .next t ∧ t.bus.sent = [] ∧ t.bus.own = none ∧
      t = { s with bus := { s.bus with sent := [], own := none, saidCollide := t.bus.saidCollide }, sess := t.sess, cnt := t.cnt }) ∧
    (s.busSync = true ∨ s.bus.st = .locking ∨ s.bus.st = .badid → ∃ t, exec .unexpectedStartBit s = .next t ∧
      t.count 0x78A6 = min 65535 (s.count 0x78A6 + 1) ∧ t = { s with cnt := t.cnt }) ∧
    (s.bus.st = .listen ∨ s.bus.st = .hash → exec .unexpectedStartBit s = .next s) ∧
    (∀ ph, ownBefore s = false → s.busSync = true → ∃ t, exec (.actionInstant ph) s = .next t ∧
      t.bus.ready = s.bus.ready ++ ((s.bus.due.filter fun d => d.2.2 = 0).map fun d => (d.1, d.2.1)) ∧
      t.bus.due = (s.bus.due.filter fun d => d.2.2 != 0).map (fun d => (d.1, d.2.1, d.2.2 - 1)) ∧
      (∀ y, (t.pos.get y).pos = (s.pos.get y).pos) ∧ t = { s with bus := t.bus, pos := t.pos })

/-- Slots and group commands: an owned slot sends the words of the buffer that names it with its age, or an empty tunnel frame; an
accepted frame, and an own one that has been sent, reaches every buffer that names its slot, and a damaged or misplaced one is counted; a group command that is due
moves or stops the axes it names (R530-R533, R539-R541, R546). -/
def Obligations.SlotsAndGroupsAct : Prop :=
  ∀ s : State, s.busLive = true → s.par 0x5000 = 1 →
    let own := s.bus.own = none
    (∀ n age p, s.bus.own = some (n, age, p) → (ownDone s).bus.own = none ∧ (ownDone s).bus.st = s.bus.st ∧
      (ownDone s).pe = s.pe ∧ (ownDone s).prm = s.prm ∧ (ownDone s).loop = s.loop ∧
      ∀ j r, s.bus.rx[j]? = some r → ∃ r', (ownDone s).bus.rx[j]? = some r' ∧ r'.cnt = r.cnt ∧
        (s.busSet (0x5300 + 16 * j) = (n : Int) → r'.words = overWords r.words p ∧ r'.age = age) ∧
        (s.busSet (0x5300 + 16 * j) ≠ (n : Int) → r'.words = r.words ∧ r'.age = r.age)) ∧
    (∀ (n : Fin 64) k b, own → s.busSync = true → slotOwner (schedWord s.busSet n.val) = s.bus.node → slotKind (schedWord s.busSet n.val) = 1 →
      (List.range 4).find? (fun k => s.busSet (0x5200 + 16 * k) == (n.val : Int)) = some k → s.bus.tx[k]? = some b →
      ∃ t, exec (.slotBoundary n) s = .next t ∧ ∃ b', t.bus.tx[k]? = some b' ∧
        b' = (if b.fresh then { b with words := b.back, fresh := false, age := 0 } else { b with age := min 255 (b.age + 1) }) ∧
        t.bus.sent = slotBytes s.bus.node n.val b'.age ((bufBytes b'.words).take (slotLen (schedWord s.busSet n.val))) ∧
        t.bus.own = some (n.val, b'.age, (bufBytes b'.words).take (slotLen (schedWord s.busSet n.val))) ∧
        t.pe = s.pe ∧ t.loop = s.loop ∧ t.prm = s.prm) ∧
    (∀ n : Fin 64, own → s.busSync = true → slotOwner (schedWord s.busSet n.val) ≠ s.bus.node → exec (.slotBoundary n) s = .next s) ∧
    (∀ n : Fin 64, own → s.busSync = true → slotOwner (schedWord s.busSet n.val) = s.bus.node → slotKind (schedWord s.busSet n.val) = 2 →
      (∀ q, servedPeer s = some q → s.tunnel q = none) → exec (.slotBoundary n) s = .next { s with bus := { s.bus with sent := slotBytes s.bus.node n.val 0 ([0x80, 0, 0, 0] ++ List.replicate 28 0) } }) ∧
    (∀ (n : Fin 64) age p off, own → s.busSync = true → slotOwner (schedWord s.busSet n.val) ≠ s.bus.node → slotKind (schedWord s.busSet n.val) = 1 →
      -40 ≤ off → off ≤ 160 → p.length = slotLen (schedWord s.busSet n.val) → p.length < 256 → age < 256 →
      slotOwner (schedWord s.busSet n.val) < 32 →
      ∃ t, exec (.slotFrame (slotBytes (slotOwner (schedWord s.busSet n.val)) n.val age p) n off false) s = .next t ∧
        (∀ j r, s.bus.rx[j]? = some r → s.busSet (0x5300 + 16 * j) = n.val → ∃ r', t.bus.rx[j]? = some r' ∧
          r'.words = overWords r.words p ∧ r'.age = age ∧ r'.cnt = min 65535 (r.cnt + 1)) ∧
        (∀ j r, s.bus.rx[j]? = some r → s.busSet (0x5300 + 16 * j) ≠ n.val → ∃ r', t.bus.rx[j]? = some r' ∧
          r'.words = r.words ∧ r'.age = r.age ∧ r'.cnt = r.cnt) ∧
        t.bus.hearing = s.bus.hearing ||| BitVec.ofNat 32 (2 ^ slotOwner (schedWord s.busSet n.val)) ∧
        t.pe = s.pe ∧ t.loop = s.loop ∧ t.prm = s.prm) ∧
    (∀ (n : Fin 64) bytes off, own → s.busSync = true → slotOwner (schedWord s.busSet n.val) ≠ s.bus.node →
      slotKind (schedWord s.busSet n.val) ≠ 0 → -40 ≤ off → off ≤ 160 → ∃ t, exec (.slotFrame bytes n off true) s = .next t ∧
      t.count 0x78A2 = min 65535 (s.count 0x78A2 + 1) ∧ t = { s with cnt := t.cnt }) ∧
    (∀ g rest x, takeReady 1 s.bus.ready = some (g, rest) → grpAxes g.2 = axBit x → lineGoverns s x = false →
      moveCheck s x (g.2.toNat % 8) = none → ∃ t, exec .groupMove s = .next t ∧
      (t.loop.get x).hand = some (.move (g.2.toNat % 8)) ∧ (t.loop.get x).grpHand = some g.1 ∧
      (s.fram.present = true → framBusy t (.prefetchSeg x) = true) ∧ t.mot = s.mot ∧
      t.bus = { s.bus with ready := rest } ∧ t.loop.get (otherAxis x) = s.loop.get (otherAxis x) ∧ t.pe = s.pe) ∧
    (∀ g rest x, takeReady 1 s.bus.ready = some (g, rest) → grpAxes g.2 = axBit x →
      lineGoverns s x = true ∨ (moveCheck s x (g.2.toNat % 8)).isSome = true → ∃ t, exec .groupMove s = .next t ∧
      t.loop = s.loop ∧ t.mot = s.mot ∧ t.bus = { s.bus with ready := rest } ∧
      t.count 0x78AB = min 65535 (s.count 0x78AB + 1)) ∧
    (∀ g rest x, takeReady 2 s.bus.ready = some (g, rest) → grpAxes g.2 = axBit x → lineGoverns s x = false → s.coupled = false →
      s.moving x = true → (s.loop.get x).hand ≠ some .disarm → ∃ t, exec .groupStop s = .next t ∧
      (t.loop.get x).hand = some .stop ∧ (t.loop.get x).grpHand = some g.1 ∧ t.mot = s.mot ∧
      t.bus = { s.bus with ready := rest } ∧ t.loop.get (otherAxis x) = s.loop.get (otherAxis x) ∧ t.pe = s.pe) ∧
    (takeReady 1 s.bus.ready = none → exec .groupMove s = .next s) ∧ (takeReady 2 s.bus.ready = none → exec .groupStop s = .next s)

/-- Tunnels: an acknowledgement ends the frame in flight; the first LINE of a node opens a session for it, or is refused when none
is free, and a fragment of an open one joins its text; replies of the remote node become the lines of session H that waits for
them, or are counted as late; CLOSE ends the session, is acknowledged where there is none, and REFUSE is `err 63` (R235, R236, R545-R548). -/
def Obligations.TunnelsAct : Prop :=
  ∀ (s : State) (p : Fin 32) (tack : Byte), s.busLive = true → s.bus.st ≠ .off →
    (∀ t0 f, s.tunnel p.val = some t0 → t0.unack = some f → t0.txSeq = tack → f.1 ≠ 4 → t0.opened = true →
      ∃ t, exec (.tunnelNone p tack) s = .next t ∧ t.tunnel p.val = some { t0 with unack := none, at_ := s.etime } ∧
        t = { s with bus := { s.bus with tun := t.bus.tun } }) ∧
    (∀ tseq txt x, s.tunnel p.val = none → freeSession s = some x → s.receives = true →
      ∃ t, exec (.tunnelLine p 0 false tseq tack txt) s = .next t ∧ (t.ses x).isOpen = true ∧ (t.ses x).peer = some p.val ∧
        (t.ses x).level = .user ∧ (∃ u, t.tunnel p.val = some u ∧ u.sess = some x ∧ u.acc = unpad txt ∧ u.rxSeq = tseq ∧ u.due = true) ∧
        OthersKept x s t ∧ t = { s with sess := t.sess, bus := { s.bus with tun := t.bus.tun } }) ∧
    (∀ tseq txt, s.tunnel p.val = none → freeSession s = none → ∃ t, exec (.tunnelLine p 0 false tseq tack txt) s = .next t ∧
      (∃ u, t.tunnel p.val = some u ∧ u.sess = none ∧ u.queue = [(5, 0, true, [])] ∧ u.due = true) ∧
      t = { s with bus := { s.bus with tun := t.bus.tun } }) ∧
    (∀ idx txt t0 x, s.tunnel p.val = some t0 → t0.sess = some x → (s.ses x).isOpen = true → (s.ses x).peer = some p.val →
      t0.unack = none → s.receives = true →
      ∃ t, exec (.tunnelLine p idx false (t0.rxSeq + 1) tack txt) s = .next t ∧ ∃ u, t.tunnel p.val = some u ∧
        u.acc = t0.acc ++ unpad txt ∧ u.rxSeq = t0.rxSeq + 1 ∧ u.due = true ∧ t = { s with bus := { s.bus with tun := t.bus.tun } }) ∧
    (∀ idx txt t0 k body, s.tunnel p.val = some t0 → t0.unack = none → remoteFor p.val s = some k → (s.ses .h).isOpen = true → s.host.restart = none →
      164 ≤ (s.ses .h).free → remoteText t0.want (bytesText (t0.acc ++ unpad txt)) = some body →
      (∃ t, exec (.tunnelData p idx true (t0.rxSeq + 1) tack txt) s = .next t ∧
        lastLine (t.ses .h) = some (frameReply k.line.frame body ++ crlf) ∧ (t.ses .h).running = (s.ses .h).running ∧
        OthersKept .h s t ∧ t.pe = s.pe ∧ t.prm = s.prm) ∧
      ∃ t, exec (.tunnelFinal p idx true (t0.rxSeq + 1) tack txt) s = .next t ∧
        lastLine (t.ses .h) = some (frameReply k.line.frame body ++ crlf) ∧ (t.ses .h).running = none ∧
        OthersKept .h s t ∧ t.pe = s.pe ∧ t.prm = s.prm) ∧
    (∀ idx txt t0, s.tunnel p.val = some t0 → t0.unack = none → remoteFor p.val s = none → s.host.restart = none →
      ∃ t, exec (.tunnelFinal p idx true (t0.rxSeq + 1) tack txt) s = .next t ∧ t.count 0x7856 = min 65535 (s.count 0x7856 + 1) ∧
        t = { s with cnt := t.cnt, bus := { s.bus with tun := t.bus.tun } }) ∧
    (∀ t0 x, s.tunnel p.val = some t0 → t0.sess = some x → t0.unack = none → ∃ t, exec (.tunnelClose p (t0.rxSeq + 1) tack) s = .next t ∧
      (t.ses x).isOpen = false ∧ ((∀ r, (s.ses x).running = some r → r.wait ≠ .turn) → (t.ses x).staging = []) ∧ (∃ u, t.tunnel p.val = some u ∧ u.sess = none) ∧ OthersKept x s t ∧
      t.pe = s.pe ∧ t.prm = s.prm) ∧
    (∀ tseq, s.tunnel p.val = none → ∃ t, exec (.tunnelClose p tseq tack) s = .next t ∧
      (∃ u, t.tunnel p.val = some u ∧ u.rxSeq = tseq ∧ u.due = true ∧ u.sess = none) ∧
      t = { s with bus := { s.bus with tun := t.bus.tun } }) ∧
    (∀ t0 k, s.tunnel p.val = some t0 → t0.unack = none → remoteFor p.val s = some k → (s.ses .h).isOpen = true → s.host.restart = none →
      ∃ t, exec (.tunnelRefuse p (t0.rxSeq + 1) tack) s = .next t ∧ (t.ses .h).running = none ∧
        lastLine (t.ses .h) = some (frameReply k.line.frame (errText 63 none) ++ crlf) ∧
        (∃ u, t.tunnel p.val = some u ∧ u.opened = false) ∧ OthersKept .h s t ∧ t.pe = s.pe ∧ t.prm = s.prm)

/-! ### Commits, FRAM and the log (chapters 04, 06, 20) -/

/-- The phases of a commit: a BUILD whose image is complete goes to STREAM where Peony takes part, and else waits for its record and
names the next tick; a record whose write fails or a window that closes ends the commit with nothing applied, and a record begun stands
with a CRC that fails; the DONE mark ends a commit in force, and one that fails leaves it unsaved; a fold asks for the newest set in the
older base slot (R190, R191, R193, R196, R198, R199, R202). -/
def Obligations.CommitPhasesGoOn : Prop :=
  ∀ s : State,
    (∀ c, s.commit = some c → c.load = false → c.phase = .build → s.host.restart = none → needsSwitch s c.ents = false →
      s.recReady = false ∨ (s.ticking = true ∧ c.applied = none ∧ c.sw = none) →
      exec (.commitBuildComplete ()) s = .next
        { s with commit := some { c with phase := .applyWait, sw := if s.recReady then some (s.tick + 1) else c.sw } }) ∧
    (∀ c, s.commit = some c → c.load = false → c.phase = .build → s.host.restart = none → needsSwitch s c.ents = true →
      ∃ bs, bs ≠ [] ∧ exec (.commitBuildComplete ()) s = .next { s with commit := some { c with phase := .stream, blocks := bs } }) ∧
    (∀ c r, s.commit = some c → c.load = false → c.recOk = false → s.fram.cur = some r → r.op = .record → r.left ≤ 1 → s.fram.queue = [] →
      s.fram.present = true → c.phase = .build ∨ (c.phase = .applyWait ∧ s.ticking = true ∧ s.host.restart = none ∧ c.applied = none ∧ c.sw = none) →
      exec (.framTransactionDone true) s = .next { s with
        commit := some { c with recOk := true, gen := nextGen s, sw := if c.phase = .build then c.sw else some (s.tick + 1) },
        fram := { s.fram with cur := none, journal := s.fram.journal ++ [JRec.make (nextGen s) (recEntries c.ents) true] } }) ∧
    (∀ c r, s.commit = some c → c.load = false → c.recOk = false → s.fram.cur = some r → r.op = .record → s.fram.queue = [] →
      recEntries c.ents ≠ [] → ∃ t, exec (.framTransactionDone false) s = .next t ∧ t.commit = none ∧ t.prm = s.prm ∧ t.pe = s.pe ∧
        t.fram.journal = s.fram.journal ++ [JRec.make (nextGen s) (recEntries c.ents) false] ∧
        framBusy t (.mark 0x00 (nextGen s)) = true ∧ ∀ x, (t.ses x).staging = (s.ses x).staging) ∧
    (∀ c, s.commit = some c → c.load = false → s.host.restart = none → c.window ≤ (s.mtick - c.start).toNat →
      c.phase = .stream ∨ (c.phase = .arm ∧ c.sw = none) → ∃ t, exec .commitWindowClose s = .next t ∧ t.commit = none ∧
        t.prm = s.prm ∧ t.pe = s.pe ∧
        t.fram.journal = s.fram.journal ++ (if recBegun s c then [JRec.make (nextGen s) (recEntries c.ents) false] else []) ∧
        (∀ x, (t.ses x).staging = (s.ses x).staging) ∧ t.count 0x7844 = min 65535 (s.count 0x7844 + 1)) ∧
    (∀ c w, s.commit = some c → c.load = false → s.host.restart = none → c.window ≤ (s.mtick - c.start).toNat →
      c.phase = .arm → c.sw = some w → c.err = 0 →
      exec .commitWindowClose s = .next { s with commit := some { c with err := 31 } }) ∧
    (∀ c r w y q, s.commit = some c → c.applied = some w → c.by_ = .line y → s.fram.cur = some r → r.left ≤ 1 → s.fram.queue = [] →
      r.op = .mark 0x33 c.gen → s.host.restart = none → (s.ses y).isOpen = true → (s.ses y).running = some q → q.wait = .commit →
      (∀ z, z ≠ y → (s.ses z).running.map (·.wait) ≠ some .commit) →
      (s.fram.present = true → ∃ t, exec (.framTransactionDone true) s = .next t ∧ t.commit = none ∧ (t.ses y).staging = [] ∧
        (t.ses y).running = none ∧ lastLine (t.ses y) = some (frameReply q.line.frame (txt "ok commit @" ++ dec w.toNat) ++ crlf) ∧
        t.prm = { s.prm with gen := c.gen } ∧ t.count 0x7843 = min 4294967295 (s.count 0x7843 + 1) ∧ t.pe = s.pe ∧
        t.fram.journal = s.fram.journal.map fun j => if j.state = 0x11 ∧ j.gen = c.gen then { j with state := 0x33 } else j) ∧
      (r.tries = 2 → ∃ t, exec (.framTransactionDone false) s = .next t ∧ t.commit = none ∧ (t.ses y).staging = [] ∧
        (t.ses y).running = none ∧ t.prm = { s.prm with unsaved := true } ∧ t.fram.journal = s.fram.journal ∧ t.pe = s.pe)) ∧
    (foldDue s = true → ∃ t, exec (.journalFold ()) s = .next t ∧ framBusy t (.base .fold (fullSet (loadSet s).1)) = true ∧
      t = { s with cnt := t.cnt, fram := { s.fram with queue := t.fram.queue, cur := t.fram.cur } }) ∧
    (foldDue s = false → exec (.journalFold ()) s = .next s)

/-- The FRAM port, the log queue and the host UART: a request of several transactions is arbitrated again, one that may be tried
again is, that of the log queue at the priority the queue then has, and a finished one has its effect: a base slot stands and the
journal is empty, and a dump gives its lines; a request of low priority ages; entries leave the hold after 2 ms; an assertion
without its record gets a placeholder and its notice; a character leaves TXD unless CTS_N holds it (R103, R104, R106, R116, R161, R163,
R164, R202, R203, R221, R223, R228, R654). -/
def Obligations.FramLogAndUartGoOn : Prop :=
  ∀ s : State,
    (∀ r, s.fram.cur = some r → s.fram.queue = [] → 1 < r.left → s.fram.present = true → r.op ≠ .logEntry →
      ∃ t, exec (.framTransactionDone true) s = .next t ∧
      t = { s with cnt := t.cnt, fram := { s.fram with cur := some { r with left := r.left - 1 } } }) ∧
    (∀ r, s.fram.cur = some r → s.fram.queue = [] → r.op = .logEntry → r.tries < 3 → ∃ t, exec (.framTransactionDone false) s = .next t ∧
      (∃ q, t.fram.cur = some q ∧ q.op = .logEntry ∧ q.tries = r.tries + 1 ∧ q.prio = logPrio s.log.queue ∧ q.at_ = r.at_) ∧
      t = { s with cnt := t.cnt, fram := { s.fram with cur := t.fram.cur } }) ∧
    (∀ r, s.fram.cur = some r → s.fram.queue = [] → framTries r.op = none → ∃ t, exec (.framTransactionDone false) s = .next t ∧
      t = { s with cnt := t.cnt, fram := { s.fram with cur := some { r with tries := r.tries + 1 } } }) ∧
    (∀ r w v, s.fram.cur = some r → s.fram.queue = [] → r.left ≤ 1 → s.fram.present = true → r.op = .intent w v → exec (.framTransactionDone true) s = .next
      { s with fram := { s.fram with cur := none, intent := some (w, v) } }) ∧
    (∀ r u vals, s.fram.cur = some r → s.fram.queue = [] → r.left ≤ 1 → s.fram.present = true → r.op = .base u vals →
      ∃ t, exec (.framTransactionDone true) s = .next t ∧ t.fram.journal = [] ∧
      (t.fram.slot0 = some { gen := nextGen s, vals := vals, crc := slotCrc (nextGen s) vals } ∧ t.fram.slot1 = s.fram.slot1 ∨
        t.fram.slot1 = some { gen := nextGen s, vals := vals, crc := slotCrc (nextGen s) vals } ∧ t.fram.slot0 = s.fram.slot0) ∧
      t.prm = { s.prm with gen := nextGen s, unsaved := s.prm.unsaved && u != .save } ∧ t.pe = s.pe ∧
      ∀ x, (t.ses x).running.map (·.wait) ≠ some (.base u)) ∧
    (∀ r u vals, s.fram.cur = some r → s.fram.queue = [] → r.op = .base u vals → ∃ t, exec (.framTransactionDone false) s = .next t ∧
      (t.fram.slot0 = none ∧ t.fram.slot1 = s.fram.slot1 ∨ t.fram.slot1 = none ∧ t.fram.slot0 = s.fram.slot0) ∧
      t.fram.journal = s.fram.journal ∧ t.prm = s.prm ∧ t.pe = s.pe ∧ ∀ x, (t.ses x).running.map (·.wait) ≠ some (.base u)) ∧
    (∀ r x seq count q, s.fram.cur = some r → s.fram.queue = [] → r.left ≤ 1 → s.fram.present = true → r.op = .logRead x →
      (s.ses x).isOpen = true → (s.ses x).running = some q → q.wait = .dump seq count → (s.ses x).notices = [] →
      holdsReply s x q.line.tick = false →
      let ds := (dumpEntries s seq count).map entryLine
      placed (s.ses x).used (dataLines q.line.frame ds) = ds.length → ∃ t, exec (.framTransactionDone true) s = .next t ∧
        (t.ses x).running = none ∧ OthersKept x s t ∧
        outTexts (t.ses x) = outTexts (s.ses x) ++ dataLines q.line.frame ds ++ [frameReply q.line.frame (txt "ok") ++ crlf] ∧
        t = { s with sess := t.sess, fram := { s.fram with cur := none } }) ∧
    (∀ c, s.fram.cur = some c → 1 < c.left → c.aged = false → 3 ≤ c.prio → 2000 ≤ (s.etime - c.at_).toNat →
      ∃ t, exec .framRequestAged s = .next t ∧ t.fram = { s.fram with cur := some { c with aged := true } } ∧
        t.count 0x7834 = min 65535 (s.count 0x7834 + 1) ∧ t = { s with cnt := t.cnt, fram := t.fram }) ∧
    (∀ r rest, (∀ c, s.fram.cur = some c → c.left ≤ 1 ∨ c.aged = true) → s.fram.queue = r :: rest → r.aged = false → 3 ≤ r.prio →
      2000 ≤ (s.etime - r.at_).toNat →
      ∃ t, exec .framRequestAged s = .next t ∧ t.fram = { s.fram with queue := { r with aged := true } :: rest } ∧
        t.count 0x7834 = min 65535 (s.count 0x7834 + 1) ∧ t = { s with cnt := t.cnt, fram := t.fram }) ∧
    (∀ e, s.log.hold = [e] → s.due e.2 2000 = true → s.host.restart = none → s.log.next ≤ 0xFFFFFFFF → s.log.queue.length < 64 →
      s.fram.present = true → ∃ t, exec .logHoldTimeout s = .next t ∧ t.log.hold = [] ∧
        t.log.queue = s.log.queue ++ [{ e.1 with lseq := s.log.next }] ∧ t.log.next = s.log.next + 1 ∧ t.pe = s.pe ∧ t.sess = s.sess) ∧
    (∀ a rest, s.log.await = a :: rest → a.2.2.1 = none → s.due a.2.1 2000 = true → s.host.restart = none → s.fram.present = true →
      s.log.next + s.log.hold.length ≤ 0xFFFFFFFF → s.log.queue.length + s.log.hold.length < 64 →
      ∃ t, exec .fltPeonyPlaceholder s = .next t ∧
        (∃ e ∈ t.log.queue, e.kind = 0x0F ∧ s.log.next ≤ e.lseq ∧ e.lseq ≤ s.log.next + s.log.hold.length ∧ e.tick = a.1 ∧
          e.etime = a.2.1 ∧ t.log.await = (a.1, a.2.1, some e.lseq, a.2.2.2) :: rest) ∧
        (∀ h ∈ s.log.hold, h ∈ t.log.hold ∨ ∃ q ∈ t.log.queue, q = { h.1 with lseq := q.lseq }) ∧
        (s.log.hold = [] → t.log.hold = []) ∧ t.sess = s.sess ∧ t.pe = s.pe) ∧
    (∀ a rest, s.log.await = a :: rest → a.2.2.2 = false → s.due a.2.1 2000 = true → s.host.restart = none →
      ∃ t, exec .faultRecordWaitExpiry s = .next t ∧ t.log.await = (a.1, a.2.1, a.2.2.1, true) :: rest ∧
        t = { s with sess := t.sess, cnt := t.cnt, log := { s.log with await := t.log.await } }) ∧
    (s.ctsHolds = true → s.host.shifting = false → exec .txdCharacterSent s = .next s) ∧
    (∀ l r, s.ctsHolds = false → s.sess.h.out = l :: r → 1 < l.chars.length → s.sess.h.notices = [] →
      exec .txdCharacterSent s = .next { s with host := { s.host with shifting := false }, sess := { s.sess with h := { s.sess.h with out := { l with chars := l.chars.drop 1 } :: r } } }) ∧
    (∀ l r, s.ctsHolds = false → s.sess.h.out = l :: r → l.chars.length ≤ 1 → s.sess.h.notices = [] → s.host.resetting = false →
      exec .txdCharacterSent s = .next { s with host := { s.host with shifting := false, bit := l.rate.getD s.host.bit }, sess := { s.sess with h := { s.sess.h with out := r } } }) ∧
    (∀ b, ∃ t, exec (.ctsNChange b) s = .next t ∧ t = { s with host := { s.host with cts := b, shifting := t.host.shifting } } ∧
      (b = false → t.host.shifting = false) ∧
      (b = true → s.host.cts = false → t.host.shifting = !s.sess.h.out.isEmpty))

/-! ### OTP pulses (chapter 17) -/

/-- A pulse starts when its intent record stands in FRAM and the temperature window holds, else the intent record is cleared and the
line gets err 53 when FRAM has taken that; it adds only bits that were asked for, marks its word by Table 17-4 and counts; the wired
row burns its three copies; after a pulse FRAM is asked for the state table with the cleared intent record, and the operation ends when
it stands; a parity error of a shadow entry is a SAFE cause (R559, R563, R565, R567, R570, R572, R573). -/
def Obligations.PulsesBurn : Prop :=
  ∀ (s : State) (r : OtpRun),
    (∀ p rest, s.otp.run = some r → r.todo = p :: rest → r.pulse = false → r.saving = none → s.host.restart = none →
      s.fram.intent = some p → s.otpWindow = true →
      exec .otpPulseStart s = .next { s with otp := { s.otp with run := some { r with pulse := true, begun := true } } }) ∧
    (∀ p rest, s.otp.run = some r → r.todo = p :: rest → r.pulse = false → r.saving = none → s.host.restart = none →
      s.fram.intent = some p → s.otpWindow = false → ∃ t, exec .otpPulseStart s = .next t ∧
        t.otp = { s.otp with run := some { r with saving := some (some (errText 53 none)) } } ∧ framBusy t .otpState = true ∧
        t = { s with otp := t.otp, cnt := t.cnt, fram := { s.fram with queue := t.fram.queue, cur := t.fram.cur } }) ∧
    (∀ q tx, s.otp.run = some r → r.saving = some (some tx) → s.fram.cur = some q → q.op = .otpState → q.left ≤ 1 → s.fram.queue = [] →
      s.fram.present = true → s.host.restart = none → ∃ t, exec (.framTransactionDone true) s = .next t ∧
        t.otp = { s.otp with run := none } ∧ t.fram = { s.fram with cur := none, intent := none, otp := some s.otp.marks } ∧
        (∀ x, (t.ses x).running.map (·.wait) ≠ some .otp) ∧ t = { s with otp := t.otp, sess := t.sess, fram := t.fram }) ∧
    (∀ w v rest k reads row, s.otp.run = some r → r.todo = (w, v) :: rest → r.pulse = true → s.host.restart = none → r.job = .burn k →
      ∃ t, exec (.otpPulseEnd reads row) s = .next t ∧ t.otpRaw w = (s.otpRaw w ||| (reads.normal &&& v)) ∧
        (∀ u, u ≠ w → t.otpRaw u = s.otpRaw u ∧ t.otpMark u = s.otpMark u) ∧ t.otp.copies = s.otp.copies ∧
        t.otpMark w = burnMark (s.otpMark w) ((s.otpRaw w ||| (reads.normal &&& v)) == v && reads.normal == v)
          (reads.prog == v && reads.blank == v) ∧ framBusy t .otpState = true ∧
        t.count 0x78C1 = min 65535 (s.count 0x78C1 + 1) ∧ t.pe = s.pe ∧ t.prm = s.prm) ∧
    (∀ w v rest x reads row, s.otp.run = some r → r.todo = (w, v) :: rest → r.pulse = true → s.host.restart = none → r.job = .wired x →
      ∃ t, exec (.otpPulseEnd reads row) s = .next t ∧ t.otp.copies.u = s.otp.copies.u ||| (row.c0 &&& x) ∧
        t.otp.copies.v = s.otp.copies.v ||| (row.c1 &&& x) ∧ t.otp.copies.w = s.otp.copies.w ||| (row.c2 &&& x) ∧ t.otp.array = s.otp.array ∧
        framBusy t .otpState = true ∧
        t.count 0x78C1 = min 65535 (s.count 0x78C1 + 1) ∧ t.pe = s.pe ∧ t.prm = s.prm) ∧
    (∀ reads row, s.otp.run = none → exec (.otpPulseEnd reads row) s = .next s ∧ exec .otpPulseStart s = .next s) ∧
    (∀ bad, bad ≠ [] → s.dev = .run → ∃ t, exec (.shadowParityCheck bad) s = .next t ∧ t.dev = .safe ∧
      t.safe.getLsbD 2 = true ∧ (∀ w ∈ bad, w ∈ t.otp.parity) ∧ t.link.flt = true ∧ (∀ y, t.moving y = true → s.moving y = true) ∧
      t.pe = s.pe ∧ t.prm = s.prm)

/-! ### Resets and boot (chapter 19) -/

/-- The resets and the steps of the boot: a reset of Aster ends every session, commit and fault and keeps ETIME, Peony and what FRAM
and OTP hold; a fall of VIO leaves OFF with the gates off; the release samples the straps and leads to B4 or to training; the core
reset of Peony ends its latches; time-outs are SAFE causes; and B10 leads to RUN without a cause and to SAFE with one
(R618-R623, R626, R628, R631, R632). -/
def Obligations.ResetsAndBootGoOn : Prop :=
  ∀ s : State,
    (s.dev ≠ .off → s.fram.cur = none → s.commit.any (recBegun s) = false → baseBegun s = false → s.otp.run = none → ∃ t, exec .rstPin s = .next t ∧ t.dev = .boot ∧ t.cause = .rstPin ∧
      t.inReset = true ∧ t.ticking = false ∧ t.sess = State.reset.sess ∧ t.commit = none ∧ t.faults = [] ∧ t.prm = State.reset.prm ∧
      t.etime = s.etime ∧ t.pe = s.pe ∧ t.fram = { s.fram with queue := [] } ∧ t.otp.array = s.otp.array ∧
      t.otp.copies = s.otp.copies ∧ t.pending = s.pending) ∧
    (∀ c r, s.dev ≠ .off → s.commit = some c → c.recOk = false → s.fram.cur = some r → r.op = .record → baseBegun s = false →
      s.otp.run = none → ∃ t, exec .rstPin s = .next t ∧ t.dev = .boot ∧
        t.fram = { s.fram with cur := none, queue := [], journal := s.fram.journal ++ [JRec.make (nextGen s) (recEntries c.ents) false] }) ∧
    (s.dev = .run → s.pwr.pmbus = 0 → s.fram.cur = none → s.commit.any (recBegun s) = false → baseBegun s = false → s.otp.run = none → ∃ t, exec .vcoreBrownout s = .next t ∧ t.dev = .boot ∧
      t.cause = .vcoreBo ∧ t.inReset = true ∧ t.sess = State.reset.sess ∧ t.commit = none ∧ t.faults = [] ∧ t.etime = s.etime ∧
      t.pe = s.pe ∧ t.otp.array = s.otp.array) ∧
    (s.dev = .stop ∨ s.dev = .watch → exec .vcoreBrownout s = .next s) ∧
    (s.dev = .off → s.fram.cur = none → s.commit.any (recBegun s) = false → baseBegun s = false → s.otp.run = none → ∃ t, exec .powerOnReset s = .next t ∧ t.dev = .boot ∧ t.cause = .por ∧
      t.inReset = true ∧ t.etime = 0 ∧ t.pe.powered = true ∧ t.pe.configured = false ∧ t.pe.isl.valid = false ∧
      (∀ y, allOff t y) ∧ t.fram = { s.fram with queue := [] } ∧ t.otp.array = s.otp.array) ∧
    (s.dev ≠ .off → s.fram.cur = none → s.commit.any (recBegun s) = false → baseBegun s = false → s.otp.run = none → ∃ t, exec .vioFall s = .next t ∧ t.dev = .off ∧ t.vcEn = false ∧
      t.pe.powered = false ∧ (∀ y, allOff t y) ∧ t.link.flt = false ∧ t.sess = State.reset.sess ∧
      t.fram = { s.fram with queue := [] } ∧ t.otp.array = s.otp.array) ∧
    (∀ mode strap, s.inReset = true → s.dev = .boot → ∃ t, exec (.internalResetRelease mode strap) s = .next t ∧ t.inReset = false ∧
      t.dev = .boot ∧ t.mode = mode ∧ t.strap = strap ∧ t.bootAt = s.etime ∧ t.host.deaf = false ∧
      t.boot = (if mode then .train else .pmbus) ∧ (mode = false → t.pwr.pmbus = 1) ∧ (mode = false ∨ s.pe.powered = true → t.pe = s.pe)) ∧
    (s.link.held = true → s.pe.powered = true → (∀ y, (s.pe.ax.get y).latch = .rest) → ∃ t, exec .peonyCoreReset s = .next t ∧
      t.pe.configured = false ∧ t.pe.active = [] ∧ t.pe.faults = [] ∧ t.pe.tick = 0 ∧ t.pe.isl = { s.pe.isl with valid := false } ∧
      (∀ y, (t.pe.ax.get y).latch = .free ∧ allOff t y) ∧ t = { s with pe := t.pe }) ∧
    (s.boot = .train → s.pwr.xtal = true → s.count 0x7827 = 0 → ∃ t, exec .xtalStartTimeout s = .next t ∧ t.pwr.xtal = false ∧
      t.boot = .train ∧ t.pe = s.pe ∧ t.prm = s.prm ∧ t.safe = s.safe) ∧
    (∀ c, s.commit = some c → c.load = true → 200 ≤ (s.mtick - c.start).toNat → s.dev = .boot →
      ∃ t, exec .peonyLoadTimeout s = .next t ∧ t.commit = none ∧ t.boot = .analog ∧ t.safe.getLsbD 4 = true ∧ t.dev = .boot ∧
        t.pe = s.pe ∧ t.prm = s.prm) ∧
    (s.dev = .boot → s.boot = .analog → ∃ t, exec .bootComplete s = .next t ∧ t.boot = .done ∧
      t.dev = (if s.safe = 0 then .run else .safe) ∧ t.safe = s.safe ∧ t.pe = s.pe ∧ t.prm = s.prm)

/-- Reset leaves the device in BOOT and in reset, FLT_N low and VC_EN high, session H open at USER in typed mode with its echo and the
tunnel sessions closed, both axes DISARMED with OFF, no fault, no commit, an empty set and an empty queue; every gate is off and the
chopper has its fixed thresholds (R20, R268, R618, R622, R627). The positions read 0 and are not valid; that they read 0 is the
model's (log 5). -/
def Obligations.ResetLeaves : Prop :=
  State.reset.dev = .boot ∧ State.reset.inReset = true ∧ State.reset.ticking = false ∧ State.reset.etime = 0 ∧
  State.reset.cause = .por ∧ State.reset.safe = 0 ∧ State.reset.fltN = true ∧ State.reset.vcEn = true ∧
  (State.reset.ses .h).isOpen = true ∧ (State.reset.ses .h).machine = false ∧ (State.reset.ses .h).echo = true ∧
  (State.reset.ses .h).auto = true ∧ (∀ x, (State.reset.ses x).level = .user) ∧ (∀ x, x ≠ .h → (State.reset.ses x).isOpen = false) ∧
  State.reset.faults = [] ∧ State.reset.commit = none ∧ State.reset.prm.now = [] ∧ State.reset.pending = [] ∧
  (∀ y, (State.reset.loop.get y).st = .disarmed ∧ (State.reset.loop.get y).word = GateWord.off ∧ allOff State.reset y ∧
    (State.reset.pos.get y).pos = 0 ∧ (State.reset.pos.get y).valid = false) ∧
  State.reset.pe.isl.brkOn = 3300 ∧ State.reset.pe.isl.brkOff = 3150 ∧ State.reset.pe.wrow = none

/-! ### Invariants -/

/-- The reset state meets the invariant: the addressed memories of Peony are in canonical form, and no half-bridge has both of its
switches on (R253). -/
def Obligations.ResetMeetsInvariant : Prop :=
  memoriesWf State.reset.pe = true ∧ gatesSafe State.reset.pe = true

/-- Every step keeps the invariant: from any state in which the memories of Peony are in canonical form and no half-bridge has both
of its switches on, whatever command is at the front, the next state is such a state (R253). -/
def Obligations.EveryStepKeepsGatesSafe : Prop :=
  ∀ s t : State, memoriesWf s.pe = true → gatesSafe s.pe = true → step s = .next t → memoriesWf t.pe = true ∧ gatesSafe t.pe = true

/-- Every step keeps every burned bit of OTP: no command, reset or interrupted pulse clears a bit of the array or of a copy of the
wired row (R559, R565). -/
def Obligations.EveryStepKeepsBurnedBits : Prop :=
  ∀ s t : State, step s = .next t → burnedKept s.otp t.otp
end

