-- ==== Sys2Proof/Laws/Fram.lean ====
section
/-! SUPPORT. What the FRAM port and the log path can do: a request that is placed is at the port, and neither a request nor a log entry
changes anything but the port, the log and counters. -/

namespace Sys2Proof.Machine

theorem peak_only (id n : Nat) (s : State) : peak id n s = { s with cnt := (peak id n s).cnt } := by
  unfold peak; split <;> rfl

theorem bumpBy_only (id n : Nat) (s : State) : bumpBy id n s = { s with cnt := (bumpBy id n s).cnt } := rfl

/-- The port changes nothing but itself and the peak of R106. -/
theorem framPick_only (s : State) : framPick s = { s with cnt := (framPick s).cnt, fram := (framPick s).fram } := by
  unfold framPick
  split
  · rfl
  · split
    · rfl
    · split
      · rw [peak_only]; rfl
      · rfl

/-- A request changes nothing but the port. -/
theorem framAsk_only (p : Nat) (op : FramOp) (n : Nat) (s : State) :
    framAsk p op n s = { s with cnt := (framAsk p op n s).cnt, fram := (framAsk p op n s).fram } := by
  unfold framAsk; rw [framPick_only]; rfl

/-- The queue's request changes nothing but the port and, without FRAM, the queue. -/
theorem syncLogReq_only (s : State) :
    syncLogReq s = { s with cnt := (syncLogReq s).cnt, fram := (syncLogReq s).fram, log := (syncLogReq s).log } := by
  unfold syncLogReq
  split
  · rfl
  · split
    · rfl
    · dsimp only
      split
      · rfl
      · rw [framAsk_only]

/-- The request that goes next is one of the queue, and the others stay. -/
theorem framBest_mem : ∀ {q : List FramReq} {r : FramReq} {rest : List FramReq}, framBest q = some (r, rest) →
    ∀ x, x ∈ q ↔ x = r ∨ x ∈ rest
  | [], _, _, h => by simp [framBest] at h
  | a :: as, r, rest, h => by
    intro x
    unfold framBest at h
    split at h
    · rename_i hn
      have : as = [] := by
        cases as with
        | nil => rfl
        | cons b bs =>
          unfold framBest at hn
          split at hn <;> first | cases hn | (split at hn <;> cases hn)
      cases h; simp [this]
    · rename_i b others hb
      have ih := framBest_mem hb x
      split at h <;> cases h <;> simp only [List.mem_cons, ih]
      exact or_left_comm

/-- A request that is placed waits at the port or is in progress. -/
theorem framAsk_busy (p : Nat) (op : FramOp) (n : Nat) (s : State) : framBusy (framAsk p op n s) op = true := by
  unfold framAsk framPick
  split
  · simp [framBusy, State.modFram]
  · split
    · rename_i h
      simp only [State.modFram] at h
      exact absurd h (by
        generalize s.fram.queue = q
        cases q with
        | nil => simp [framBest]
        | cons a as =>
          rw [List.cons_append]; unfold framBest
          split
          · simp
          · split <;> simp)
    · rename_i r rest hb
      have hm := (framBest_mem hb _).1 (by simp only [State.modFram]; exact List.mem_append_right _ (List.mem_singleton.2 rfl))
      have key : framBusy ((s.modFram fun f => { f with cur := some r, queue := rest })) op = true := by
        simp only [framBusy, State.modFram, Bool.or_eq_true, List.any_eq_true]
        rcases hm with rfl | hm
        · right; simp
        · left; exact ⟨_, hm, by simp⟩
      split
      · rw [peak_only]; exact key
      · exact key

theorem bumpKind_only (k : Nat) (axes : BitVec 2) (s : State) : bumpKind k axes s = { s with cnt := (bumpKind k axes s).cnt } := by
  unfold bumpKind
  split
  · simp only [when_]; split <;> split <;> rfl
  · rfl

/-- An entry that joins the queue changes the log, the port and counters. -/
theorem logEnter_only (e : LogEntry) (s : State) :
    logEnter e s = { s with cnt := (logEnter e s).cnt, fram := (logEnter e s).fram, log := (logEnter e s).log } := by
  unfold logEnter
  split
  · rfl
  · dsimp only
    split
    · rw [syncLogReq_only, peak_only]; rfl
    · split
      · rfl
      · split
        · rw [syncLogReq_only, peak_only]; rfl
        · split
          · rfl
          · split
            · rfl
            · rw [bumpBy_only, bumpKind_only]; rfl

theorem logEnters_only (l : List (LogEntry × W48)) : ∀ s : State, forAll l (fun e s => logEnter e.1 s) s =
    { s with cnt := (forAll l (fun e s => logEnter e.1 s) s).cnt, fram := (forAll l (fun e s => logEnter e.1 s) s).fram,
             log := (forAll l (fun e s => logEnter e.1 s) s).log } := by
  induction l with
  | nil => intro s; rfl
  | cons a r ih =>
    intro s
    have h : forAll (a :: r) (fun e s => logEnter e.1 s) s = forAll r (fun e s => logEnter e.1 s) (logEnter a.1 s) := rfl
    rw [h, ih, logEnter_only]

/-- The release of the hold changes the log, the port and counters. -/
theorem releaseHold_only (s : State) :
    releaseHold s = { s with cnt := (releaseHold s).cnt, fram := (releaseHold s).fram, log := (releaseHold s).log } := by
  unfold releaseHold; dsimp only; rw [logEnters_only]; rfl

/-- Entries forced out of the hold change the log, the port and counters. -/
theorem forceOut_only (n : Nat) (s : State) :
    forceOut n s = { s with cnt := (forceOut n s).cnt, fram := (forceOut n s).fram, log := (forceOut n s).log } := by
  unfold forceOut; dsimp only; rw [logEnters_only]; rfl

/-- An entry that Aster produces changes the log, the port and counters. -/
theorem logStamped_only (t : W32) (at_ : W48) (k : Nat) (axes : BitVec 2) (a b : Nat) (s : State) :
    logStamped t at_ k axes a b s = { s with cnt := (logStamped t at_ k axes a b s).cnt, fram := (logStamped t at_ k axes a b s).fram,
                                             log := (logStamped t at_ k axes a b s).log } := by
  unfold logStamped; dsimp only; rw [releaseHold_only, bumpKind_only]; rfl

theorem logAster_only (k : Nat) (axes : BitVec 2) (a b : Nat) (s : State) :
    logAster k axes a b s = { s with cnt := (logAster k axes a b s).cnt, fram := (logAster k axes a b s).fram,
                                     log := (logAster k axes a b s).log } := logStamped_only _ _ _ _ _ _ _

end Sys2Proof.Machine
end

