-- ==== Sys2Proof/Laws/State.lean ====
section
/-! SUPPORT. What each named update of the state does to each field: one lemma per field per update. -/

namespace Sys2Proof.Machine

/-! ### modHost -/

@[simp] theorem State.modHost_dev (s : State) (f : HostCore → HostCore) : (s.modHost f).dev = s.dev := rfl
@[simp] theorem State.modHost_cause (s : State) (f : HostCore → HostCore) : (s.modHost f).cause = s.cause := rfl
@[simp] theorem State.modHost_safe (s : State) (f : HostCore → HostCore) : (s.modHost f).safe = s.safe := rfl
@[simp] theorem State.modHost_boot (s : State) (f : HostCore → HostCore) : (s.modHost f).boot = s.boot := rfl
@[simp] theorem State.modHost_resetAt (s : State) (f : HostCore → HostCore) : (s.modHost f).resetAt = s.resetAt := rfl
@[simp] theorem State.modHost_bootAt (s : State) (f : HostCore → HostCore) : (s.modHost f).bootAt = s.bootAt := rfl
@[simp] theorem State.modHost_bootTime (s : State) (f : HostCore → HostCore) : (s.modHost f).bootTime = s.bootTime := rfl
@[simp] theorem State.modHost_mode (s : State) (f : HostCore → HostCore) : (s.modHost f).mode = s.mode := rfl
@[simp] theorem State.modHost_strap (s : State) (f : HostCore → HostCore) : (s.modHost f).strap = s.strap := rfl
@[simp] theorem State.modHost_inReset (s : State) (f : HostCore → HostCore) : (s.modHost f).inReset = s.inReset := rfl
@[simp] theorem State.modHost_ticking (s : State) (f : HostCore → HostCore) : (s.modHost f).ticking = s.ticking := rfl
@[simp] theorem State.modHost_first (s : State) (f : HostCore → HostCore) : (s.modHost f).first = s.first := rfl
@[simp] theorem State.modHost_tick (s : State) (f : HostCore → HostCore) : (s.modHost f).tick = s.tick := rfl
@[simp] theorem State.modHost_mtick (s : State) (f : HostCore → HostCore) : (s.modHost f).mtick = s.mtick := rfl
@[simp] theorem State.modHost_acc (s : State) (f : HostCore → HostCore) : (s.modHost f).acc = s.acc := rfl
@[simp] theorem State.modHost_msDue (s : State) (f : HostCore → HostCore) : (s.modHost f).msDue = s.msDue := rfl
@[simp] theorem State.modHost_ringDue (s : State) (f : HostCore → HostCore) : (s.modHost f).ringDue = s.ringDue := rfl
@[simp] theorem State.modHost_etime (s : State) (f : HostCore → HostCore) : (s.modHost f).etime = s.etime := rfl
@[simp] theorem State.modHost_etFrac (s : State) (f : HostCore → HostCore) : (s.modHost f).etFrac = s.etFrac := rfl
@[simp] theorem State.modHost_bounds (s : State) (f : HostCore → HostCore) : (s.modHost f).bounds = s.bounds := rfl
@[simp] theorem State.modHost_eclk (s : State) (f : HostCore → HostCore) : (s.modHost f).eclk = s.eclk := rfl
@[simp] theorem State.modHost_sess (s : State) (f : HostCore → HostCore) : (s.modHost f).sess = s.sess := rfl
@[simp] theorem State.modHost_host (s : State) (f : HostCore → HostCore) : (s.modHost f).host = f s.host := rfl
@[simp] theorem State.modHost_prm (s : State) (f : HostCore → HostCore) : (s.modHost f).prm = s.prm := rfl
@[simp] theorem State.modHost_commit (s : State) (f : HostCore → HostCore) : (s.modHost f).commit = s.commit := rfl
@[simp] theorem State.modHost_link (s : State) (f : HostCore → HostCore) : (s.modHost f).link = s.link := rfl
@[simp] theorem State.modHost_pe (s : State) (f : HostCore → HostCore) : (s.modHost f).pe = s.pe := rfl
@[simp] theorem State.modHost_loop (s : State) (f : HostCore → HostCore) : (s.modHost f).loop = s.loop := rfl
@[simp] theorem State.modHost_pos (s : State) (f : HostCore → HostCore) : (s.modHost f).pos = s.pos := rfl
@[simp] theorem State.modHost_mot (s : State) (f : HostCore → HostCore) : (s.modHost f).mot = s.mot := rfl
@[simp] theorem State.modHost_sc (s : State) (f : HostCore → HostCore) : (s.modHost f).sc = s.sc := rfl
@[simp] theorem State.modHost_temp (s : State) (f : HostCore → HostCore) : (s.modHost f).temp = s.temp := rfl
@[simp] theorem State.modHost_chg (s : State) (f : HostCore → HostCore) : (s.modHost f).chg = s.chg := rfl
@[simp] theorem State.modHost_fram (s : State) (f : HostCore → HostCore) : (s.modHost f).fram = s.fram := rfl
@[simp] theorem State.modHost_log (s : State) (f : HostCore → HostCore) : (s.modHost f).log = s.log := rfl
@[simp] theorem State.modHost_otp (s : State) (f : HostCore → HostCore) : (s.modHost f).otp = s.otp := rfl
@[simp] theorem State.modHost_bus (s : State) (f : HostCore → HostCore) : (s.modHost f).bus = s.bus := rfl
@[simp] theorem State.modHost_pwr (s : State) (f : HostCore → HostCore) : (s.modHost f).pwr = s.pwr := rfl
@[simp] theorem State.modHost_faults (s : State) (f : HostCore → HostCore) : (s.modHost f).faults = s.faults := rfl
@[simp] theorem State.modHost_cnt (s : State) (f : HostCore → HostCore) : (s.modHost f).cnt = s.cnt := rfl
@[simp] theorem State.modHost_bundleWhy (s : State) (f : HostCore → HostCore) : (s.modHost f).bundleWhy = s.bundleWhy := rfl
@[simp] theorem State.modHost_bundleTick (s : State) (f : HostCore → HostCore) : (s.modHost f).bundleTick = s.bundleTick := rfl
@[simp] theorem State.modHost_tries (s : State) (f : HostCore → HostCore) : (s.modHost f).tries = s.tries := rfl
@[simp] theorem State.modHost_lockAt (s : State) (f : HostCore → HostCore) : (s.modHost f).lockAt = s.lockAt := rfl
@[simp] theorem State.modHost_fltN (s : State) (f : HostCore → HostCore) : (s.modHost f).fltN = s.fltN := rfl
@[simp] theorem State.modHost_vcEn (s : State) (f : HostCore → HostCore) : (s.modHost f).vcEn = s.vcEn := rfl
@[simp] theorem State.modHost_free (s : State) (f : HostCore → HostCore) : (s.modHost f).free = s.free := rfl
@[simp] theorem State.modHost_pending (s : State) (f : HostCore → HostCore) : (s.modHost f).pending = s.pending := rfl

/-! ### modLink -/

@[simp] theorem State.modLink_dev (s : State) (f : ALink → ALink) : (s.modLink f).dev = s.dev := rfl
@[simp] theorem State.modLink_cause (s : State) (f : ALink → ALink) : (s.modLink f).cause = s.cause := rfl
@[simp] theorem State.modLink_safe (s : State) (f : ALink → ALink) : (s.modLink f).safe = s.safe := rfl
@[simp] theorem State.modLink_boot (s : State) (f : ALink → ALink) : (s.modLink f).boot = s.boot := rfl
@[simp] theorem State.modLink_resetAt (s : State) (f : ALink → ALink) : (s.modLink f).resetAt = s.resetAt := rfl
@[simp] theorem State.modLink_bootAt (s : State) (f : ALink → ALink) : (s.modLink f).bootAt = s.bootAt := rfl
@[simp] theorem State.modLink_bootTime (s : State) (f : ALink → ALink) : (s.modLink f).bootTime = s.bootTime := rfl
@[simp] theorem State.modLink_mode (s : State) (f : ALink → ALink) : (s.modLink f).mode = s.mode := rfl
@[simp] theorem State.modLink_strap (s : State) (f : ALink → ALink) : (s.modLink f).strap = s.strap := rfl
@[simp] theorem State.modLink_inReset (s : State) (f : ALink → ALink) : (s.modLink f).inReset = s.inReset := rfl
@[simp] theorem State.modLink_ticking (s : State) (f : ALink → ALink) : (s.modLink f).ticking = s.ticking := rfl
@[simp] theorem State.modLink_first (s : State) (f : ALink → ALink) : (s.modLink f).first = s.first := rfl
@[simp] theorem State.modLink_tick (s : State) (f : ALink → ALink) : (s.modLink f).tick = s.tick := rfl
@[simp] theorem State.modLink_mtick (s : State) (f : ALink → ALink) : (s.modLink f).mtick = s.mtick := rfl
@[simp] theorem State.modLink_acc (s : State) (f : ALink → ALink) : (s.modLink f).acc = s.acc := rfl
@[simp] theorem State.modLink_msDue (s : State) (f : ALink → ALink) : (s.modLink f).msDue = s.msDue := rfl
@[simp] theorem State.modLink_ringDue (s : State) (f : ALink → ALink) : (s.modLink f).ringDue = s.ringDue := rfl
@[simp] theorem State.modLink_etime (s : State) (f : ALink → ALink) : (s.modLink f).etime = s.etime := rfl
@[simp] theorem State.modLink_etFrac (s : State) (f : ALink → ALink) : (s.modLink f).etFrac = s.etFrac := rfl
@[simp] theorem State.modLink_bounds (s : State) (f : ALink → ALink) : (s.modLink f).bounds = s.bounds := rfl
@[simp] theorem State.modLink_eclk (s : State) (f : ALink → ALink) : (s.modLink f).eclk = s.eclk := rfl
@[simp] theorem State.modLink_sess (s : State) (f : ALink → ALink) : (s.modLink f).sess = s.sess := rfl
@[simp] theorem State.modLink_host (s : State) (f : ALink → ALink) : (s.modLink f).host = s.host := rfl
@[simp] theorem State.modLink_prm (s : State) (f : ALink → ALink) : (s.modLink f).prm = s.prm := rfl
@[simp] theorem State.modLink_commit (s : State) (f : ALink → ALink) : (s.modLink f).commit = s.commit := rfl
@[simp] theorem State.modLink_link (s : State) (f : ALink → ALink) : (s.modLink f).link = f s.link := rfl
@[simp] theorem State.modLink_pe (s : State) (f : ALink → ALink) : (s.modLink f).pe = s.pe := rfl
@[simp] theorem State.modLink_loop (s : State) (f : ALink → ALink) : (s.modLink f).loop = s.loop := rfl
@[simp] theorem State.modLink_pos (s : State) (f : ALink → ALink) : (s.modLink f).pos = s.pos := rfl
@[simp] theorem State.modLink_mot (s : State) (f : ALink → ALink) : (s.modLink f).mot = s.mot := rfl
@[simp] theorem State.modLink_sc (s : State) (f : ALink → ALink) : (s.modLink f).sc = s.sc := rfl
@[simp] theorem State.modLink_temp (s : State) (f : ALink → ALink) : (s.modLink f).temp = s.temp := rfl
@[simp] theorem State.modLink_chg (s : State) (f : ALink → ALink) : (s.modLink f).chg = s.chg := rfl
@[simp] theorem State.modLink_fram (s : State) (f : ALink → ALink) : (s.modLink f).fram = s.fram := rfl
@[simp] theorem State.modLink_log (s : State) (f : ALink → ALink) : (s.modLink f).log = s.log := rfl
@[simp] theorem State.modLink_otp (s : State) (f : ALink → ALink) : (s.modLink f).otp = s.otp := rfl
@[simp] theorem State.modLink_bus (s : State) (f : ALink → ALink) : (s.modLink f).bus = s.bus := rfl
@[simp] theorem State.modLink_pwr (s : State) (f : ALink → ALink) : (s.modLink f).pwr = s.pwr := rfl
@[simp] theorem State.modLink_faults (s : State) (f : ALink → ALink) : (s.modLink f).faults = s.faults := rfl
@[simp] theorem State.modLink_cnt (s : State) (f : ALink → ALink) : (s.modLink f).cnt = s.cnt := rfl
@[simp] theorem State.modLink_bundleWhy (s : State) (f : ALink → ALink) : (s.modLink f).bundleWhy = s.bundleWhy := rfl
@[simp] theorem State.modLink_bundleTick (s : State) (f : ALink → ALink) : (s.modLink f).bundleTick = s.bundleTick := rfl
@[simp] theorem State.modLink_tries (s : State) (f : ALink → ALink) : (s.modLink f).tries = s.tries := rfl
@[simp] theorem State.modLink_lockAt (s : State) (f : ALink → ALink) : (s.modLink f).lockAt = s.lockAt := rfl
@[simp] theorem State.modLink_fltN (s : State) (f : ALink → ALink) : (s.modLink f).fltN = s.fltN := rfl
@[simp] theorem State.modLink_vcEn (s : State) (f : ALink → ALink) : (s.modLink f).vcEn = s.vcEn := rfl
@[simp] theorem State.modLink_free (s : State) (f : ALink → ALink) : (s.modLink f).free = s.free := rfl
@[simp] theorem State.modLink_pending (s : State) (f : ALink → ALink) : (s.modLink f).pending = s.pending := rfl

/-! ### modPe -/

@[simp] theorem State.modPe_dev (s : State) (f : Peony → Peony) : (s.modPe f).dev = s.dev := rfl
@[simp] theorem State.modPe_cause (s : State) (f : Peony → Peony) : (s.modPe f).cause = s.cause := rfl
@[simp] theorem State.modPe_safe (s : State) (f : Peony → Peony) : (s.modPe f).safe = s.safe := rfl
@[simp] theorem State.modPe_boot (s : State) (f : Peony → Peony) : (s.modPe f).boot = s.boot := rfl
@[simp] theorem State.modPe_resetAt (s : State) (f : Peony → Peony) : (s.modPe f).resetAt = s.resetAt := rfl
@[simp] theorem State.modPe_bootAt (s : State) (f : Peony → Peony) : (s.modPe f).bootAt = s.bootAt := rfl
@[simp] theorem State.modPe_bootTime (s : State) (f : Peony → Peony) : (s.modPe f).bootTime = s.bootTime := rfl
@[simp] theorem State.modPe_mode (s : State) (f : Peony → Peony) : (s.modPe f).mode = s.mode := rfl
@[simp] theorem State.modPe_strap (s : State) (f : Peony → Peony) : (s.modPe f).strap = s.strap := rfl
@[simp] theorem State.modPe_inReset (s : State) (f : Peony → Peony) : (s.modPe f).inReset = s.inReset := rfl
@[simp] theorem State.modPe_ticking (s : State) (f : Peony → Peony) : (s.modPe f).ticking = s.ticking := rfl
@[simp] theorem State.modPe_first (s : State) (f : Peony → Peony) : (s.modPe f).first = s.first := rfl
@[simp] theorem State.modPe_tick (s : State) (f : Peony → Peony) : (s.modPe f).tick = s.tick := rfl
@[simp] theorem State.modPe_mtick (s : State) (f : Peony → Peony) : (s.modPe f).mtick = s.mtick := rfl
@[simp] theorem State.modPe_acc (s : State) (f : Peony → Peony) : (s.modPe f).acc = s.acc := rfl
@[simp] theorem State.modPe_msDue (s : State) (f : Peony → Peony) : (s.modPe f).msDue = s.msDue := rfl
@[simp] theorem State.modPe_ringDue (s : State) (f : Peony → Peony) : (s.modPe f).ringDue = s.ringDue := rfl
@[simp] theorem State.modPe_etime (s : State) (f : Peony → Peony) : (s.modPe f).etime = s.etime := rfl
@[simp] theorem State.modPe_etFrac (s : State) (f : Peony → Peony) : (s.modPe f).etFrac = s.etFrac := rfl
@[simp] theorem State.modPe_bounds (s : State) (f : Peony → Peony) : (s.modPe f).bounds = s.bounds := rfl
@[simp] theorem State.modPe_eclk (s : State) (f : Peony → Peony) : (s.modPe f).eclk = s.eclk := rfl
@[simp] theorem State.modPe_sess (s : State) (f : Peony → Peony) : (s.modPe f).sess = s.sess := rfl
@[simp] theorem State.modPe_host (s : State) (f : Peony → Peony) : (s.modPe f).host = s.host := rfl
@[simp] theorem State.modPe_prm (s : State) (f : Peony → Peony) : (s.modPe f).prm = s.prm := rfl
@[simp] theorem State.modPe_commit (s : State) (f : Peony → Peony) : (s.modPe f).commit = s.commit := rfl
@[simp] theorem State.modPe_link (s : State) (f : Peony → Peony) : (s.modPe f).link = s.link := rfl
@[simp] theorem State.modPe_pe (s : State) (f : Peony → Peony) : (s.modPe f).pe = f s.pe := rfl
@[simp] theorem State.modPe_loop (s : State) (f : Peony → Peony) : (s.modPe f).loop = s.loop := rfl
@[simp] theorem State.modPe_pos (s : State) (f : Peony → Peony) : (s.modPe f).pos = s.pos := rfl
@[simp] theorem State.modPe_mot (s : State) (f : Peony → Peony) : (s.modPe f).mot = s.mot := rfl
@[simp] theorem State.modPe_sc (s : State) (f : Peony → Peony) : (s.modPe f).sc = s.sc := rfl
@[simp] theorem State.modPe_temp (s : State) (f : Peony → Peony) : (s.modPe f).temp = s.temp := rfl
@[simp] theorem State.modPe_chg (s : State) (f : Peony → Peony) : (s.modPe f).chg = s.chg := rfl
@[simp] theorem State.modPe_fram (s : State) (f : Peony → Peony) : (s.modPe f).fram = s.fram := rfl
@[simp] theorem State.modPe_log (s : State) (f : Peony → Peony) : (s.modPe f).log = s.log := rfl
@[simp] theorem State.modPe_otp (s : State) (f : Peony → Peony) : (s.modPe f).otp = s.otp := rfl
@[simp] theorem State.modPe_bus (s : State) (f : Peony → Peony) : (s.modPe f).bus = s.bus := rfl
@[simp] theorem State.modPe_pwr (s : State) (f : Peony → Peony) : (s.modPe f).pwr = s.pwr := rfl
@[simp] theorem State.modPe_faults (s : State) (f : Peony → Peony) : (s.modPe f).faults = s.faults := rfl
@[simp] theorem State.modPe_cnt (s : State) (f : Peony → Peony) : (s.modPe f).cnt = s.cnt := rfl
@[simp] theorem State.modPe_bundleWhy (s : State) (f : Peony → Peony) : (s.modPe f).bundleWhy = s.bundleWhy := rfl
@[simp] theorem State.modPe_bundleTick (s : State) (f : Peony → Peony) : (s.modPe f).bundleTick = s.bundleTick := rfl
@[simp] theorem State.modPe_tries (s : State) (f : Peony → Peony) : (s.modPe f).tries = s.tries := rfl
@[simp] theorem State.modPe_lockAt (s : State) (f : Peony → Peony) : (s.modPe f).lockAt = s.lockAt := rfl
@[simp] theorem State.modPe_fltN (s : State) (f : Peony → Peony) : (s.modPe f).fltN = s.fltN := rfl
@[simp] theorem State.modPe_vcEn (s : State) (f : Peony → Peony) : (s.modPe f).vcEn = s.vcEn := rfl
@[simp] theorem State.modPe_free (s : State) (f : Peony → Peony) : (s.modPe f).free = s.free := rfl
@[simp] theorem State.modPe_pending (s : State) (f : Peony → Peony) : (s.modPe f).pending = s.pending := rfl

/-! ### modFram -/

@[simp] theorem State.modFram_dev (s : State) (f : Fram → Fram) : (s.modFram f).dev = s.dev := rfl
@[simp] theorem State.modFram_cause (s : State) (f : Fram → Fram) : (s.modFram f).cause = s.cause := rfl
@[simp] theorem State.modFram_safe (s : State) (f : Fram → Fram) : (s.modFram f).safe = s.safe := rfl
@[simp] theorem State.modFram_boot (s : State) (f : Fram → Fram) : (s.modFram f).boot = s.boot := rfl
@[simp] theorem State.modFram_resetAt (s : State) (f : Fram → Fram) : (s.modFram f).resetAt = s.resetAt := rfl
@[simp] theorem State.modFram_bootAt (s : State) (f : Fram → Fram) : (s.modFram f).bootAt = s.bootAt := rfl
@[simp] theorem State.modFram_bootTime (s : State) (f : Fram → Fram) : (s.modFram f).bootTime = s.bootTime := rfl
@[simp] theorem State.modFram_mode (s : State) (f : Fram → Fram) : (s.modFram f).mode = s.mode := rfl
@[simp] theorem State.modFram_strap (s : State) (f : Fram → Fram) : (s.modFram f).strap = s.strap := rfl
@[simp] theorem State.modFram_inReset (s : State) (f : Fram → Fram) : (s.modFram f).inReset = s.inReset := rfl
@[simp] theorem State.modFram_ticking (s : State) (f : Fram → Fram) : (s.modFram f).ticking = s.ticking := rfl
@[simp] theorem State.modFram_first (s : State) (f : Fram → Fram) : (s.modFram f).first = s.first := rfl
@[simp] theorem State.modFram_tick (s : State) (f : Fram → Fram) : (s.modFram f).tick = s.tick := rfl
@[simp] theorem State.modFram_mtick (s : State) (f : Fram → Fram) : (s.modFram f).mtick = s.mtick := rfl
@[simp] theorem State.modFram_acc (s : State) (f : Fram → Fram) : (s.modFram f).acc = s.acc := rfl
@[simp] theorem State.modFram_msDue (s : State) (f : Fram → Fram) : (s.modFram f).msDue = s.msDue := rfl
@[simp] theorem State.modFram_ringDue (s : State) (f : Fram → Fram) : (s.modFram f).ringDue = s.ringDue := rfl
@[simp] theorem State.modFram_etime (s : State) (f : Fram → Fram) : (s.modFram f).etime = s.etime := rfl
@[simp] theorem State.modFram_etFrac (s : State) (f : Fram → Fram) : (s.modFram f).etFrac = s.etFrac := rfl
@[simp] theorem State.modFram_bounds (s : State) (f : Fram → Fram) : (s.modFram f).bounds = s.bounds := rfl
@[simp] theorem State.modFram_eclk (s : State) (f : Fram → Fram) : (s.modFram f).eclk = s.eclk := rfl
@[simp] theorem State.modFram_sess (s : State) (f : Fram → Fram) : (s.modFram f).sess = s.sess := rfl
@[simp] theorem State.modFram_host (s : State) (f : Fram → Fram) : (s.modFram f).host = s.host := rfl
@[simp] theorem State.modFram_prm (s : State) (f : Fram → Fram) : (s.modFram f).prm = s.prm := rfl
@[simp] theorem State.modFram_commit (s : State) (f : Fram → Fram) : (s.modFram f).commit = s.commit := rfl
@[simp] theorem State.modFram_link (s : State) (f : Fram → Fram) : (s.modFram f).link = s.link := rfl
@[simp] theorem State.modFram_pe (s : State) (f : Fram → Fram) : (s.modFram f).pe = s.pe := rfl
@[simp] theorem State.modFram_loop (s : State) (f : Fram → Fram) : (s.modFram f).loop = s.loop := rfl
@[simp] theorem State.modFram_pos (s : State) (f : Fram → Fram) : (s.modFram f).pos = s.pos := rfl
@[simp] theorem State.modFram_mot (s : State) (f : Fram → Fram) : (s.modFram f).mot = s.mot := rfl
@[simp] theorem State.modFram_sc (s : State) (f : Fram → Fram) : (s.modFram f).sc = s.sc := rfl
@[simp] theorem State.modFram_temp (s : State) (f : Fram → Fram) : (s.modFram f).temp = s.temp := rfl
@[simp] theorem State.modFram_chg (s : State) (f : Fram → Fram) : (s.modFram f).chg = s.chg := rfl
@[simp] theorem State.modFram_fram (s : State) (f : Fram → Fram) : (s.modFram f).fram = f s.fram := rfl
@[simp] theorem State.modFram_log (s : State) (f : Fram → Fram) : (s.modFram f).log = s.log := rfl
@[simp] theorem State.modFram_otp (s : State) (f : Fram → Fram) : (s.modFram f).otp = s.otp := rfl
@[simp] theorem State.modFram_bus (s : State) (f : Fram → Fram) : (s.modFram f).bus = s.bus := rfl
@[simp] theorem State.modFram_pwr (s : State) (f : Fram → Fram) : (s.modFram f).pwr = s.pwr := rfl
@[simp] theorem State.modFram_faults (s : State) (f : Fram → Fram) : (s.modFram f).faults = s.faults := rfl
@[simp] theorem State.modFram_cnt (s : State) (f : Fram → Fram) : (s.modFram f).cnt = s.cnt := rfl
@[simp] theorem State.modFram_bundleWhy (s : State) (f : Fram → Fram) : (s.modFram f).bundleWhy = s.bundleWhy := rfl
@[simp] theorem State.modFram_bundleTick (s : State) (f : Fram → Fram) : (s.modFram f).bundleTick = s.bundleTick := rfl
@[simp] theorem State.modFram_tries (s : State) (f : Fram → Fram) : (s.modFram f).tries = s.tries := rfl
@[simp] theorem State.modFram_lockAt (s : State) (f : Fram → Fram) : (s.modFram f).lockAt = s.lockAt := rfl
@[simp] theorem State.modFram_fltN (s : State) (f : Fram → Fram) : (s.modFram f).fltN = s.fltN := rfl
@[simp] theorem State.modFram_vcEn (s : State) (f : Fram → Fram) : (s.modFram f).vcEn = s.vcEn := rfl
@[simp] theorem State.modFram_free (s : State) (f : Fram → Fram) : (s.modFram f).free = s.free := rfl
@[simp] theorem State.modFram_pending (s : State) (f : Fram → Fram) : (s.modFram f).pending = s.pending := rfl

/-! ### modLog -/

@[simp] theorem State.modLog_dev (s : State) (f : LogState → LogState) : (s.modLog f).dev = s.dev := rfl
@[simp] theorem State.modLog_cause (s : State) (f : LogState → LogState) : (s.modLog f).cause = s.cause := rfl
@[simp] theorem State.modLog_safe (s : State) (f : LogState → LogState) : (s.modLog f).safe = s.safe := rfl
@[simp] theorem State.modLog_boot (s : State) (f : LogState → LogState) : (s.modLog f).boot = s.boot := rfl
@[simp] theorem State.modLog_resetAt (s : State) (f : LogState → LogState) : (s.modLog f).resetAt = s.resetAt := rfl
@[simp] theorem State.modLog_bootAt (s : State) (f : LogState → LogState) : (s.modLog f).bootAt = s.bootAt := rfl
@[simp] theorem State.modLog_bootTime (s : State) (f : LogState → LogState) : (s.modLog f).bootTime = s.bootTime := rfl
@[simp] theorem State.modLog_mode (s : State) (f : LogState → LogState) : (s.modLog f).mode = s.mode := rfl
@[simp] theorem State.modLog_strap (s : State) (f : LogState → LogState) : (s.modLog f).strap = s.strap := rfl
@[simp] theorem State.modLog_inReset (s : State) (f : LogState → LogState) : (s.modLog f).inReset = s.inReset := rfl
@[simp] theorem State.modLog_ticking (s : State) (f : LogState → LogState) : (s.modLog f).ticking = s.ticking := rfl
@[simp] theorem State.modLog_first (s : State) (f : LogState → LogState) : (s.modLog f).first = s.first := rfl
@[simp] theorem State.modLog_tick (s : State) (f : LogState → LogState) : (s.modLog f).tick = s.tick := rfl
@[simp] theorem State.modLog_mtick (s : State) (f : LogState → LogState) : (s.modLog f).mtick = s.mtick := rfl
@[simp] theorem State.modLog_acc (s : State) (f : LogState → LogState) : (s.modLog f).acc = s.acc := rfl
@[simp] theorem State.modLog_msDue (s : State) (f : LogState → LogState) : (s.modLog f).msDue = s.msDue := rfl
@[simp] theorem State.modLog_ringDue (s : State) (f : LogState → LogState) : (s.modLog f).ringDue = s.ringDue := rfl
@[simp] theorem State.modLog_etime (s : State) (f : LogState → LogState) : (s.modLog f).etime = s.etime := rfl
@[simp] theorem State.modLog_etFrac (s : State) (f : LogState → LogState) : (s.modLog f).etFrac = s.etFrac := rfl
@[simp] theorem State.modLog_bounds (s : State) (f : LogState → LogState) : (s.modLog f).bounds = s.bounds := rfl
@[simp] theorem State.modLog_eclk (s : State) (f : LogState → LogState) : (s.modLog f).eclk = s.eclk := rfl
@[simp] theorem State.modLog_sess (s : State) (f : LogState → LogState) : (s.modLog f).sess = s.sess := rfl
@[simp] theorem State.modLog_host (s : State) (f : LogState → LogState) : (s.modLog f).host = s.host := rfl
@[simp] theorem State.modLog_prm (s : State) (f : LogState → LogState) : (s.modLog f).prm = s.prm := rfl
@[simp] theorem State.modLog_commit (s : State) (f : LogState → LogState) : (s.modLog f).commit = s.commit := rfl
@[simp] theorem State.modLog_link (s : State) (f : LogState → LogState) : (s.modLog f).link = s.link := rfl
@[simp] theorem State.modLog_pe (s : State) (f : LogState → LogState) : (s.modLog f).pe = s.pe := rfl
@[simp] theorem State.modLog_loop (s : State) (f : LogState → LogState) : (s.modLog f).loop = s.loop := rfl
@[simp] theorem State.modLog_pos (s : State) (f : LogState → LogState) : (s.modLog f).pos = s.pos := rfl
@[simp] theorem State.modLog_mot (s : State) (f : LogState → LogState) : (s.modLog f).mot = s.mot := rfl
@[simp] theorem State.modLog_sc (s : State) (f : LogState → LogState) : (s.modLog f).sc = s.sc := rfl
@[simp] theorem State.modLog_temp (s : State) (f : LogState → LogState) : (s.modLog f).temp = s.temp := rfl
@[simp] theorem State.modLog_chg (s : State) (f : LogState → LogState) : (s.modLog f).chg = s.chg := rfl
@[simp] theorem State.modLog_fram (s : State) (f : LogState → LogState) : (s.modLog f).fram = s.fram := rfl
@[simp] theorem State.modLog_log (s : State) (f : LogState → LogState) : (s.modLog f).log = f s.log := rfl
@[simp] theorem State.modLog_otp (s : State) (f : LogState → LogState) : (s.modLog f).otp = s.otp := rfl
@[simp] theorem State.modLog_bus (s : State) (f : LogState → LogState) : (s.modLog f).bus = s.bus := rfl
@[simp] theorem State.modLog_pwr (s : State) (f : LogState → LogState) : (s.modLog f).pwr = s.pwr := rfl
@[simp] theorem State.modLog_faults (s : State) (f : LogState → LogState) : (s.modLog f).faults = s.faults := rfl
@[simp] theorem State.modLog_cnt (s : State) (f : LogState → LogState) : (s.modLog f).cnt = s.cnt := rfl
@[simp] theorem State.modLog_bundleWhy (s : State) (f : LogState → LogState) : (s.modLog f).bundleWhy = s.bundleWhy := rfl
@[simp] theorem State.modLog_bundleTick (s : State) (f : LogState → LogState) : (s.modLog f).bundleTick = s.bundleTick := rfl
@[simp] theorem State.modLog_tries (s : State) (f : LogState → LogState) : (s.modLog f).tries = s.tries := rfl
@[simp] theorem State.modLog_lockAt (s : State) (f : LogState → LogState) : (s.modLog f).lockAt = s.lockAt := rfl
@[simp] theorem State.modLog_fltN (s : State) (f : LogState → LogState) : (s.modLog f).fltN = s.fltN := rfl
@[simp] theorem State.modLog_vcEn (s : State) (f : LogState → LogState) : (s.modLog f).vcEn = s.vcEn := rfl
@[simp] theorem State.modLog_free (s : State) (f : LogState → LogState) : (s.modLog f).free = s.free := rfl
@[simp] theorem State.modLog_pending (s : State) (f : LogState → LogState) : (s.modLog f).pending = s.pending := rfl

/-! ### modOtp -/

@[simp] theorem State.modOtp_dev (s : State) (f : Otp → Otp) : (s.modOtp f).dev = s.dev := rfl
@[simp] theorem State.modOtp_cause (s : State) (f : Otp → Otp) : (s.modOtp f).cause = s.cause := rfl
@[simp] theorem State.modOtp_safe (s : State) (f : Otp → Otp) : (s.modOtp f).safe = s.safe := rfl
@[simp] theorem State.modOtp_boot (s : State) (f : Otp → Otp) : (s.modOtp f).boot = s.boot := rfl
@[simp] theorem State.modOtp_resetAt (s : State) (f : Otp → Otp) : (s.modOtp f).resetAt = s.resetAt := rfl
@[simp] theorem State.modOtp_bootAt (s : State) (f : Otp → Otp) : (s.modOtp f).bootAt = s.bootAt := rfl
@[simp] theorem State.modOtp_bootTime (s : State) (f : Otp → Otp) : (s.modOtp f).bootTime = s.bootTime := rfl
@[simp] theorem State.modOtp_mode (s : State) (f : Otp → Otp) : (s.modOtp f).mode = s.mode := rfl
@[simp] theorem State.modOtp_strap (s : State) (f : Otp → Otp) : (s.modOtp f).strap = s.strap := rfl
@[simp] theorem State.modOtp_inReset (s : State) (f : Otp → Otp) : (s.modOtp f).inReset = s.inReset := rfl
@[simp] theorem State.modOtp_ticking (s : State) (f : Otp → Otp) : (s.modOtp f).ticking = s.ticking := rfl
@[simp] theorem State.modOtp_first (s : State) (f : Otp → Otp) : (s.modOtp f).first = s.first := rfl
@[simp] theorem State.modOtp_tick (s : State) (f : Otp → Otp) : (s.modOtp f).tick = s.tick := rfl
@[simp] theorem State.modOtp_mtick (s : State) (f : Otp → Otp) : (s.modOtp f).mtick = s.mtick := rfl
@[simp] theorem State.modOtp_acc (s : State) (f : Otp → Otp) : (s.modOtp f).acc = s.acc := rfl
@[simp] theorem State.modOtp_msDue (s : State) (f : Otp → Otp) : (s.modOtp f).msDue = s.msDue := rfl
@[simp] theorem State.modOtp_ringDue (s : State) (f : Otp → Otp) : (s.modOtp f).ringDue = s.ringDue := rfl
@[simp] theorem State.modOtp_etime (s : State) (f : Otp → Otp) : (s.modOtp f).etime = s.etime := rfl
@[simp] theorem State.modOtp_etFrac (s : State) (f : Otp → Otp) : (s.modOtp f).etFrac = s.etFrac := rfl
@[simp] theorem State.modOtp_bounds (s : State) (f : Otp → Otp) : (s.modOtp f).bounds = s.bounds := rfl
@[simp] theorem State.modOtp_eclk (s : State) (f : Otp → Otp) : (s.modOtp f).eclk = s.eclk := rfl
@[simp] theorem State.modOtp_sess (s : State) (f : Otp → Otp) : (s.modOtp f).sess = s.sess := rfl
@[simp] theorem State.modOtp_host (s : State) (f : Otp → Otp) : (s.modOtp f).host = s.host := rfl
@[simp] theorem State.modOtp_prm (s : State) (f : Otp → Otp) : (s.modOtp f).prm = s.prm := rfl
@[simp] theorem State.modOtp_commit (s : State) (f : Otp → Otp) : (s.modOtp f).commit = s.commit := rfl
@[simp] theorem State.modOtp_link (s : State) (f : Otp → Otp) : (s.modOtp f).link = s.link := rfl
@[simp] theorem State.modOtp_pe (s : State) (f : Otp → Otp) : (s.modOtp f).pe = s.pe := rfl
@[simp] theorem State.modOtp_loop (s : State) (f : Otp → Otp) : (s.modOtp f).loop = s.loop := rfl
@[simp] theorem State.modOtp_pos (s : State) (f : Otp → Otp) : (s.modOtp f).pos = s.pos := rfl
@[simp] theorem State.modOtp_mot (s : State) (f : Otp → Otp) : (s.modOtp f).mot = s.mot := rfl
@[simp] theorem State.modOtp_sc (s : State) (f : Otp → Otp) : (s.modOtp f).sc = s.sc := rfl
@[simp] theorem State.modOtp_temp (s : State) (f : Otp → Otp) : (s.modOtp f).temp = s.temp := rfl
@[simp] theorem State.modOtp_chg (s : State) (f : Otp → Otp) : (s.modOtp f).chg = s.chg := rfl
@[simp] theorem State.modOtp_fram (s : State) (f : Otp → Otp) : (s.modOtp f).fram = s.fram := rfl
@[simp] theorem State.modOtp_log (s : State) (f : Otp → Otp) : (s.modOtp f).log = s.log := rfl
@[simp] theorem State.modOtp_otp (s : State) (f : Otp → Otp) : (s.modOtp f).otp = f s.otp := rfl
@[simp] theorem State.modOtp_bus (s : State) (f : Otp → Otp) : (s.modOtp f).bus = s.bus := rfl
@[simp] theorem State.modOtp_pwr (s : State) (f : Otp → Otp) : (s.modOtp f).pwr = s.pwr := rfl
@[simp] theorem State.modOtp_faults (s : State) (f : Otp → Otp) : (s.modOtp f).faults = s.faults := rfl
@[simp] theorem State.modOtp_cnt (s : State) (f : Otp → Otp) : (s.modOtp f).cnt = s.cnt := rfl
@[simp] theorem State.modOtp_bundleWhy (s : State) (f : Otp → Otp) : (s.modOtp f).bundleWhy = s.bundleWhy := rfl
@[simp] theorem State.modOtp_bundleTick (s : State) (f : Otp → Otp) : (s.modOtp f).bundleTick = s.bundleTick := rfl
@[simp] theorem State.modOtp_tries (s : State) (f : Otp → Otp) : (s.modOtp f).tries = s.tries := rfl
@[simp] theorem State.modOtp_lockAt (s : State) (f : Otp → Otp) : (s.modOtp f).lockAt = s.lockAt := rfl
@[simp] theorem State.modOtp_fltN (s : State) (f : Otp → Otp) : (s.modOtp f).fltN = s.fltN := rfl
@[simp] theorem State.modOtp_vcEn (s : State) (f : Otp → Otp) : (s.modOtp f).vcEn = s.vcEn := rfl
@[simp] theorem State.modOtp_free (s : State) (f : Otp → Otp) : (s.modOtp f).free = s.free := rfl
@[simp] theorem State.modOtp_pending (s : State) (f : Otp → Otp) : (s.modOtp f).pending = s.pending := rfl

/-! ### modBus -/

@[simp] theorem State.modBus_dev (s : State) (f : Bus → Bus) : (s.modBus f).dev = s.dev := rfl
@[simp] theorem State.modBus_cause (s : State) (f : Bus → Bus) : (s.modBus f).cause = s.cause := rfl
@[simp] theorem State.modBus_safe (s : State) (f : Bus → Bus) : (s.modBus f).safe = s.safe := rfl
@[simp] theorem State.modBus_boot (s : State) (f : Bus → Bus) : (s.modBus f).boot = s.boot := rfl
@[simp] theorem State.modBus_resetAt (s : State) (f : Bus → Bus) : (s.modBus f).resetAt = s.resetAt := rfl
@[simp] theorem State.modBus_bootAt (s : State) (f : Bus → Bus) : (s.modBus f).bootAt = s.bootAt := rfl
@[simp] theorem State.modBus_bootTime (s : State) (f : Bus → Bus) : (s.modBus f).bootTime = s.bootTime := rfl
@[simp] theorem State.modBus_mode (s : State) (f : Bus → Bus) : (s.modBus f).mode = s.mode := rfl
@[simp] theorem State.modBus_strap (s : State) (f : Bus → Bus) : (s.modBus f).strap = s.strap := rfl
@[simp] theorem State.modBus_inReset (s : State) (f : Bus → Bus) : (s.modBus f).inReset = s.inReset := rfl
@[simp] theorem State.modBus_ticking (s : State) (f : Bus → Bus) : (s.modBus f).ticking = s.ticking := rfl
@[simp] theorem State.modBus_first (s : State) (f : Bus → Bus) : (s.modBus f).first = s.first := rfl
@[simp] theorem State.modBus_tick (s : State) (f : Bus → Bus) : (s.modBus f).tick = s.tick := rfl
@[simp] theorem State.modBus_mtick (s : State) (f : Bus → Bus) : (s.modBus f).mtick = s.mtick := rfl
@[simp] theorem State.modBus_acc (s : State) (f : Bus → Bus) : (s.modBus f).acc = s.acc := rfl
@[simp] theorem State.modBus_msDue (s : State) (f : Bus → Bus) : (s.modBus f).msDue = s.msDue := rfl
@[simp] theorem State.modBus_ringDue (s : State) (f : Bus → Bus) : (s.modBus f).ringDue = s.ringDue := rfl
@[simp] theorem State.modBus_etime (s : State) (f : Bus → Bus) : (s.modBus f).etime = s.etime := rfl
@[simp] theorem State.modBus_etFrac (s : State) (f : Bus → Bus) : (s.modBus f).etFrac = s.etFrac := rfl
@[simp] theorem State.modBus_bounds (s : State) (f : Bus → Bus) : (s.modBus f).bounds = s.bounds := rfl
@[simp] theorem State.modBus_eclk (s : State) (f : Bus → Bus) : (s.modBus f).eclk = s.eclk := rfl
@[simp] theorem State.modBus_sess (s : State) (f : Bus → Bus) : (s.modBus f).sess = s.sess := rfl
@[simp] theorem State.modBus_host (s : State) (f : Bus → Bus) : (s.modBus f).host = s.host := rfl
@[simp] theorem State.modBus_prm (s : State) (f : Bus → Bus) : (s.modBus f).prm = s.prm := rfl
@[simp] theorem State.modBus_commit (s : State) (f : Bus → Bus) : (s.modBus f).commit = s.commit := rfl
@[simp] theorem State.modBus_link (s : State) (f : Bus → Bus) : (s.modBus f).link = s.link := rfl
@[simp] theorem State.modBus_pe (s : State) (f : Bus → Bus) : (s.modBus f).pe = s.pe := rfl
@[simp] theorem State.modBus_loop (s : State) (f : Bus → Bus) : (s.modBus f).loop = s.loop := rfl
@[simp] theorem State.modBus_pos (s : State) (f : Bus → Bus) : (s.modBus f).pos = s.pos := rfl
@[simp] theorem State.modBus_mot (s : State) (f : Bus → Bus) : (s.modBus f).mot = s.mot := rfl
@[simp] theorem State.modBus_sc (s : State) (f : Bus → Bus) : (s.modBus f).sc = s.sc := rfl
@[simp] theorem State.modBus_temp (s : State) (f : Bus → Bus) : (s.modBus f).temp = s.temp := rfl
@[simp] theorem State.modBus_chg (s : State) (f : Bus → Bus) : (s.modBus f).chg = s.chg := rfl
@[simp] theorem State.modBus_fram (s : State) (f : Bus → Bus) : (s.modBus f).fram = s.fram := rfl
@[simp] theorem State.modBus_log (s : State) (f : Bus → Bus) : (s.modBus f).log = s.log := rfl
@[simp] theorem State.modBus_otp (s : State) (f : Bus → Bus) : (s.modBus f).otp = s.otp := rfl
@[simp] theorem State.modBus_bus (s : State) (f : Bus → Bus) : (s.modBus f).bus = f s.bus := rfl
@[simp] theorem State.modBus_pwr (s : State) (f : Bus → Bus) : (s.modBus f).pwr = s.pwr := rfl
@[simp] theorem State.modBus_faults (s : State) (f : Bus → Bus) : (s.modBus f).faults = s.faults := rfl
@[simp] theorem State.modBus_cnt (s : State) (f : Bus → Bus) : (s.modBus f).cnt = s.cnt := rfl
@[simp] theorem State.modBus_bundleWhy (s : State) (f : Bus → Bus) : (s.modBus f).bundleWhy = s.bundleWhy := rfl
@[simp] theorem State.modBus_bundleTick (s : State) (f : Bus → Bus) : (s.modBus f).bundleTick = s.bundleTick := rfl
@[simp] theorem State.modBus_tries (s : State) (f : Bus → Bus) : (s.modBus f).tries = s.tries := rfl
@[simp] theorem State.modBus_lockAt (s : State) (f : Bus → Bus) : (s.modBus f).lockAt = s.lockAt := rfl
@[simp] theorem State.modBus_fltN (s : State) (f : Bus → Bus) : (s.modBus f).fltN = s.fltN := rfl
@[simp] theorem State.modBus_vcEn (s : State) (f : Bus → Bus) : (s.modBus f).vcEn = s.vcEn := rfl
@[simp] theorem State.modBus_free (s : State) (f : Bus → Bus) : (s.modBus f).free = s.free := rfl
@[simp] theorem State.modBus_pending (s : State) (f : Bus → Bus) : (s.modBus f).pending = s.pending := rfl

/-! ### modPwr -/

@[simp] theorem State.modPwr_dev (s : State) (f : Power → Power) : (s.modPwr f).dev = s.dev := rfl
@[simp] theorem State.modPwr_cause (s : State) (f : Power → Power) : (s.modPwr f).cause = s.cause := rfl
@[simp] theorem State.modPwr_safe (s : State) (f : Power → Power) : (s.modPwr f).safe = s.safe := rfl
@[simp] theorem State.modPwr_boot (s : State) (f : Power → Power) : (s.modPwr f).boot = s.boot := rfl
@[simp] theorem State.modPwr_resetAt (s : State) (f : Power → Power) : (s.modPwr f).resetAt = s.resetAt := rfl
@[simp] theorem State.modPwr_bootAt (s : State) (f : Power → Power) : (s.modPwr f).bootAt = s.bootAt := rfl
@[simp] theorem State.modPwr_bootTime (s : State) (f : Power → Power) : (s.modPwr f).bootTime = s.bootTime := rfl
@[simp] theorem State.modPwr_mode (s : State) (f : Power → Power) : (s.modPwr f).mode = s.mode := rfl
@[simp] theorem State.modPwr_strap (s : State) (f : Power → Power) : (s.modPwr f).strap = s.strap := rfl
@[simp] theorem State.modPwr_inReset (s : State) (f : Power → Power) : (s.modPwr f).inReset = s.inReset := rfl
@[simp] theorem State.modPwr_ticking (s : State) (f : Power → Power) : (s.modPwr f).ticking = s.ticking := rfl
@[simp] theorem State.modPwr_first (s : State) (f : Power → Power) : (s.modPwr f).first = s.first := rfl
@[simp] theorem State.modPwr_tick (s : State) (f : Power → Power) : (s.modPwr f).tick = s.tick := rfl
@[simp] theorem State.modPwr_mtick (s : State) (f : Power → Power) : (s.modPwr f).mtick = s.mtick := rfl
@[simp] theorem State.modPwr_acc (s : State) (f : Power → Power) : (s.modPwr f).acc = s.acc := rfl
@[simp] theorem State.modPwr_msDue (s : State) (f : Power → Power) : (s.modPwr f).msDue = s.msDue := rfl
@[simp] theorem State.modPwr_ringDue (s : State) (f : Power → Power) : (s.modPwr f).ringDue = s.ringDue := rfl
@[simp] theorem State.modPwr_etime (s : State) (f : Power → Power) : (s.modPwr f).etime = s.etime := rfl
@[simp] theorem State.modPwr_etFrac (s : State) (f : Power → Power) : (s.modPwr f).etFrac = s.etFrac := rfl
@[simp] theorem State.modPwr_bounds (s : State) (f : Power → Power) : (s.modPwr f).bounds = s.bounds := rfl
@[simp] theorem State.modPwr_eclk (s : State) (f : Power → Power) : (s.modPwr f).eclk = s.eclk := rfl
@[simp] theorem State.modPwr_sess (s : State) (f : Power → Power) : (s.modPwr f).sess = s.sess := rfl
@[simp] theorem State.modPwr_host (s : State) (f : Power → Power) : (s.modPwr f).host = s.host := rfl
@[simp] theorem State.modPwr_prm (s : State) (f : Power → Power) : (s.modPwr f).prm = s.prm := rfl
@[simp] theorem State.modPwr_commit (s : State) (f : Power → Power) : (s.modPwr f).commit = s.commit := rfl
@[simp] theorem State.modPwr_link (s : State) (f : Power → Power) : (s.modPwr f).link = s.link := rfl
@[simp] theorem State.modPwr_pe (s : State) (f : Power → Power) : (s.modPwr f).pe = s.pe := rfl
@[simp] theorem State.modPwr_loop (s : State) (f : Power → Power) : (s.modPwr f).loop = s.loop := rfl
@[simp] theorem State.modPwr_pos (s : State) (f : Power → Power) : (s.modPwr f).pos = s.pos := rfl
@[simp] theorem State.modPwr_mot (s : State) (f : Power → Power) : (s.modPwr f).mot = s.mot := rfl
@[simp] theorem State.modPwr_sc (s : State) (f : Power → Power) : (s.modPwr f).sc = s.sc := rfl
@[simp] theorem State.modPwr_temp (s : State) (f : Power → Power) : (s.modPwr f).temp = s.temp := rfl
@[simp] theorem State.modPwr_chg (s : State) (f : Power → Power) : (s.modPwr f).chg = s.chg := rfl
@[simp] theorem State.modPwr_fram (s : State) (f : Power → Power) : (s.modPwr f).fram = s.fram := rfl
@[simp] theorem State.modPwr_log (s : State) (f : Power → Power) : (s.modPwr f).log = s.log := rfl
@[simp] theorem State.modPwr_otp (s : State) (f : Power → Power) : (s.modPwr f).otp = s.otp := rfl
@[simp] theorem State.modPwr_bus (s : State) (f : Power → Power) : (s.modPwr f).bus = s.bus := rfl
@[simp] theorem State.modPwr_pwr (s : State) (f : Power → Power) : (s.modPwr f).pwr = f s.pwr := rfl
@[simp] theorem State.modPwr_faults (s : State) (f : Power → Power) : (s.modPwr f).faults = s.faults := rfl
@[simp] theorem State.modPwr_cnt (s : State) (f : Power → Power) : (s.modPwr f).cnt = s.cnt := rfl
@[simp] theorem State.modPwr_bundleWhy (s : State) (f : Power → Power) : (s.modPwr f).bundleWhy = s.bundleWhy := rfl
@[simp] theorem State.modPwr_bundleTick (s : State) (f : Power → Power) : (s.modPwr f).bundleTick = s.bundleTick := rfl
@[simp] theorem State.modPwr_tries (s : State) (f : Power → Power) : (s.modPwr f).tries = s.tries := rfl
@[simp] theorem State.modPwr_lockAt (s : State) (f : Power → Power) : (s.modPwr f).lockAt = s.lockAt := rfl
@[simp] theorem State.modPwr_fltN (s : State) (f : Power → Power) : (s.modPwr f).fltN = s.fltN := rfl
@[simp] theorem State.modPwr_vcEn (s : State) (f : Power → Power) : (s.modPwr f).vcEn = s.vcEn := rfl
@[simp] theorem State.modPwr_free (s : State) (f : Power → Power) : (s.modPwr f).free = s.free := rfl
@[simp] theorem State.modPwr_pending (s : State) (f : Power → Power) : (s.modPwr f).pending = s.pending := rfl

/-! ### modChg -/

@[simp] theorem State.modChg_dev (s : State) (f : Charger → Charger) : (s.modChg f).dev = s.dev := rfl
@[simp] theorem State.modChg_cause (s : State) (f : Charger → Charger) : (s.modChg f).cause = s.cause := rfl
@[simp] theorem State.modChg_safe (s : State) (f : Charger → Charger) : (s.modChg f).safe = s.safe := rfl
@[simp] theorem State.modChg_boot (s : State) (f : Charger → Charger) : (s.modChg f).boot = s.boot := rfl
@[simp] theorem State.modChg_resetAt (s : State) (f : Charger → Charger) : (s.modChg f).resetAt = s.resetAt := rfl
@[simp] theorem State.modChg_bootAt (s : State) (f : Charger → Charger) : (s.modChg f).bootAt = s.bootAt := rfl
@[simp] theorem State.modChg_bootTime (s : State) (f : Charger → Charger) : (s.modChg f).bootTime = s.bootTime := rfl
@[simp] theorem State.modChg_mode (s : State) (f : Charger → Charger) : (s.modChg f).mode = s.mode := rfl
@[simp] theorem State.modChg_strap (s : State) (f : Charger → Charger) : (s.modChg f).strap = s.strap := rfl
@[simp] theorem State.modChg_inReset (s : State) (f : Charger → Charger) : (s.modChg f).inReset = s.inReset := rfl
@[simp] theorem State.modChg_ticking (s : State) (f : Charger → Charger) : (s.modChg f).ticking = s.ticking := rfl
@[simp] theorem State.modChg_first (s : State) (f : Charger → Charger) : (s.modChg f).first = s.first := rfl
@[simp] theorem State.modChg_tick (s : State) (f : Charger → Charger) : (s.modChg f).tick = s.tick := rfl
@[simp] theorem State.modChg_mtick (s : State) (f : Charger → Charger) : (s.modChg f).mtick = s.mtick := rfl
@[simp] theorem State.modChg_acc (s : State) (f : Charger → Charger) : (s.modChg f).acc = s.acc := rfl
@[simp] theorem State.modChg_msDue (s : State) (f : Charger → Charger) : (s.modChg f).msDue = s.msDue := rfl
@[simp] theorem State.modChg_ringDue (s : State) (f : Charger → Charger) : (s.modChg f).ringDue = s.ringDue := rfl
@[simp] theorem State.modChg_etime (s : State) (f : Charger → Charger) : (s.modChg f).etime = s.etime := rfl
@[simp] theorem State.modChg_etFrac (s : State) (f : Charger → Charger) : (s.modChg f).etFrac = s.etFrac := rfl
@[simp] theorem State.modChg_bounds (s : State) (f : Charger → Charger) : (s.modChg f).bounds = s.bounds := rfl
@[simp] theorem State.modChg_eclk (s : State) (f : Charger → Charger) : (s.modChg f).eclk = s.eclk := rfl
@[simp] theorem State.modChg_sess (s : State) (f : Charger → Charger) : (s.modChg f).sess = s.sess := rfl
@[simp] theorem State.modChg_host (s : State) (f : Charger → Charger) : (s.modChg f).host = s.host := rfl
@[simp] theorem State.modChg_prm (s : State) (f : Charger → Charger) : (s.modChg f).prm = s.prm := rfl
@[simp] theorem State.modChg_commit (s : State) (f : Charger → Charger) : (s.modChg f).commit = s.commit := rfl
@[simp] theorem State.modChg_link (s : State) (f : Charger → Charger) : (s.modChg f).link = s.link := rfl
@[simp] theorem State.modChg_pe (s : State) (f : Charger → Charger) : (s.modChg f).pe = s.pe := rfl
@[simp] theorem State.modChg_loop (s : State) (f : Charger → Charger) : (s.modChg f).loop = s.loop := rfl
@[simp] theorem State.modChg_pos (s : State) (f : Charger → Charger) : (s.modChg f).pos = s.pos := rfl
@[simp] theorem State.modChg_mot (s : State) (f : Charger → Charger) : (s.modChg f).mot = s.mot := rfl
@[simp] theorem State.modChg_sc (s : State) (f : Charger → Charger) : (s.modChg f).sc = s.sc := rfl
@[simp] theorem State.modChg_temp (s : State) (f : Charger → Charger) : (s.modChg f).temp = s.temp := rfl
@[simp] theorem State.modChg_chg (s : State) (f : Charger → Charger) : (s.modChg f).chg = f s.chg := rfl
@[simp] theorem State.modChg_fram (s : State) (f : Charger → Charger) : (s.modChg f).fram = s.fram := rfl
@[simp] theorem State.modChg_log (s : State) (f : Charger → Charger) : (s.modChg f).log = s.log := rfl
@[simp] theorem State.modChg_otp (s : State) (f : Charger → Charger) : (s.modChg f).otp = s.otp := rfl
@[simp] theorem State.modChg_bus (s : State) (f : Charger → Charger) : (s.modChg f).bus = s.bus := rfl
@[simp] theorem State.modChg_pwr (s : State) (f : Charger → Charger) : (s.modChg f).pwr = s.pwr := rfl
@[simp] theorem State.modChg_faults (s : State) (f : Charger → Charger) : (s.modChg f).faults = s.faults := rfl
@[simp] theorem State.modChg_cnt (s : State) (f : Charger → Charger) : (s.modChg f).cnt = s.cnt := rfl
@[simp] theorem State.modChg_bundleWhy (s : State) (f : Charger → Charger) : (s.modChg f).bundleWhy = s.bundleWhy := rfl
@[simp] theorem State.modChg_bundleTick (s : State) (f : Charger → Charger) : (s.modChg f).bundleTick = s.bundleTick := rfl
@[simp] theorem State.modChg_tries (s : State) (f : Charger → Charger) : (s.modChg f).tries = s.tries := rfl
@[simp] theorem State.modChg_lockAt (s : State) (f : Charger → Charger) : (s.modChg f).lockAt = s.lockAt := rfl
@[simp] theorem State.modChg_fltN (s : State) (f : Charger → Charger) : (s.modChg f).fltN = s.fltN := rfl
@[simp] theorem State.modChg_vcEn (s : State) (f : Charger → Charger) : (s.modChg f).vcEn = s.vcEn := rfl
@[simp] theorem State.modChg_free (s : State) (f : Charger → Charger) : (s.modChg f).free = s.free := rfl
@[simp] theorem State.modChg_pending (s : State) (f : Charger → Charger) : (s.modChg f).pending = s.pending := rfl

/-! ### modSes -/

@[simp] theorem State.modSes_dev (s : State) (x : Sess) (f : Session → Session) : (s.modSes x f).dev = s.dev := rfl
@[simp] theorem State.modSes_cause (s : State) (x : Sess) (f : Session → Session) : (s.modSes x f).cause = s.cause := rfl
@[simp] theorem State.modSes_safe (s : State) (x : Sess) (f : Session → Session) : (s.modSes x f).safe = s.safe := rfl
@[simp] theorem State.modSes_boot (s : State) (x : Sess) (f : Session → Session) : (s.modSes x f).boot = s.boot := rfl
@[simp] theorem State.modSes_resetAt (s : State) (x : Sess) (f : Session → Session) : (s.modSes x f).resetAt = s.resetAt := rfl
@[simp] theorem State.modSes_bootAt (s : State) (x : Sess) (f : Session → Session) : (s.modSes x f).bootAt = s.bootAt := rfl
@[simp] theorem State.modSes_bootTime (s : State) (x : Sess) (f : Session → Session) : (s.modSes x f).bootTime = s.bootTime := rfl
@[simp] theorem State.modSes_mode (s : State) (x : Sess) (f : Session → Session) : (s.modSes x f).mode = s.mode := rfl
@[simp] theorem State.modSes_strap (s : State) (x : Sess) (f : Session → Session) : (s.modSes x f).strap = s.strap := rfl
@[simp] theorem State.modSes_inReset (s : State) (x : Sess) (f : Session → Session) : (s.modSes x f).inReset = s.inReset := rfl
@[simp] theorem State.modSes_ticking (s : State) (x : Sess) (f : Session → Session) : (s.modSes x f).ticking = s.ticking := rfl
@[simp] theorem State.modSes_first (s : State) (x : Sess) (f : Session → Session) : (s.modSes x f).first = s.first := rfl
@[simp] theorem State.modSes_tick (s : State) (x : Sess) (f : Session → Session) : (s.modSes x f).tick = s.tick := rfl
@[simp] theorem State.modSes_mtick (s : State) (x : Sess) (f : Session → Session) : (s.modSes x f).mtick = s.mtick := rfl
@[simp] theorem State.modSes_acc (s : State) (x : Sess) (f : Session → Session) : (s.modSes x f).acc = s.acc := rfl
@[simp] theorem State.modSes_msDue (s : State) (x : Sess) (f : Session → Session) : (s.modSes x f).msDue = s.msDue := rfl
@[simp] theorem State.modSes_ringDue (s : State) (x : Sess) (f : Session → Session) : (s.modSes x f).ringDue = s.ringDue := rfl
@[simp] theorem State.modSes_etime (s : State) (x : Sess) (f : Session → Session) : (s.modSes x f).etime = s.etime := rfl
@[simp] theorem State.modSes_etFrac (s : State) (x : Sess) (f : Session → Session) : (s.modSes x f).etFrac = s.etFrac := rfl
@[simp] theorem State.modSes_bounds (s : State) (x : Sess) (f : Session → Session) : (s.modSes x f).bounds = s.bounds := rfl
@[simp] theorem State.modSes_eclk (s : State) (x : Sess) (f : Session → Session) : (s.modSes x f).eclk = s.eclk := rfl
@[simp] theorem State.modSes_sess (s : State) (x : Sess) (f : Session → Session) : (s.modSes x f).sess = s.sess.mod x f := rfl
@[simp] theorem State.modSes_host (s : State) (x : Sess) (f : Session → Session) : (s.modSes x f).host = s.host := rfl
@[simp] theorem State.modSes_prm (s : State) (x : Sess) (f : Session → Session) : (s.modSes x f).prm = s.prm := rfl
@[simp] theorem State.modSes_commit (s : State) (x : Sess) (f : Session → Session) : (s.modSes x f).commit = s.commit := rfl
@[simp] theorem State.modSes_link (s : State) (x : Sess) (f : Session → Session) : (s.modSes x f).link = s.link := rfl
@[simp] theorem State.modSes_pe (s : State) (x : Sess) (f : Session → Session) : (s.modSes x f).pe = s.pe := rfl
@[simp] theorem State.modSes_loop (s : State) (x : Sess) (f : Session → Session) : (s.modSes x f).loop = s.loop := rfl
@[simp] theorem State.modSes_pos (s : State) (x : Sess) (f : Session → Session) : (s.modSes x f).pos = s.pos := rfl
@[simp] theorem State.modSes_mot (s : State) (x : Sess) (f : Session → Session) : (s.modSes x f).mot = s.mot := rfl
@[simp] theorem State.modSes_sc (s : State) (x : Sess) (f : Session → Session) : (s.modSes x f).sc = s.sc := rfl
@[simp] theorem State.modSes_temp (s : State) (x : Sess) (f : Session → Session) : (s.modSes x f).temp = s.temp := rfl
@[simp] theorem State.modSes_chg (s : State) (x : Sess) (f : Session → Session) : (s.modSes x f).chg = s.chg := rfl
@[simp] theorem State.modSes_fram (s : State) (x : Sess) (f : Session → Session) : (s.modSes x f).fram = s.fram := rfl
@[simp] theorem State.modSes_log (s : State) (x : Sess) (f : Session → Session) : (s.modSes x f).log = s.log := rfl
@[simp] theorem State.modSes_otp (s : State) (x : Sess) (f : Session → Session) : (s.modSes x f).otp = s.otp := rfl
@[simp] theorem State.modSes_bus (s : State) (x : Sess) (f : Session → Session) : (s.modSes x f).bus = s.bus := rfl
@[simp] theorem State.modSes_pwr (s : State) (x : Sess) (f : Session → Session) : (s.modSes x f).pwr = s.pwr := rfl
@[simp] theorem State.modSes_faults (s : State) (x : Sess) (f : Session → Session) : (s.modSes x f).faults = s.faults := rfl
@[simp] theorem State.modSes_cnt (s : State) (x : Sess) (f : Session → Session) : (s.modSes x f).cnt = s.cnt := rfl
@[simp] theorem State.modSes_bundleWhy (s : State) (x : Sess) (f : Session → Session) : (s.modSes x f).bundleWhy = s.bundleWhy := rfl
@[simp] theorem State.modSes_bundleTick (s : State) (x : Sess) (f : Session → Session) : (s.modSes x f).bundleTick = s.bundleTick := rfl
@[simp] theorem State.modSes_tries (s : State) (x : Sess) (f : Session → Session) : (s.modSes x f).tries = s.tries := rfl
@[simp] theorem State.modSes_lockAt (s : State) (x : Sess) (f : Session → Session) : (s.modSes x f).lockAt = s.lockAt := rfl
@[simp] theorem State.modSes_fltN (s : State) (x : Sess) (f : Session → Session) : (s.modSes x f).fltN = s.fltN := rfl
@[simp] theorem State.modSes_vcEn (s : State) (x : Sess) (f : Session → Session) : (s.modSes x f).vcEn = s.vcEn := rfl
@[simp] theorem State.modSes_free (s : State) (x : Sess) (f : Session → Session) : (s.modSes x f).free = s.free := rfl
@[simp] theorem State.modSes_pending (s : State) (x : Sess) (f : Session → Session) : (s.modSes x f).pending = s.pending := rfl

/-! ### modLoop -/

@[simp] theorem State.modLoop_dev (s : State) (x : Axis) (f : AxLoop → AxLoop) : (s.modLoop x f).dev = s.dev := rfl
@[simp] theorem State.modLoop_cause (s : State) (x : Axis) (f : AxLoop → AxLoop) : (s.modLoop x f).cause = s.cause := rfl
@[simp] theorem State.modLoop_safe (s : State) (x : Axis) (f : AxLoop → AxLoop) : (s.modLoop x f).safe = s.safe := rfl
@[simp] theorem State.modLoop_boot (s : State) (x : Axis) (f : AxLoop → AxLoop) : (s.modLoop x f).boot = s.boot := rfl
@[simp] theorem State.modLoop_resetAt (s : State) (x : Axis) (f : AxLoop → AxLoop) : (s.modLoop x f).resetAt = s.resetAt := rfl
@[simp] theorem State.modLoop_bootAt (s : State) (x : Axis) (f : AxLoop → AxLoop) : (s.modLoop x f).bootAt = s.bootAt := rfl
@[simp] theorem State.modLoop_bootTime (s : State) (x : Axis) (f : AxLoop → AxLoop) : (s.modLoop x f).bootTime = s.bootTime := rfl
@[simp] theorem State.modLoop_mode (s : State) (x : Axis) (f : AxLoop → AxLoop) : (s.modLoop x f).mode = s.mode := rfl
@[simp] theorem State.modLoop_strap (s : State) (x : Axis) (f : AxLoop → AxLoop) : (s.modLoop x f).strap = s.strap := rfl
@[simp] theorem State.modLoop_inReset (s : State) (x : Axis) (f : AxLoop → AxLoop) : (s.modLoop x f).inReset = s.inReset := rfl
@[simp] theorem State.modLoop_ticking (s : State) (x : Axis) (f : AxLoop → AxLoop) : (s.modLoop x f).ticking = s.ticking := rfl
@[simp] theorem State.modLoop_first (s : State) (x : Axis) (f : AxLoop → AxLoop) : (s.modLoop x f).first = s.first := rfl
@[simp] theorem State.modLoop_tick (s : State) (x : Axis) (f : AxLoop → AxLoop) : (s.modLoop x f).tick = s.tick := rfl
@[simp] theorem State.modLoop_mtick (s : State) (x : Axis) (f : AxLoop → AxLoop) : (s.modLoop x f).mtick = s.mtick := rfl
@[simp] theorem State.modLoop_acc (s : State) (x : Axis) (f : AxLoop → AxLoop) : (s.modLoop x f).acc = s.acc := rfl
@[simp] theorem State.modLoop_msDue (s : State) (x : Axis) (f : AxLoop → AxLoop) : (s.modLoop x f).msDue = s.msDue := rfl
@[simp] theorem State.modLoop_ringDue (s : State) (x : Axis) (f : AxLoop → AxLoop) : (s.modLoop x f).ringDue = s.ringDue := rfl
@[simp] theorem State.modLoop_etime (s : State) (x : Axis) (f : AxLoop → AxLoop) : (s.modLoop x f).etime = s.etime := rfl
@[simp] theorem State.modLoop_etFrac (s : State) (x : Axis) (f : AxLoop → AxLoop) : (s.modLoop x f).etFrac = s.etFrac := rfl
@[simp] theorem State.modLoop_bounds (s : State) (x : Axis) (f : AxLoop → AxLoop) : (s.modLoop x f).bounds = s.bounds := rfl
@[simp] theorem State.modLoop_eclk (s : State) (x : Axis) (f : AxLoop → AxLoop) : (s.modLoop x f).eclk = s.eclk := rfl
@[simp] theorem State.modLoop_sess (s : State) (x : Axis) (f : AxLoop → AxLoop) : (s.modLoop x f).sess = s.sess := rfl
@[simp] theorem State.modLoop_host (s : State) (x : Axis) (f : AxLoop → AxLoop) : (s.modLoop x f).host = s.host := rfl
@[simp] theorem State.modLoop_prm (s : State) (x : Axis) (f : AxLoop → AxLoop) : (s.modLoop x f).prm = s.prm := rfl
@[simp] theorem State.modLoop_commit (s : State) (x : Axis) (f : AxLoop → AxLoop) : (s.modLoop x f).commit = s.commit := rfl
@[simp] theorem State.modLoop_link (s : State) (x : Axis) (f : AxLoop → AxLoop) : (s.modLoop x f).link = s.link := rfl
@[simp] theorem State.modLoop_pe (s : State) (x : Axis) (f : AxLoop → AxLoop) : (s.modLoop x f).pe = s.pe := rfl
@[simp] theorem State.modLoop_loop (s : State) (x : Axis) (f : AxLoop → AxLoop) : (s.modLoop x f).loop = s.loop.mod x f := rfl
@[simp] theorem State.modLoop_pos (s : State) (x : Axis) (f : AxLoop → AxLoop) : (s.modLoop x f).pos = s.pos := rfl
@[simp] theorem State.modLoop_mot (s : State) (x : Axis) (f : AxLoop → AxLoop) : (s.modLoop x f).mot = s.mot := rfl
@[simp] theorem State.modLoop_sc (s : State) (x : Axis) (f : AxLoop → AxLoop) : (s.modLoop x f).sc = s.sc := rfl
@[simp] theorem State.modLoop_temp (s : State) (x : Axis) (f : AxLoop → AxLoop) : (s.modLoop x f).temp = s.temp := rfl
@[simp] theorem State.modLoop_chg (s : State) (x : Axis) (f : AxLoop → AxLoop) : (s.modLoop x f).chg = s.chg := rfl
@[simp] theorem State.modLoop_fram (s : State) (x : Axis) (f : AxLoop → AxLoop) : (s.modLoop x f).fram = s.fram := rfl
@[simp] theorem State.modLoop_log (s : State) (x : Axis) (f : AxLoop → AxLoop) : (s.modLoop x f).log = s.log := rfl
@[simp] theorem State.modLoop_otp (s : State) (x : Axis) (f : AxLoop → AxLoop) : (s.modLoop x f).otp = s.otp := rfl
@[simp] theorem State.modLoop_bus (s : State) (x : Axis) (f : AxLoop → AxLoop) : (s.modLoop x f).bus = s.bus := rfl
@[simp] theorem State.modLoop_pwr (s : State) (x : Axis) (f : AxLoop → AxLoop) : (s.modLoop x f).pwr = s.pwr := rfl
@[simp] theorem State.modLoop_faults (s : State) (x : Axis) (f : AxLoop → AxLoop) : (s.modLoop x f).faults = s.faults := rfl
@[simp] theorem State.modLoop_cnt (s : State) (x : Axis) (f : AxLoop → AxLoop) : (s.modLoop x f).cnt = s.cnt := rfl
@[simp] theorem State.modLoop_bundleWhy (s : State) (x : Axis) (f : AxLoop → AxLoop) : (s.modLoop x f).bundleWhy = s.bundleWhy := rfl
@[simp] theorem State.modLoop_bundleTick (s : State) (x : Axis) (f : AxLoop → AxLoop) : (s.modLoop x f).bundleTick = s.bundleTick := rfl
@[simp] theorem State.modLoop_tries (s : State) (x : Axis) (f : AxLoop → AxLoop) : (s.modLoop x f).tries = s.tries := rfl
@[simp] theorem State.modLoop_lockAt (s : State) (x : Axis) (f : AxLoop → AxLoop) : (s.modLoop x f).lockAt = s.lockAt := rfl
@[simp] theorem State.modLoop_fltN (s : State) (x : Axis) (f : AxLoop → AxLoop) : (s.modLoop x f).fltN = s.fltN := rfl
@[simp] theorem State.modLoop_vcEn (s : State) (x : Axis) (f : AxLoop → AxLoop) : (s.modLoop x f).vcEn = s.vcEn := rfl
@[simp] theorem State.modLoop_free (s : State) (x : Axis) (f : AxLoop → AxLoop) : (s.modLoop x f).free = s.free := rfl
@[simp] theorem State.modLoop_pending (s : State) (x : Axis) (f : AxLoop → AxLoop) : (s.modLoop x f).pending = s.pending := rfl

/-! ### modMot -/

@[simp] theorem State.modMot_dev (s : State) (x : Axis) (f : AxMot → AxMot) : (s.modMot x f).dev = s.dev := rfl
@[simp] theorem State.modMot_cause (s : State) (x : Axis) (f : AxMot → AxMot) : (s.modMot x f).cause = s.cause := rfl
@[simp] theorem State.modMot_safe (s : State) (x : Axis) (f : AxMot → AxMot) : (s.modMot x f).safe = s.safe := rfl
@[simp] theorem State.modMot_boot (s : State) (x : Axis) (f : AxMot → AxMot) : (s.modMot x f).boot = s.boot := rfl
@[simp] theorem State.modMot_resetAt (s : State) (x : Axis) (f : AxMot → AxMot) : (s.modMot x f).resetAt = s.resetAt := rfl
@[simp] theorem State.modMot_bootAt (s : State) (x : Axis) (f : AxMot → AxMot) : (s.modMot x f).bootAt = s.bootAt := rfl
@[simp] theorem State.modMot_bootTime (s : State) (x : Axis) (f : AxMot → AxMot) : (s.modMot x f).bootTime = s.bootTime := rfl
@[simp] theorem State.modMot_mode (s : State) (x : Axis) (f : AxMot → AxMot) : (s.modMot x f).mode = s.mode := rfl
@[simp] theorem State.modMot_strap (s : State) (x : Axis) (f : AxMot → AxMot) : (s.modMot x f).strap = s.strap := rfl
@[simp] theorem State.modMot_inReset (s : State) (x : Axis) (f : AxMot → AxMot) : (s.modMot x f).inReset = s.inReset := rfl
@[simp] theorem State.modMot_ticking (s : State) (x : Axis) (f : AxMot → AxMot) : (s.modMot x f).ticking = s.ticking := rfl
@[simp] theorem State.modMot_first (s : State) (x : Axis) (f : AxMot → AxMot) : (s.modMot x f).first = s.first := rfl
@[simp] theorem State.modMot_tick (s : State) (x : Axis) (f : AxMot → AxMot) : (s.modMot x f).tick = s.tick := rfl
@[simp] theorem State.modMot_mtick (s : State) (x : Axis) (f : AxMot → AxMot) : (s.modMot x f).mtick = s.mtick := rfl
@[simp] theorem State.modMot_acc (s : State) (x : Axis) (f : AxMot → AxMot) : (s.modMot x f).acc = s.acc := rfl
@[simp] theorem State.modMot_msDue (s : State) (x : Axis) (f : AxMot → AxMot) : (s.modMot x f).msDue = s.msDue := rfl
@[simp] theorem State.modMot_ringDue (s : State) (x : Axis) (f : AxMot → AxMot) : (s.modMot x f).ringDue = s.ringDue := rfl
@[simp] theorem State.modMot_etime (s : State) (x : Axis) (f : AxMot → AxMot) : (s.modMot x f).etime = s.etime := rfl
@[simp] theorem State.modMot_etFrac (s : State) (x : Axis) (f : AxMot → AxMot) : (s.modMot x f).etFrac = s.etFrac := rfl
@[simp] theorem State.modMot_bounds (s : State) (x : Axis) (f : AxMot → AxMot) : (s.modMot x f).bounds = s.bounds := rfl
@[simp] theorem State.modMot_eclk (s : State) (x : Axis) (f : AxMot → AxMot) : (s.modMot x f).eclk = s.eclk := rfl
@[simp] theorem State.modMot_sess (s : State) (x : Axis) (f : AxMot → AxMot) : (s.modMot x f).sess = s.sess := rfl
@[simp] theorem State.modMot_host (s : State) (x : Axis) (f : AxMot → AxMot) : (s.modMot x f).host = s.host := rfl
@[simp] theorem State.modMot_prm (s : State) (x : Axis) (f : AxMot → AxMot) : (s.modMot x f).prm = s.prm := rfl
@[simp] theorem State.modMot_commit (s : State) (x : Axis) (f : AxMot → AxMot) : (s.modMot x f).commit = s.commit := rfl
@[simp] theorem State.modMot_link (s : State) (x : Axis) (f : AxMot → AxMot) : (s.modMot x f).link = s.link := rfl
@[simp] theorem State.modMot_pe (s : State) (x : Axis) (f : AxMot → AxMot) : (s.modMot x f).pe = s.pe := rfl
@[simp] theorem State.modMot_loop (s : State) (x : Axis) (f : AxMot → AxMot) : (s.modMot x f).loop = s.loop := rfl
@[simp] theorem State.modMot_pos (s : State) (x : Axis) (f : AxMot → AxMot) : (s.modMot x f).pos = s.pos := rfl
@[simp] theorem State.modMot_mot (s : State) (x : Axis) (f : AxMot → AxMot) : (s.modMot x f).mot = s.mot.mod x f := rfl
@[simp] theorem State.modMot_sc (s : State) (x : Axis) (f : AxMot → AxMot) : (s.modMot x f).sc = s.sc := rfl
@[simp] theorem State.modMot_temp (s : State) (x : Axis) (f : AxMot → AxMot) : (s.modMot x f).temp = s.temp := rfl
@[simp] theorem State.modMot_chg (s : State) (x : Axis) (f : AxMot → AxMot) : (s.modMot x f).chg = s.chg := rfl
@[simp] theorem State.modMot_fram (s : State) (x : Axis) (f : AxMot → AxMot) : (s.modMot x f).fram = s.fram := rfl
@[simp] theorem State.modMot_log (s : State) (x : Axis) (f : AxMot → AxMot) : (s.modMot x f).log = s.log := rfl
@[simp] theorem State.modMot_otp (s : State) (x : Axis) (f : AxMot → AxMot) : (s.modMot x f).otp = s.otp := rfl
@[simp] theorem State.modMot_bus (s : State) (x : Axis) (f : AxMot → AxMot) : (s.modMot x f).bus = s.bus := rfl
@[simp] theorem State.modMot_pwr (s : State) (x : Axis) (f : AxMot → AxMot) : (s.modMot x f).pwr = s.pwr := rfl
@[simp] theorem State.modMot_faults (s : State) (x : Axis) (f : AxMot → AxMot) : (s.modMot x f).faults = s.faults := rfl
@[simp] theorem State.modMot_cnt (s : State) (x : Axis) (f : AxMot → AxMot) : (s.modMot x f).cnt = s.cnt := rfl
@[simp] theorem State.modMot_bundleWhy (s : State) (x : Axis) (f : AxMot → AxMot) : (s.modMot x f).bundleWhy = s.bundleWhy := rfl
@[simp] theorem State.modMot_bundleTick (s : State) (x : Axis) (f : AxMot → AxMot) : (s.modMot x f).bundleTick = s.bundleTick := rfl
@[simp] theorem State.modMot_tries (s : State) (x : Axis) (f : AxMot → AxMot) : (s.modMot x f).tries = s.tries := rfl
@[simp] theorem State.modMot_lockAt (s : State) (x : Axis) (f : AxMot → AxMot) : (s.modMot x f).lockAt = s.lockAt := rfl
@[simp] theorem State.modMot_fltN (s : State) (x : Axis) (f : AxMot → AxMot) : (s.modMot x f).fltN = s.fltN := rfl
@[simp] theorem State.modMot_vcEn (s : State) (x : Axis) (f : AxMot → AxMot) : (s.modMot x f).vcEn = s.vcEn := rfl
@[simp] theorem State.modMot_free (s : State) (x : Axis) (f : AxMot → AxMot) : (s.modMot x f).free = s.free := rfl
@[simp] theorem State.modMot_pending (s : State) (x : Axis) (f : AxMot → AxMot) : (s.modMot x f).pending = s.pending := rfl

/-! ### modPos -/

@[simp] theorem State.modPos_dev (s : State) (x : Axis) (f : AxPos → AxPos) : (s.modPos x f).dev = s.dev := rfl
@[simp] theorem State.modPos_cause (s : State) (x : Axis) (f : AxPos → AxPos) : (s.modPos x f).cause = s.cause := rfl
@[simp] theorem State.modPos_safe (s : State) (x : Axis) (f : AxPos → AxPos) : (s.modPos x f).safe = s.safe := rfl
@[simp] theorem State.modPos_boot (s : State) (x : Axis) (f : AxPos → AxPos) : (s.modPos x f).boot = s.boot := rfl
@[simp] theorem State.modPos_resetAt (s : State) (x : Axis) (f : AxPos → AxPos) : (s.modPos x f).resetAt = s.resetAt := rfl
@[simp] theorem State.modPos_bootAt (s : State) (x : Axis) (f : AxPos → AxPos) : (s.modPos x f).bootAt = s.bootAt := rfl
@[simp] theorem State.modPos_bootTime (s : State) (x : Axis) (f : AxPos → AxPos) : (s.modPos x f).bootTime = s.bootTime := rfl
@[simp] theorem State.modPos_mode (s : State) (x : Axis) (f : AxPos → AxPos) : (s.modPos x f).mode = s.mode := rfl
@[simp] theorem State.modPos_strap (s : State) (x : Axis) (f : AxPos → AxPos) : (s.modPos x f).strap = s.strap := rfl
@[simp] theorem State.modPos_inReset (s : State) (x : Axis) (f : AxPos → AxPos) : (s.modPos x f).inReset = s.inReset := rfl
@[simp] theorem State.modPos_ticking (s : State) (x : Axis) (f : AxPos → AxPos) : (s.modPos x f).ticking = s.ticking := rfl
@[simp] theorem State.modPos_first (s : State) (x : Axis) (f : AxPos → AxPos) : (s.modPos x f).first = s.first := rfl
@[simp] theorem State.modPos_tick (s : State) (x : Axis) (f : AxPos → AxPos) : (s.modPos x f).tick = s.tick := rfl
@[simp] theorem State.modPos_mtick (s : State) (x : Axis) (f : AxPos → AxPos) : (s.modPos x f).mtick = s.mtick := rfl
@[simp] theorem State.modPos_acc (s : State) (x : Axis) (f : AxPos → AxPos) : (s.modPos x f).acc = s.acc := rfl
@[simp] theorem State.modPos_msDue (s : State) (x : Axis) (f : AxPos → AxPos) : (s.modPos x f).msDue = s.msDue := rfl
@[simp] theorem State.modPos_ringDue (s : State) (x : Axis) (f : AxPos → AxPos) : (s.modPos x f).ringDue = s.ringDue := rfl
@[simp] theorem State.modPos_etime (s : State) (x : Axis) (f : AxPos → AxPos) : (s.modPos x f).etime = s.etime := rfl
@[simp] theorem State.modPos_etFrac (s : State) (x : Axis) (f : AxPos → AxPos) : (s.modPos x f).etFrac = s.etFrac := rfl
@[simp] theorem State.modPos_bounds (s : State) (x : Axis) (f : AxPos → AxPos) : (s.modPos x f).bounds = s.bounds := rfl
@[simp] theorem State.modPos_eclk (s : State) (x : Axis) (f : AxPos → AxPos) : (s.modPos x f).eclk = s.eclk := rfl
@[simp] theorem State.modPos_sess (s : State) (x : Axis) (f : AxPos → AxPos) : (s.modPos x f).sess = s.sess := rfl
@[simp] theorem State.modPos_host (s : State) (x : Axis) (f : AxPos → AxPos) : (s.modPos x f).host = s.host := rfl
@[simp] theorem State.modPos_prm (s : State) (x : Axis) (f : AxPos → AxPos) : (s.modPos x f).prm = s.prm := rfl
@[simp] theorem State.modPos_commit (s : State) (x : Axis) (f : AxPos → AxPos) : (s.modPos x f).commit = s.commit := rfl
@[simp] theorem State.modPos_link (s : State) (x : Axis) (f : AxPos → AxPos) : (s.modPos x f).link = s.link := rfl
@[simp] theorem State.modPos_pe (s : State) (x : Axis) (f : AxPos → AxPos) : (s.modPos x f).pe = s.pe := rfl
@[simp] theorem State.modPos_loop (s : State) (x : Axis) (f : AxPos → AxPos) : (s.modPos x f).loop = s.loop := rfl
@[simp] theorem State.modPos_pos (s : State) (x : Axis) (f : AxPos → AxPos) : (s.modPos x f).pos = s.pos.mod x f := rfl
@[simp] theorem State.modPos_mot (s : State) (x : Axis) (f : AxPos → AxPos) : (s.modPos x f).mot = s.mot := rfl
@[simp] theorem State.modPos_sc (s : State) (x : Axis) (f : AxPos → AxPos) : (s.modPos x f).sc = s.sc := rfl
@[simp] theorem State.modPos_temp (s : State) (x : Axis) (f : AxPos → AxPos) : (s.modPos x f).temp = s.temp := rfl
@[simp] theorem State.modPos_chg (s : State) (x : Axis) (f : AxPos → AxPos) : (s.modPos x f).chg = s.chg := rfl
@[simp] theorem State.modPos_fram (s : State) (x : Axis) (f : AxPos → AxPos) : (s.modPos x f).fram = s.fram := rfl
@[simp] theorem State.modPos_log (s : State) (x : Axis) (f : AxPos → AxPos) : (s.modPos x f).log = s.log := rfl
@[simp] theorem State.modPos_otp (s : State) (x : Axis) (f : AxPos → AxPos) : (s.modPos x f).otp = s.otp := rfl
@[simp] theorem State.modPos_bus (s : State) (x : Axis) (f : AxPos → AxPos) : (s.modPos x f).bus = s.bus := rfl
@[simp] theorem State.modPos_pwr (s : State) (x : Axis) (f : AxPos → AxPos) : (s.modPos x f).pwr = s.pwr := rfl
@[simp] theorem State.modPos_faults (s : State) (x : Axis) (f : AxPos → AxPos) : (s.modPos x f).faults = s.faults := rfl
@[simp] theorem State.modPos_cnt (s : State) (x : Axis) (f : AxPos → AxPos) : (s.modPos x f).cnt = s.cnt := rfl
@[simp] theorem State.modPos_bundleWhy (s : State) (x : Axis) (f : AxPos → AxPos) : (s.modPos x f).bundleWhy = s.bundleWhy := rfl
@[simp] theorem State.modPos_bundleTick (s : State) (x : Axis) (f : AxPos → AxPos) : (s.modPos x f).bundleTick = s.bundleTick := rfl
@[simp] theorem State.modPos_tries (s : State) (x : Axis) (f : AxPos → AxPos) : (s.modPos x f).tries = s.tries := rfl
@[simp] theorem State.modPos_lockAt (s : State) (x : Axis) (f : AxPos → AxPos) : (s.modPos x f).lockAt = s.lockAt := rfl
@[simp] theorem State.modPos_fltN (s : State) (x : Axis) (f : AxPos → AxPos) : (s.modPos x f).fltN = s.fltN := rfl
@[simp] theorem State.modPos_vcEn (s : State) (x : Axis) (f : AxPos → AxPos) : (s.modPos x f).vcEn = s.vcEn := rfl
@[simp] theorem State.modPos_free (s : State) (x : Axis) (f : AxPos → AxPos) : (s.modPos x f).free = s.free := rfl
@[simp] theorem State.modPos_pending (s : State) (x : Axis) (f : AxPos → AxPos) : (s.modPos x f).pending = s.pending := rfl

/-! ### modPax -/

@[simp] theorem State.modPax_dev (s : State) (x : Axis) (f : PAxis → PAxis) : (s.modPax x f).dev = s.dev := rfl
@[simp] theorem State.modPax_cause (s : State) (x : Axis) (f : PAxis → PAxis) : (s.modPax x f).cause = s.cause := rfl
@[simp] theorem State.modPax_safe (s : State) (x : Axis) (f : PAxis → PAxis) : (s.modPax x f).safe = s.safe := rfl
@[simp] theorem State.modPax_boot (s : State) (x : Axis) (f : PAxis → PAxis) : (s.modPax x f).boot = s.boot := rfl
@[simp] theorem State.modPax_resetAt (s : State) (x : Axis) (f : PAxis → PAxis) : (s.modPax x f).resetAt = s.resetAt := rfl
@[simp] theorem State.modPax_bootAt (s : State) (x : Axis) (f : PAxis → PAxis) : (s.modPax x f).bootAt = s.bootAt := rfl
@[simp] theorem State.modPax_bootTime (s : State) (x : Axis) (f : PAxis → PAxis) : (s.modPax x f).bootTime = s.bootTime := rfl
@[simp] theorem State.modPax_mode (s : State) (x : Axis) (f : PAxis → PAxis) : (s.modPax x f).mode = s.mode := rfl
@[simp] theorem State.modPax_strap (s : State) (x : Axis) (f : PAxis → PAxis) : (s.modPax x f).strap = s.strap := rfl
@[simp] theorem State.modPax_inReset (s : State) (x : Axis) (f : PAxis → PAxis) : (s.modPax x f).inReset = s.inReset := rfl
@[simp] theorem State.modPax_ticking (s : State) (x : Axis) (f : PAxis → PAxis) : (s.modPax x f).ticking = s.ticking := rfl
@[simp] theorem State.modPax_first (s : State) (x : Axis) (f : PAxis → PAxis) : (s.modPax x f).first = s.first := rfl
@[simp] theorem State.modPax_tick (s : State) (x : Axis) (f : PAxis → PAxis) : (s.modPax x f).tick = s.tick := rfl
@[simp] theorem State.modPax_mtick (s : State) (x : Axis) (f : PAxis → PAxis) : (s.modPax x f).mtick = s.mtick := rfl
@[simp] theorem State.modPax_acc (s : State) (x : Axis) (f : PAxis → PAxis) : (s.modPax x f).acc = s.acc := rfl
@[simp] theorem State.modPax_msDue (s : State) (x : Axis) (f : PAxis → PAxis) : (s.modPax x f).msDue = s.msDue := rfl
@[simp] theorem State.modPax_ringDue (s : State) (x : Axis) (f : PAxis → PAxis) : (s.modPax x f).ringDue = s.ringDue := rfl
@[simp] theorem State.modPax_etime (s : State) (x : Axis) (f : PAxis → PAxis) : (s.modPax x f).etime = s.etime := rfl
@[simp] theorem State.modPax_etFrac (s : State) (x : Axis) (f : PAxis → PAxis) : (s.modPax x f).etFrac = s.etFrac := rfl
@[simp] theorem State.modPax_bounds (s : State) (x : Axis) (f : PAxis → PAxis) : (s.modPax x f).bounds = s.bounds := rfl
@[simp] theorem State.modPax_eclk (s : State) (x : Axis) (f : PAxis → PAxis) : (s.modPax x f).eclk = s.eclk := rfl
@[simp] theorem State.modPax_sess (s : State) (x : Axis) (f : PAxis → PAxis) : (s.modPax x f).sess = s.sess := rfl
@[simp] theorem State.modPax_host (s : State) (x : Axis) (f : PAxis → PAxis) : (s.modPax x f).host = s.host := rfl
@[simp] theorem State.modPax_prm (s : State) (x : Axis) (f : PAxis → PAxis) : (s.modPax x f).prm = s.prm := rfl
@[simp] theorem State.modPax_commit (s : State) (x : Axis) (f : PAxis → PAxis) : (s.modPax x f).commit = s.commit := rfl
@[simp] theorem State.modPax_link (s : State) (x : Axis) (f : PAxis → PAxis) : (s.modPax x f).link = s.link := rfl
@[simp] theorem State.modPax_pe (s : State) (x : Axis) (f : PAxis → PAxis) : (s.modPax x f).pe = { s.pe with ax := s.pe.ax.mod x f } := rfl
@[simp] theorem State.modPax_loop (s : State) (x : Axis) (f : PAxis → PAxis) : (s.modPax x f).loop = s.loop := rfl
@[simp] theorem State.modPax_pos (s : State) (x : Axis) (f : PAxis → PAxis) : (s.modPax x f).pos = s.pos := rfl
@[simp] theorem State.modPax_mot (s : State) (x : Axis) (f : PAxis → PAxis) : (s.modPax x f).mot = s.mot := rfl
@[simp] theorem State.modPax_sc (s : State) (x : Axis) (f : PAxis → PAxis) : (s.modPax x f).sc = s.sc := rfl
@[simp] theorem State.modPax_temp (s : State) (x : Axis) (f : PAxis → PAxis) : (s.modPax x f).temp = s.temp := rfl
@[simp] theorem State.modPax_chg (s : State) (x : Axis) (f : PAxis → PAxis) : (s.modPax x f).chg = s.chg := rfl
@[simp] theorem State.modPax_fram (s : State) (x : Axis) (f : PAxis → PAxis) : (s.modPax x f).fram = s.fram := rfl
@[simp] theorem State.modPax_log (s : State) (x : Axis) (f : PAxis → PAxis) : (s.modPax x f).log = s.log := rfl
@[simp] theorem State.modPax_otp (s : State) (x : Axis) (f : PAxis → PAxis) : (s.modPax x f).otp = s.otp := rfl
@[simp] theorem State.modPax_bus (s : State) (x : Axis) (f : PAxis → PAxis) : (s.modPax x f).bus = s.bus := rfl
@[simp] theorem State.modPax_pwr (s : State) (x : Axis) (f : PAxis → PAxis) : (s.modPax x f).pwr = s.pwr := rfl
@[simp] theorem State.modPax_faults (s : State) (x : Axis) (f : PAxis → PAxis) : (s.modPax x f).faults = s.faults := rfl
@[simp] theorem State.modPax_cnt (s : State) (x : Axis) (f : PAxis → PAxis) : (s.modPax x f).cnt = s.cnt := rfl
@[simp] theorem State.modPax_bundleWhy (s : State) (x : Axis) (f : PAxis → PAxis) : (s.modPax x f).bundleWhy = s.bundleWhy := rfl
@[simp] theorem State.modPax_bundleTick (s : State) (x : Axis) (f : PAxis → PAxis) : (s.modPax x f).bundleTick = s.bundleTick := rfl
@[simp] theorem State.modPax_tries (s : State) (x : Axis) (f : PAxis → PAxis) : (s.modPax x f).tries = s.tries := rfl
@[simp] theorem State.modPax_lockAt (s : State) (x : Axis) (f : PAxis → PAxis) : (s.modPax x f).lockAt = s.lockAt := rfl
@[simp] theorem State.modPax_fltN (s : State) (x : Axis) (f : PAxis → PAxis) : (s.modPax x f).fltN = s.fltN := rfl
@[simp] theorem State.modPax_vcEn (s : State) (x : Axis) (f : PAxis → PAxis) : (s.modPax x f).vcEn = s.vcEn := rfl
@[simp] theorem State.modPax_free (s : State) (x : Axis) (f : PAxis → PAxis) : (s.modPax x f).free = s.free := rfl
@[simp] theorem State.modPax_pending (s : State) (x : Axis) (f : PAxis → PAxis) : (s.modPax x f).pending = s.pending := rfl

/-! ### modAn -/

@[simp] theorem State.modAn_dev (s : State) (f : PAnalog → PAnalog) : (s.modAn f).dev = s.dev := rfl
@[simp] theorem State.modAn_cause (s : State) (f : PAnalog → PAnalog) : (s.modAn f).cause = s.cause := rfl
@[simp] theorem State.modAn_safe (s : State) (f : PAnalog → PAnalog) : (s.modAn f).safe = s.safe := rfl
@[simp] theorem State.modAn_boot (s : State) (f : PAnalog → PAnalog) : (s.modAn f).boot = s.boot := rfl
@[simp] theorem State.modAn_resetAt (s : State) (f : PAnalog → PAnalog) : (s.modAn f).resetAt = s.resetAt := rfl
@[simp] theorem State.modAn_bootAt (s : State) (f : PAnalog → PAnalog) : (s.modAn f).bootAt = s.bootAt := rfl
@[simp] theorem State.modAn_bootTime (s : State) (f : PAnalog → PAnalog) : (s.modAn f).bootTime = s.bootTime := rfl
@[simp] theorem State.modAn_mode (s : State) (f : PAnalog → PAnalog) : (s.modAn f).mode = s.mode := rfl
@[simp] theorem State.modAn_strap (s : State) (f : PAnalog → PAnalog) : (s.modAn f).strap = s.strap := rfl
@[simp] theorem State.modAn_inReset (s : State) (f : PAnalog → PAnalog) : (s.modAn f).inReset = s.inReset := rfl
@[simp] theorem State.modAn_ticking (s : State) (f : PAnalog → PAnalog) : (s.modAn f).ticking = s.ticking := rfl
@[simp] theorem State.modAn_first (s : State) (f : PAnalog → PAnalog) : (s.modAn f).first = s.first := rfl
@[simp] theorem State.modAn_tick (s : State) (f : PAnalog → PAnalog) : (s.modAn f).tick = s.tick := rfl
@[simp] theorem State.modAn_mtick (s : State) (f : PAnalog → PAnalog) : (s.modAn f).mtick = s.mtick := rfl
@[simp] theorem State.modAn_acc (s : State) (f : PAnalog → PAnalog) : (s.modAn f).acc = s.acc := rfl
@[simp] theorem State.modAn_msDue (s : State) (f : PAnalog → PAnalog) : (s.modAn f).msDue = s.msDue := rfl
@[simp] theorem State.modAn_ringDue (s : State) (f : PAnalog → PAnalog) : (s.modAn f).ringDue = s.ringDue := rfl
@[simp] theorem State.modAn_etime (s : State) (f : PAnalog → PAnalog) : (s.modAn f).etime = s.etime := rfl
@[simp] theorem State.modAn_etFrac (s : State) (f : PAnalog → PAnalog) : (s.modAn f).etFrac = s.etFrac := rfl
@[simp] theorem State.modAn_bounds (s : State) (f : PAnalog → PAnalog) : (s.modAn f).bounds = s.bounds := rfl
@[simp] theorem State.modAn_eclk (s : State) (f : PAnalog → PAnalog) : (s.modAn f).eclk = s.eclk := rfl
@[simp] theorem State.modAn_sess (s : State) (f : PAnalog → PAnalog) : (s.modAn f).sess = s.sess := rfl
@[simp] theorem State.modAn_host (s : State) (f : PAnalog → PAnalog) : (s.modAn f).host = s.host := rfl
@[simp] theorem State.modAn_prm (s : State) (f : PAnalog → PAnalog) : (s.modAn f).prm = s.prm := rfl
@[simp] theorem State.modAn_commit (s : State) (f : PAnalog → PAnalog) : (s.modAn f).commit = s.commit := rfl
@[simp] theorem State.modAn_link (s : State) (f : PAnalog → PAnalog) : (s.modAn f).link = s.link := rfl
@[simp] theorem State.modAn_pe (s : State) (f : PAnalog → PAnalog) : (s.modAn f).pe = { s.pe with an := f s.pe.an } := rfl
@[simp] theorem State.modAn_loop (s : State) (f : PAnalog → PAnalog) : (s.modAn f).loop = s.loop := rfl
@[simp] theorem State.modAn_pos (s : State) (f : PAnalog → PAnalog) : (s.modAn f).pos = s.pos := rfl
@[simp] theorem State.modAn_mot (s : State) (f : PAnalog → PAnalog) : (s.modAn f).mot = s.mot := rfl
@[simp] theorem State.modAn_sc (s : State) (f : PAnalog → PAnalog) : (s.modAn f).sc = s.sc := rfl
@[simp] theorem State.modAn_temp (s : State) (f : PAnalog → PAnalog) : (s.modAn f).temp = s.temp := rfl
@[simp] theorem State.modAn_chg (s : State) (f : PAnalog → PAnalog) : (s.modAn f).chg = s.chg := rfl
@[simp] theorem State.modAn_fram (s : State) (f : PAnalog → PAnalog) : (s.modAn f).fram = s.fram := rfl
@[simp] theorem State.modAn_log (s : State) (f : PAnalog → PAnalog) : (s.modAn f).log = s.log := rfl
@[simp] theorem State.modAn_otp (s : State) (f : PAnalog → PAnalog) : (s.modAn f).otp = s.otp := rfl
@[simp] theorem State.modAn_bus (s : State) (f : PAnalog → PAnalog) : (s.modAn f).bus = s.bus := rfl
@[simp] theorem State.modAn_pwr (s : State) (f : PAnalog → PAnalog) : (s.modAn f).pwr = s.pwr := rfl
@[simp] theorem State.modAn_faults (s : State) (f : PAnalog → PAnalog) : (s.modAn f).faults = s.faults := rfl
@[simp] theorem State.modAn_cnt (s : State) (f : PAnalog → PAnalog) : (s.modAn f).cnt = s.cnt := rfl
@[simp] theorem State.modAn_bundleWhy (s : State) (f : PAnalog → PAnalog) : (s.modAn f).bundleWhy = s.bundleWhy := rfl
@[simp] theorem State.modAn_bundleTick (s : State) (f : PAnalog → PAnalog) : (s.modAn f).bundleTick = s.bundleTick := rfl
@[simp] theorem State.modAn_tries (s : State) (f : PAnalog → PAnalog) : (s.modAn f).tries = s.tries := rfl
@[simp] theorem State.modAn_lockAt (s : State) (f : PAnalog → PAnalog) : (s.modAn f).lockAt = s.lockAt := rfl
@[simp] theorem State.modAn_fltN (s : State) (f : PAnalog → PAnalog) : (s.modAn f).fltN = s.fltN := rfl
@[simp] theorem State.modAn_vcEn (s : State) (f : PAnalog → PAnalog) : (s.modAn f).vcEn = s.vcEn := rfl
@[simp] theorem State.modAn_free (s : State) (f : PAnalog → PAnalog) : (s.modAn f).free = s.free := rfl
@[simp] theorem State.modAn_pending (s : State) (f : PAnalog → PAnalog) : (s.modAn f).pending = s.pending := rfl

/-! ### modIsl -/

@[simp] theorem State.modIsl_dev (s : State) (f : Island → Island) : (s.modIsl f).dev = s.dev := rfl
@[simp] theorem State.modIsl_cause (s : State) (f : Island → Island) : (s.modIsl f).cause = s.cause := rfl
@[simp] theorem State.modIsl_safe (s : State) (f : Island → Island) : (s.modIsl f).safe = s.safe := rfl
@[simp] theorem State.modIsl_boot (s : State) (f : Island → Island) : (s.modIsl f).boot = s.boot := rfl
@[simp] theorem State.modIsl_resetAt (s : State) (f : Island → Island) : (s.modIsl f).resetAt = s.resetAt := rfl
@[simp] theorem State.modIsl_bootAt (s : State) (f : Island → Island) : (s.modIsl f).bootAt = s.bootAt := rfl
@[simp] theorem State.modIsl_bootTime (s : State) (f : Island → Island) : (s.modIsl f).bootTime = s.bootTime := rfl
@[simp] theorem State.modIsl_mode (s : State) (f : Island → Island) : (s.modIsl f).mode = s.mode := rfl
@[simp] theorem State.modIsl_strap (s : State) (f : Island → Island) : (s.modIsl f).strap = s.strap := rfl
@[simp] theorem State.modIsl_inReset (s : State) (f : Island → Island) : (s.modIsl f).inReset = s.inReset := rfl
@[simp] theorem State.modIsl_ticking (s : State) (f : Island → Island) : (s.modIsl f).ticking = s.ticking := rfl
@[simp] theorem State.modIsl_first (s : State) (f : Island → Island) : (s.modIsl f).first = s.first := rfl
@[simp] theorem State.modIsl_tick (s : State) (f : Island → Island) : (s.modIsl f).tick = s.tick := rfl
@[simp] theorem State.modIsl_mtick (s : State) (f : Island → Island) : (s.modIsl f).mtick = s.mtick := rfl
@[simp] theorem State.modIsl_acc (s : State) (f : Island → Island) : (s.modIsl f).acc = s.acc := rfl
@[simp] theorem State.modIsl_msDue (s : State) (f : Island → Island) : (s.modIsl f).msDue = s.msDue := rfl
@[simp] theorem State.modIsl_ringDue (s : State) (f : Island → Island) : (s.modIsl f).ringDue = s.ringDue := rfl
@[simp] theorem State.modIsl_etime (s : State) (f : Island → Island) : (s.modIsl f).etime = s.etime := rfl
@[simp] theorem State.modIsl_etFrac (s : State) (f : Island → Island) : (s.modIsl f).etFrac = s.etFrac := rfl
@[simp] theorem State.modIsl_bounds (s : State) (f : Island → Island) : (s.modIsl f).bounds = s.bounds := rfl
@[simp] theorem State.modIsl_eclk (s : State) (f : Island → Island) : (s.modIsl f).eclk = s.eclk := rfl
@[simp] theorem State.modIsl_sess (s : State) (f : Island → Island) : (s.modIsl f).sess = s.sess := rfl
@[simp] theorem State.modIsl_host (s : State) (f : Island → Island) : (s.modIsl f).host = s.host := rfl
@[simp] theorem State.modIsl_prm (s : State) (f : Island → Island) : (s.modIsl f).prm = s.prm := rfl
@[simp] theorem State.modIsl_commit (s : State) (f : Island → Island) : (s.modIsl f).commit = s.commit := rfl
@[simp] theorem State.modIsl_link (s : State) (f : Island → Island) : (s.modIsl f).link = s.link := rfl
@[simp] theorem State.modIsl_pe (s : State) (f : Island → Island) : (s.modIsl f).pe = { s.pe with isl := f s.pe.isl } := rfl
@[simp] theorem State.modIsl_loop (s : State) (f : Island → Island) : (s.modIsl f).loop = s.loop := rfl
@[simp] theorem State.modIsl_pos (s : State) (f : Island → Island) : (s.modIsl f).pos = s.pos := rfl
@[simp] theorem State.modIsl_mot (s : State) (f : Island → Island) : (s.modIsl f).mot = s.mot := rfl
@[simp] theorem State.modIsl_sc (s : State) (f : Island → Island) : (s.modIsl f).sc = s.sc := rfl
@[simp] theorem State.modIsl_temp (s : State) (f : Island → Island) : (s.modIsl f).temp = s.temp := rfl
@[simp] theorem State.modIsl_chg (s : State) (f : Island → Island) : (s.modIsl f).chg = s.chg := rfl
@[simp] theorem State.modIsl_fram (s : State) (f : Island → Island) : (s.modIsl f).fram = s.fram := rfl
@[simp] theorem State.modIsl_log (s : State) (f : Island → Island) : (s.modIsl f).log = s.log := rfl
@[simp] theorem State.modIsl_otp (s : State) (f : Island → Island) : (s.modIsl f).otp = s.otp := rfl
@[simp] theorem State.modIsl_bus (s : State) (f : Island → Island) : (s.modIsl f).bus = s.bus := rfl
@[simp] theorem State.modIsl_pwr (s : State) (f : Island → Island) : (s.modIsl f).pwr = s.pwr := rfl
@[simp] theorem State.modIsl_faults (s : State) (f : Island → Island) : (s.modIsl f).faults = s.faults := rfl
@[simp] theorem State.modIsl_cnt (s : State) (f : Island → Island) : (s.modIsl f).cnt = s.cnt := rfl
@[simp] theorem State.modIsl_bundleWhy (s : State) (f : Island → Island) : (s.modIsl f).bundleWhy = s.bundleWhy := rfl
@[simp] theorem State.modIsl_bundleTick (s : State) (f : Island → Island) : (s.modIsl f).bundleTick = s.bundleTick := rfl
@[simp] theorem State.modIsl_tries (s : State) (f : Island → Island) : (s.modIsl f).tries = s.tries := rfl
@[simp] theorem State.modIsl_lockAt (s : State) (f : Island → Island) : (s.modIsl f).lockAt = s.lockAt := rfl
@[simp] theorem State.modIsl_fltN (s : State) (f : Island → Island) : (s.modIsl f).fltN = s.fltN := rfl
@[simp] theorem State.modIsl_vcEn (s : State) (f : Island → Island) : (s.modIsl f).vcEn = s.vcEn := rfl
@[simp] theorem State.modIsl_free (s : State) (f : Island → Island) : (s.modIsl f).free = s.free := rfl
@[simp] theorem State.modIsl_pending (s : State) (f : Island → Island) : (s.modIsl f).pending = s.pending := rfl

/-! ### Containers -/

@[simp] theorem Pair.get_mod_same {α : Type} (p : Pair α) (x : Axis) (f : α → α) : (p.mod x f).get x = f (p.get x) := by
  cases x <;> rfl

theorem Pair.get_mod_other {α : Type} (p : Pair α) {x y : Axis} (f : α → α) (h : y ≠ x) : (p.mod x f).get y = p.get y := by
  cases x <;> cases y <;> first | rfl | exact absurd rfl h

@[simp] theorem Tri.get_mod_same {α : Type} (t : Tri α) (p : Phase) (f : α → α) : (t.mod p f).get p = f (t.get p) := by
  cases p <;> rfl

theorem Tri.get_mod_other {α : Type} (t : Tri α) {p q : Phase} (f : α → α) (h : q ≠ p) : (t.mod p f).get q = t.get q := by
  cases p <;> cases q <;> first | rfl | exact absurd rfl h

@[simp] theorem Five.get_mod_same {α : Type} (v : Five α) (x : Sess) (f : α → α) : (v.mod x f).get x = f (v.get x) := by
  cases x <;> rfl

theorem Five.get_mod_other {α : Type} (v : Five α) {x y : Sess} (f : α → α) (h : y ≠ x) : (v.mod x f).get y = v.get y := by
  cases x <;> cases y <;> first | rfl | exact absurd rfl h

@[simp] theorem State.ses_modSes (s : State) (x : Sess) (f : Session → Session) : (s.modSes x f).ses x = f (s.ses x) :=
  Five.get_mod_same s.sess x f

theorem State.ses_modSes_other (s : State) {x y : Sess} (f : Session → Session) (h : y ≠ x) :
    (s.modSes x f).ses y = s.ses y := Five.get_mod_other s.sess f h

@[simp] theorem State.ses_modHost (s : State) (f : HostCore → HostCore) (y : Sess) : (s.modHost f).ses y = s.ses y := rfl
@[simp] theorem State.ses_modLink (s : State) (f : ALink → ALink) (y : Sess) : (s.modLink f).ses y = s.ses y := rfl
@[simp] theorem State.ses_modPe (s : State) (f : Peony → Peony) (y : Sess) : (s.modPe f).ses y = s.ses y := rfl
@[simp] theorem State.ses_modFram (s : State) (f : Fram → Fram) (y : Sess) : (s.modFram f).ses y = s.ses y := rfl
@[simp] theorem State.ses_modLog (s : State) (f : LogState → LogState) (y : Sess) : (s.modLog f).ses y = s.ses y := rfl
@[simp] theorem State.ses_modOtp (s : State) (f : Otp → Otp) (y : Sess) : (s.modOtp f).ses y = s.ses y := rfl
@[simp] theorem State.ses_modBus (s : State) (f : Bus → Bus) (y : Sess) : (s.modBus f).ses y = s.ses y := rfl
@[simp] theorem State.ses_modPwr (s : State) (f : Power → Power) (y : Sess) : (s.modPwr f).ses y = s.ses y := rfl
@[simp] theorem State.ses_modChg (s : State) (f : Charger → Charger) (y : Sess) : (s.modChg f).ses y = s.ses y := rfl
@[simp] theorem State.ses_modLoop (s : State) (x : Axis) (f : AxLoop → AxLoop) (y : Sess) : (s.modLoop x f).ses y = s.ses y := rfl
@[simp] theorem State.ses_modMot (s : State) (x : Axis) (f : AxMot → AxMot) (y : Sess) : (s.modMot x f).ses y = s.ses y := rfl
@[simp] theorem State.ses_modPos (s : State) (x : Axis) (f : AxPos → AxPos) (y : Sess) : (s.modPos x f).ses y = s.ses y := rfl
@[simp] theorem State.ses_modPax (s : State) (x : Axis) (f : PAxis → PAxis) (y : Sess) : (s.modPax x f).ses y = s.ses y := rfl
@[simp] theorem State.ses_modAn (s : State) (f : PAnalog → PAnalog) (y : Sess) : (s.modAn f).ses y = s.ses y := rfl
@[simp] theorem State.ses_modIsl (s : State) (f : Island → Island) (y : Sess) : (s.modIsl f).ses y = s.ses y := rfl

end Sys2Proof.Machine
end

