-- ==== Sys2Proof/Laws/Ops.lean ====
section
/-! SUPPORT. What the shared operations do: memory, stores and time, replies, data lines and waits of a session. -/

namespace Sys2Proof.Machine

open Sys2Proof.Safety

/-! ### Memory -/

theorem memFrom_weaken {m : Memory} {l l' : Nat} (h : l' ≤ l) (w : memFrom (some l) m = true) : memFrom (some l') m = true := by
  cases m with
  | nil => rfl
  | cons c r =>
    simp only [memFrom, Bool.and_eq_true, decide_eq_true_eq] at *
    exact ⟨⟨by omega, w.1.2⟩, w.2⟩

theorem memFrom_none {m : Memory} {l : Nat} (w : memFrom (some l) m = true) : memFrom none m = true := by
  cases m with
  | nil => rfl
  | cons c r =>
    simp only [memFrom, Bool.and_eq_true] at *
    exact ⟨⟨trivial, w.1.2⟩, w.2⟩

theorem memWrite_from (m : Memory) (a : Nat) (x : Byte) : ∀ l, (∀ k, l = some k → k < a) → memFrom l m = true →
    memFrom l (memWrite m a x) = true := by
  induction m with
  | nil =>
    intro l hl _
    by_cases hx : x = 0#8
    · simp [memWrite, hx, memFrom]
    · cases l with
      | none => simp [memWrite, hx, memFrom]
      | some k => simp [memWrite, hx, memFrom, hl k rfl]
  | cons c r ih =>
    obtain ⟨k, b⟩ := c
    intro l hl hw
    have hw' := hw
    simp only [memFrom, Bool.and_eq_true, bne_iff_ne, ne_eq] at hw'
    have hb : ¬b = 0#8 := hw'.1.2
    by_cases h1 : a < k
    · by_cases hx : x = 0#8
      · simp [memWrite, h1, hx, hw]
      · cases l with
        | none => simp [memWrite, h1, hx, memFrom, hb, hw'.2]
        | some j => simp [memWrite, h1, hx, memFrom, hb, hw'.2, hl j rfl]
    · by_cases h2 : a = k
      · subst h2
        by_cases hx : x = 0#8
        · simp only [memWrite, hx, if_true, Nat.lt_irrefl, if_false]
          cases l with
          | none => exact memFrom_none hw'.2
          | some j => exact memFrom_weaken (Nat.le_of_lt (by simpa using hw'.1.1)) hw'.2
        · cases l with
          | none => simp [memWrite, hx, memFrom, hw'.2]
          | some j => simp [memWrite, hx, memFrom, hw'.2, hl j rfl]
      · simp only [memWrite, h1, h2, if_false, memFrom, Bool.and_eq_true, bne_iff_ne, ne_eq]
        exact ⟨⟨hw'.1.1, hw'.1.2⟩, ih (some k) (by intro j hj; cases hj; omega) hw'.2⟩

/-- Writing a byte keeps the canonical form. -/
theorem memWrite_wf {m : Memory} (a : Nat) (x : Byte) (h : Memory.wf m = true) : Memory.wf (memWrite m a x) = true :=
  memWrite_from m a x none (by simp) h

/-- Writing bytes keeps the canonical form. -/
theorem memWrites_wf (bs : List Byte) : ∀ {m : Memory} (a : Nat), Memory.wf m = true → Memory.wf (memWrites m a bs) = true := by
  induction bs with
  | nil => intro m a h; exact h
  | cons b r ih => intro m a h; exact ih (a + 1) (memWrite_wf a b h)

theorem memRead_below {m : Memory} {l a : Nat} (h : memFrom (some l) m = true) (ha : a ≤ l) : memRead m a = 0 := by
  induction m generalizing l with
  | nil => rfl
  | cons c r ih =>
    simp only [memFrom, Bool.and_eq_true, decide_eq_true_eq] at h
    have : c.1 ≠ a := by omega
    simp only [memRead, this, if_false]
    exact ih h.2 (by omega)

/-- A byte reads as written, and every other byte as before. -/
theorem memRead_memWrite {m : Memory} (a : Nat) (x : Byte) (h : Memory.wf m = true) (b : Nat) :
    memRead (memWrite m a x) b = if b = a then x else memRead m b := by
  unfold Memory.wf at h
  generalize hl : (none : Option Nat) = l at h
  clear hl
  induction m generalizing l with
  | nil =>
    by_cases hx : x = 0#8
    · by_cases hb : b = a <;> simp [memWrite, memRead, hx]
    · by_cases hb : b = a
      · simp [memWrite, memRead, hx, hb]
      · simp [memWrite, memRead, hx, hb, Ne.symm hb]
  | cons c r ih =>
    obtain ⟨k, v⟩ := c
    simp only [memFrom, Bool.and_eq_true] at h
    by_cases h1 : a < k
    · by_cases hx : x = 0#8
      · by_cases hb : b = a
        · subst hb
          have hk : k ≠ b := by omega
          simp [memWrite, h1, hx, memRead, hk, memRead_below h.2 (Nat.le_of_lt h1)]
        · simp [memWrite, h1, hx, hb]
      · by_cases hb : b = a
        · simp [memWrite, h1, hx, memRead, hb]
        · simp [memWrite, h1, hx, memRead, hb, Ne.symm hb]
    · by_cases h2 : a = k
      · subst h2
        by_cases hx : x = 0#8
        · by_cases hb : b = a
          · subst hb; simp [memWrite, hx, memRead_below h.2 (Nat.le_refl _)]
          · simp [memWrite, hx, memRead, hb, Ne.symm hb]
        · by_cases hb : b = a
          · simp [memWrite, hx, memRead, hb]
          · simp [memWrite, hx, memRead, hb, Ne.symm hb]
      · simp only [memWrite, h1, h2, if_false, memRead]
        by_cases hk : k = b
        · have : b ≠ a := by omega
          simp [hk, this]
        · simp [hk, ih _ h.2]

/-! ### Conditional and repeated updates -/

@[simp] theorem when_true (f : State → State) (s : State) : when_ true f s = f s := rfl
@[simp] theorem when_false (f : State → State) (s : State) : when_ false f s = s := rfl
@[simp] theorem forAll_nil {α : Type} (f : α → State → State) (s : State) : forAll [] f s = s := rfl
@[simp] theorem forAll_cons {α : Type} (a : α) (l : List α) (f : α → State → State) (s : State) :
    forAll (a :: l) f s = forAll l f (f a s) := rfl

/-! ### Replies -/

/-- A reply changes the output of its session only. -/
theorem emit_only (x : Sess) (t : W32) (r : Text) (s : State) : OnlySession x s (emit x t r s) := by
  unfold emit OnlySession OnlySessions OthersKept
  split <;> exact ⟨rfl, fun y h => State.ses_modSes_other s _ h⟩

/-- The reply stands last in the output of its session. -/
theorem emit_last (x : Sess) (t : W32) (r : Text) (s : State) : lastLine ((emit x t r s).ses x) = some (r ++ crlf) := by
  unfold emit
  split
  · simp [lastLine]
  · rename_i h
    have hd : ∀ (ns : List Notice) (se : Session), (ns.foldl placeNotice se).held = se.held := by
      intro ns
      induction ns with
      | nil => intro se; rfl
      | cons n r ih => intro se; rw [List.foldl_cons, ih]; rfl
    have h1 : (s.ses x).held = [] := by
      unfold holdsReply at h
      cases hh : (s.ses x).held with
      | nil => rfl
      | cons a b => simp [hh] at h
    have h2 : (drainNotices (s.ses x)).held = [] := by
      unfold drainNotices
      rw [hd]; exact h1
    simp [lastLine, h2]

/-- An answer ends the line of its session and changes nothing outside that session. -/
theorem answer_only (k : Call) (t : Text) (s : State) : OnlySession k.x s (answer k t s) := by
  unfold answer
  simp only
  split
  · exact ⟨rfl, fun y h => State.ses_modSes_other s _ h⟩
  · have e := emit_only k.x k.line.tick (frameReply k.line.frame t) s
    refine ⟨?_, fun y h => ?_⟩
    · unfold OnlySessions
      have e1 := e.1
      unfold OnlySessions at e1
      rw [e1]
      rfl
    · rw [State.ses_modSes_other _ _ h]; exact e.2 y h

/-- An answer of an open session ends its line, and the reply stands last in its output. -/
theorem answer_spec (k : Call) (t : Text) (s : State) (h : (s.ses k.x).isOpen = true) :
    ((answer k t s).ses k.x).running = none ∧ lastLine ((answer k t s).ses k.x) = some (frameReply k.line.frame t ++ crlf) := by
  have e := emit_last k.x k.line.tick (frameReply k.line.frame t) s
  unfold answer
  simp only [h, Bool.not_true, Bool.false_eq_true, if_false, State.ses_modSes]
  constructor
  · split
    · split <;> rfl
    · rfl
  · rw [← e]
    split
    · split <;> rfl
    · rfl

theorem lineOnly_refl (se : Session) : LineOnly se se := rfl

theorem lineOnly_trans {a b c : Session} (h : LineOnly a b) (g : LineOnly b c) : LineOnly a c := by
  unfold LineOnly at *
  rw [g, h]

theorem drain_only (se : Session) : LineOnly se (drainNotices se) := by
  have hd : ∀ (ns : List Notice) (se : Session), ∃ o, ns.foldl placeNotice se = { se with out := o } := by
    intro ns
    induction ns with
    | nil => intro se; exact ⟨se.out, rfl⟩
    | cons n r ih => intro se; obtain ⟨o, ho⟩ := ih (placeNotice se n); exact ⟨o, by rw [List.foldl_cons, ho]; rfl⟩
  obtain ⟨o, ho⟩ := hd se.notices { se with notices := [] }
  unfold drainNotices LineOnly
  rw [ho]

/-- A reply changes the output of its session, and the notices that go before it. -/
theorem emit_line (x : Sess) (t : W32) (r : Text) (s : State) : LineOnly (s.ses x) ((emit x t r s).ses x) := by
  unfold emit
  split
  · rw [State.ses_modSes]; rfl
  · rw [State.ses_modSes]; exact lineOnly_trans (drain_only _) rfl

/-- A reply leaves its session open. -/
theorem emit_isOpen (x : Sess) (t : W32) (r : Text) (s : State) : ((emit x t r s).ses x).isOpen = (s.ses x).isOpen := by
  have h := emit_line x t r s
  unfold LineOnly at h
  rw [h]

/-- What an answer of a line without a seq leaves of its session: all but the line and its output (R141). -/
theorem answer_line (k : Call) (t : Text) (s : State) (he : k.line.enter = false) (hf : ∀ n c, k.line.frame ≠ .seq n c) :
    LineOnly (s.ses k.x) ((answer k t s).ses k.x) := by
  unfold answer
  simp only
  split
  · rw [State.ses_modSes]; rfl
  · rw [State.ses_modSes]
    refine lineOnly_trans (emit_line k.x k.line.tick (frameReply k.line.frame t) s) ?_
    cases hk : k.line.frame with
    | seq n c => exact absurd hk (hf n c)
    | plain => unfold LineOnly; simp [he]
    | noSeq => unfold LineOnly; simp [he]

/-! ### Lines that start -/

theorem directFrame_noSeq (se : Session) (n : Nat) (c : Option W16) : directFrame se ≠ .seq n c := by
  unfold directFrame; split <;> simp

theorem onlySession_refl (x : Sess) (s : State) : OnlySession x s s := ⟨rfl, fun _ _ => rfl⟩

theorem onlySession_trans {x : Sess} {s t u : State} (h : OnlySession x s t) (g : OnlySession x t u) : OnlySession x s u := by
  refine ⟨?_, fun y hy => by rw [g.2 y hy, h.2 y hy]⟩
  have h1 := h.1
  have g1 := g.1
  unfold OnlySessions at *
  rw [g1, h1]

/-- The receipt of a line changes the time of its session only. -/
theorem lineHeard_line (x : Sess) (s : State) : LineOnly (s.ses x) ((lineHeard x s).ses x) := by
  unfold lineHeard
  rw [State.ses_modSes]; rfl

theorem lineHeard_only (x : Sess) (s : State) : OnlySession x s (lineHeard x s) :=
  ⟨rfl, fun _ h => State.ses_modSes_other s _ h⟩

theorem lineHeard_isOpen (x : Sess) (s : State) : ((lineHeard x s).ses x).isOpen = (s.ses x).isOpen := by
  unfold lineHeard
  rw [State.ses_modSes]

/-- A line that starts now runs its command. -/
theorem direct_ready {x : Sess} {s : State} (h : Ready x s) (w : String) (f : Call → State → State) :
    ∃ l : RxLine, l.frame = directFrame (s.ses x) ∧ l.enter = false ∧
      direct x w f s = .next (f { x := x, line := l, word := txt w, tick := s.tick } (lineHeard x s)) := by
  obtain ⟨h1, h2, h3⟩ := h
  exact ⟨_, rfl, rfl, by simp [direct, h1, h2, h3]; rfl⟩

/-- The answer of a line that starts now. -/
theorem answered_of {x : Sess} {s : State} {l : RxLine} (w : Text) (h : Ready x s) (hf : l.frame = directFrame (s.ses x))
    (he : l.enter = false) (t : Text) :
    Answered x t (s.ses x) s (answer { x := x, line := l, word := w, tick := s.tick } t (lineHeard x s)) := by
  have h1 := answer_spec { x := x, line := l, word := w, tick := s.tick } t (lineHeard x s) ((lineHeard_isOpen x s).trans h.2.1)
  have hn : ∀ n c, l.frame ≠ .seq n c := by rw [hf]; exact directFrame_noSeq _
  refine ⟨h1.1, ?_, lineOnly_trans (lineHeard_line x s) (answer_line { x := x, line := l, word := w, tick := s.tick } t _ he hn),
    onlySession_trans (lineHeard_only x s) (answer_only { x := x, line := l, word := w, tick := s.tick } t _)⟩
  rw [← hf]; exact h1.2

/-- A line that waits: the session runs it, and nothing else changes. -/
theorem waitFor_spec (k : Call) (w : Wait) (s : State) : Started k.x w s (waitFor k w s) := by
  unfold waitFor Started
  refine ⟨by simp, ?_, rfl, fun y h => State.ses_modSes_other s _ h⟩
  rw [State.ses_modSes]; rfl

/-- A change of one session changes that session only. -/
theorem modSes_only (x : Sess) (f : Session → Session) (s : State) : OnlySession x s (s.modSes x f) :=
  ⟨rfl, fun _ h => State.ses_modSes_other s f h⟩

/-- A data line changes the output of its session, and marks that it has had one. -/
theorem dataLine_only (k : Call) (d : Text) (s : State) : OnlySession k.x s (dataLine k d s) :=
  onlySession_trans (modSes_only k.x _ s) (emit_only k.x _ _ _)

theorem dataLine_line (k : Call) (d : Text) (s : State) : LineOnly (s.ses k.x) ((dataLine k d s).ses k.x) := by
  refine lineOnly_trans ?_ (emit_line k.x k.line.tick (frameReply k.line.frame ('|' :: ' ' :: d)) _)
  rw [State.ses_modSes]; rfl

theorem dataLine_isOpen (k : Call) (d : Text) (s : State) : ((dataLine k d s).ses k.x).isOpen = (s.ses k.x).isOpen := by
  have h := dataLine_line k d s
  unfold LineOnly at h
  rw [h]

/-- Data lines and a final reply of a line without a seq: all are placed and the line ends, or the rest waits for room
(R108, R149). -/
theorem emitData_spec (k : Call) (fin : Text) (he : k.line.enter = false) (hf : ∀ n c, k.line.frame ≠ .seq n c)
    (ds : List Text) : ∀ s : State, (s.ses k.x).isOpen = true →
    LineOnly (s.ses k.x) ((emitData k ds fin s).ses k.x) ∧ OnlySession k.x s (emitData k ds fin s) ∧
    ((((emitData k ds fin s).ses k.x).running = none ∧
        lastLine ((emitData k ds fin s).ses k.x) = some (frameReply k.line.frame fin ++ crlf)) ∨
      ∃ shown rest, ds = shown ++ rest ∧ rest ≠ [] ∧
        ((emitData k ds fin s).ses k.x).running.map (·.wait) = some (.chunk rest fin)) := by
  induction ds with
  | nil => intro s h; exact ⟨answer_line k fin s he hf, answer_only k fin s, .inl (answer_spec k fin s h)⟩
  | cons d r ih =>
    intro s h
    unfold emitData
    split
    · have w := waitFor_spec k (.chunk (d :: r) fin) s
      exact ⟨w.2.1, w.2.2, .inr ⟨[], d :: r, rfl, by simp, w.1⟩⟩
    · have e := dataLine_only k d s
      have g := dataLine_line k d s
      obtain ⟨h0, h1, h2⟩ := ih _ ((dataLine_isOpen k d s).trans h)
      refine ⟨lineOnly_trans g h0, onlySession_trans e h1, ?_⟩
      rcases h2 with h2 | ⟨shown, rest, hr, hn, hw⟩
      · exact .inl h2
      · exact .inr ⟨d :: shown, rest, by rw [hr]; rfl, hn, hw⟩

/-- The data lines of a line that starts now. -/
theorem givesData_of {x : Sess} {s : State} {l : RxLine} (w : Text) (h : Ready x s) (hf : l.frame = directFrame (s.ses x))
    (he : l.enter = false) (ds : List Text) :
    GivesData x ds s (emitData { x := x, line := l, word := w, tick := s.tick } ds (txt "ok") (lineHeard x s)) := by
  have hn : ∀ n c, l.frame ≠ .seq n c := by rw [hf]; exact directFrame_noSeq _
  have r := emitData_spec { x := x, line := l, word := w, tick := s.tick } (txt "ok") he hn ds (lineHeard x s)
    ((lineHeard_isOpen x s).trans h.2.1)
  simp only [hf] at r
  exact ⟨lineOnly_trans (lineHeard_line x s) r.1, onlySession_trans (lineHeard_only x s) r.2.1, r.2.2⟩

end Sys2Proof.Machine
end

