-- ==== Sys2Proof/WellFormed.lean ====
section
/-! DEFINITION. The commands whose operands have the shape that the spec gives what they carry: lists of converter
results and frames at their length, numbers in their field. The meanings are total and need none of these. -/

namespace Sys2Proof

/-- The length of an UT and of a UC segment (Tables 3-3, 3-6), and of a DOWN frame (Table 3-7). -/
def segmentLen : Nat := 30
def downLen : Nat := 48

/-- The length of a training header and of a training reply (Table 3-2). -/
def headerLen : Nat := 11
def replyLen : Nat := 7

/-- The length of a cycle-start frame and of the longest slot frame (Tables 16-1, 16-2). -/
def csfLen : Nat := 10
def slotFrameLen : Nat := 39

/-- Whether a reference to a parameter has an ID of 16 bits (R143). -/
def ParRef.wellFormed : ParRef → Bool
  | .id n _ => n < 65536
  | .name _ _ => true

/-- Whether the operands of a command have their shape. -/
def Instr.wellFormed : Instr → Bool
  | .get _ p => p.wellFormed
  | .set _ p _ => p.wellFormed
  | .stage _ p _ => p.wellFormed
  | .info _ p => p.wellFormed
  | .move _ _ p => p < 8
  | .otpRead _ w => w ≤ 0x200
  | .otpBurn _ w _ => w < 0x200
  | .at _ n _ => n < 32
  | .tickReload aux => aux.length == 8
  | .centreSample ph _ _ _ => ph.length == 6
  | .utSegment n => n.length ≤ segmentLen
  | .ucSegment n => n.length ≤ segmentLen
  | .deltaBlock _ es => es.length == 31
  | .deltaRun _ _ d => d.length == 29
  | .deltaControl es => es.length == 32
  | .verdictToken _ l => l.noise.length ≤ downLen
  | .trainingHeader n => n.length ≤ headerLen
  | .trainingReply n => n.length ≤ replyLen
  | .cycleStartFrame bs _ _ => bs.length == csfLen
  | .slotFrame bs _ _ _ => 7 ≤ bs.length && bs.length ≤ slotFrameLen
  | .quadEdge _ _ _ c => c < 4294967296
  | .hallChange _ _ c => c < 4294967296
  | .indexEdge _ e => e.clk < 4294967296
  | .latchEvent _ _ e => e.clk < 4294967296
  | _ => true

end Sys2Proof
end

