-- ==== Sys2Proof/Tests/Slice0.lean ====
section
/-! SUPPORT. Tests of the model: each check of WellFormed refuses an ill-formed command; for each statement with hypotheses a
named theorem shows concrete states and operands that meet them, clause by clause; worked examples of the spec. -/

/-- A state with values of parameters in force. -/
def Sys2Proof.Machine.State.withPar (s : Sys2Proof.Machine.State) (l : List (Nat × Int)) : Sys2Proof.Machine.State :=
  { s with prm := { s.prm with now := l.foldl (fun m e => Sys2Proof.Machine.storePut m e.1 e.2) s.prm.now } }

set_option Elab.async false

namespace Sys2Proof.Tests

open Sys2Proof.Machine Sys2Proof.Safety

/-! ### States that the tests start from -/

/-- The part in RUN with ticks, the link up and session H ready for a line. -/
def live : State := { State.reset with
  dev := .run, boot := .done, inReset := false, ticking := true, tick := 100, mtick := 50, etime := 3000000, fltN := false,
  host := { HostCore.reset with deaf := false, rts := false },
  link := { ALink.reset with up := true, flt := false, low := false, aux := List.replicate 8 0, conv := List.replicate 16 0 },
  pe := { Peony.reset with linked := true, nck := true, wrow := some 7, an := { PAnalog.reset with uvlo := false } } }

/-- The part with session H at a level. -/
def lv (l : Level) : State := live.modSes .h fun h => { h with isOpen := true, level := l }

/-- Changes session H. -/
def ms (s : State) (f : Session → Session) : State := s.modSes .h f

/-- A parameter of the table. -/
def parOf (i : Nat) : Par := match parById i with
  | some p => p
  | none => { id := 0, name := "", kind := .bool, unit := uNone, lo := 0, hi := 0, dflt := 0, write := none, eff := .now, vol := true }


/-! ### WellFormed refuses an ill-formed command, and takes the boundary of each check -/

theorem test_wellFormed_refuses_references :
    (Instr.get .h (.id 65536 false)).wellFormed = false ∧ (Instr.set .h (.id 65536 true) []).wellFormed = false ∧
    (Instr.stage .t1 (.id 65536 false) []).wellFormed = false ∧ (Instr.info .h (.id 65536 false)).wellFormed = false := by decide

theorem test_wellFormed_refuses_numbers :
    (Instr.move .h .a 8).wellFormed = false ∧ (Instr.otpRead .h 0x201).wellFormed = false ∧
    (Instr.otpBurn .h 0x200 0).wellFormed = false ∧ (Instr.at .h 32 []).wellFormed = false ∧
    (Instr.quadEdge .a ⟨true, 5⟩ ⟨false, 5⟩ 4294967296).wellFormed = false ∧ (Instr.hallChange .a ⟨1, 5, 5, 5⟩ 4294967296).wellFormed = false ∧
    (Instr.indexEdge .a ⟨true, 5, 4294967296⟩).wellFormed = false ∧ (Instr.latchEvent .a 0 ⟨true, 5, 4294967296⟩).wellFormed = false := by decide

theorem test_wellFormed_refuses_lengths :
    (Instr.tickReload []).wellFormed = false ∧ (Instr.centreSample [] 0 (0, 0) 0).wellFormed = false ∧
    (Instr.utSegment (List.replicate 31 0)).wellFormed = false ∧ (Instr.ucSegment (List.replicate 31 0)).wellFormed = false ∧
    (Instr.deltaBlock 0 []).wellFormed = false ∧ (Instr.deltaRun 0 0 []).wellFormed = false ∧
    (Instr.deltaControl []).wellFormed = false ∧ (Instr.trainingHeader (List.replicate 12 0)).wellFormed = false ∧
    (Instr.trainingReply (List.replicate 8 0)).wellFormed = false ∧ (Instr.cycleStartFrame [] 0 0).wellFormed = false ∧
    (Instr.verdictToken .down ⟨List.replicate 49 0, 0⟩).wellFormed = false ∧
    (Instr.slotFrame (List.replicate 6 0) 0 0 false).wellFormed = false ∧
    (Instr.slotFrame (List.replicate 40 0) 0 0 false).wellFormed = false := by decide

theorem test_wellFormed_takes_boundaries :
    (Instr.get .h (.id 65535 false)).wellFormed = true ∧ (Instr.move .h .b 7).wellFormed = true ∧
    (Instr.otpRead .h 0x200).wellFormed = true ∧ (Instr.otpBurn .h 0x1FF 0).wellFormed = true ∧
    (Instr.at .h 31 []).wellFormed = true ∧ (Instr.tickReload (List.replicate 8 0)).wellFormed = true ∧
    (Instr.slotFrame (List.replicate 7 0) 0 0 true).wellFormed = true := by decide

/-! ### Worked examples of the spec -/

/-- R163: the bit of 115,200 is 694 clocks, that of 3,000,000 is 27. -/
theorem test_bit_time : bitOf 115200 = 694 ∧ bitOf 3000000 = 27 := by decide +kernel

/-- R392: the ACC record of profile 0 holds D = 5,990. -/
theorem test_profile_distance :
    (compileProf ((live.withPar [(0x1100, 1), (0x1101, 90000), (0x1102, 40000), (0x1103, 100000), (0x1104, 200000),
      (0x1105, 2000), (0x1106, 2000)]).set) .a 0).map (fun c => (c.segs.map (·.dist)).take 2) = some [5990, 5990] := by
  decide +kernel

/-- Chapter 0: 6.5 A in band B3 leaves 4.875 A. -/
theorem test_derating :
    let s := live.withPar [(0x1040, 6500)]
    limitEff { s with temp := { s.temp with zone := List.replicate 6 (some 3) } } s.set .a = 4875 := by decide +kernel

/-- Chapter 5: the CRC of `#3 get tick.freq` is 3BFF. -/
theorem test_line_crc : (crc16 (textBytes (txt "#3 get tick.freq"))).toNat = 0x3BFF := by decide +kernel

/-- Chapter 5: that line is answered `#3 = 20000Hz*28D7`. -/
theorem test_get_reply : showValue (parOf 0x3400) 20000 = txt "20000Hz" ∧ frameReply (.seq 3 (some 0x3BFF)) (txt "= 20000Hz") =
    txt "#3 = 20000Hz*28D7" := by decide +kernel

/-- FIPS 180-4: the digest of "abc" begins with BA7816BF. -/
theorem test_sha256_abc : (sha256 [0x61, 0x62, 0x63]).take 4 = [0xBA, 0x78, 0x16, 0xBF] := by decide +kernel

/-- R2, R52: an empty queue leaves the state, and no word of the table spells a command. -/
theorem test_idle : step State.reset = .next State.reset := rfl
theorem test_no_bits : (State.reset.withFetchWord 16 0) = State.reset := rfl

/-! ### Witnesses of the invariants -/

theorem witness_EveryStepKeepsGatesSafe :
    memoriesWf State.reset.pe = true ∧ gatesSafe State.reset.pe = true ∧ step State.reset = .next State.reset := by
  refine ⟨?_, ?_, rfl⟩ <;> decide +kernel

theorem witness_EveryStepKeepsBurnedBits : ∃ t, step { State.reset with pending := [.vioFall] } = .next t := ⟨_, rfl⟩


/-! ### Witnesses: Lines -/

namespace Lines

/-! States and operands that the witnesses below name. -/

def t1 (l : Level) : State := { live with sess := { live.sess with t1 := { live.sess.h with isOpen := true, level := l, machine := true, echo := false } } }
def le0 : LogEntry := { lseq := 7, tick := 5, etime := 2998000, flags := 0, kind := 0x20, dseq := 4, axes := 1, mask := 0, arg0 := 4, arg1 := 3, pin := false }
def lvf : State := { lv .installer with log := { (lv .installer).log with next := 8 }, fram := { (lv .installer).fram with present := true, ring := [(3, { e := le0, ok := true, old := false })] } }

theorem witness_SessionSettingsAct :
    (Ready Sess.h (lv Level.user)) ∧
    (Ready Sess.t1 (t1 Level.user)) ∧
    (Sess.t1 ≠ Sess.h) ∧
    ([txt "fault"] ≠ []) ∧
    (classMask [txt "fault"] = some 1) := by
  refine ⟨?_, ?_, ?_, ?_, ?_⟩ <;> first
  | decide +kernel
  | rfl
  | (unfold Ready; decide +kernel)
  | (rintro (_ | _) <;> decide +kernel)

theorem witness_ReadLinesGiveData :
    (Ready Sess.h (lv Level.user)) ∧
    (Ready Sess.h (lv Level.factory)) ∧
    (((lv Level.factory).ses Sess.h).notices = []) ∧
    (holdsReply (lv Level.factory) Sess.h (lv Level.factory).tick = false) ∧
    (dumpEntries (lv Level.user) none none = []) ∧
    (Ready Sess.h lvf) ∧
    (dumpEntries lvf none (some 3) ≠ []) := by
  refine ⟨?_, ?_, ?_, ?_, ?_, ?_, ?_⟩ <;> first
  | decide +kernel
  | rfl
  | (unfold Ready; decide +kernel)
  | (rintro (_ | _) <;> decide +kernel)

theorem witness_GetReadsSetInForce :
    (Ready Sess.h (lv Level.user)) ∧
    (findRef (ParRef.id 13312 false) = some (parOf 13312, false)) ∧
    ((parOf 13312).write.isSome = true) ∧
    ((parOf 13312).id ≠ 24576) ∧
    ((parOf 13312).id ≠ 28672) ∧
    ((parOf 13312).id ≠ 28673) ∧
    (readSnapshot Sess.h (parOf 13312).id (lv Level.user) = lv Level.user) ∧
    (reaches ((lv Level.user).ses Sess.h).level (readLevel (parOf 13312)) = true) ∧
    (findRef (ParRef.id 4160 false) = some (parOf 4160, false)) ∧
    ((parOf 4160).write.isSome = true) ∧
    ((parOf 4160).id ≠ 24576) ∧
    ((parOf 4160).id ≠ 28672) ∧
    ((parOf 4160).id ≠ 28673) ∧
    (readSnapshot Sess.h (parOf 4160).id (lv Level.user) = lv Level.user) ∧
    (reaches ((lv Level.user).ses Sess.h).level (readLevel (parOf 4160)) = true) ∧
    (Ready Sess.t1 (t1 Level.user)) ∧
    (findRef (ParRef.id 22528 false) = some (parOf 22528, false)) ∧
    ((parOf 22528).write.isSome = true) ∧
    ((parOf 22528).id ≠ 24576) ∧
    ((parOf 22528).id ≠ 28672) ∧
    ((parOf 22528).id ≠ 28673) ∧
    (readSnapshot Sess.t1 (parOf 22528).id (t1 Level.user) = t1 Level.user) ∧
    (reaches ((t1 Level.user).ses Sess.t1).level (readLevel (parOf 22528)) = true) ∧
    (findRef (ParRef.id 4304 false) = some (parOf 4304, false)) ∧
    (reaches ((lv Level.user).ses Sess.h).level (readLevel (parOf 4304)) = true) ∧
    (findRef (ParRef.id 13312 true) = some (parOf 13312, true)) ∧
    (lv Level.user = readSnapshot Sess.h (parOf 13312).id (lv Level.user)) := by
  refine ⟨?_, ?_, ?_, ?_, ?_, ?_, ?_, ?_, ?_, ?_, ?_, ?_, ?_, ?_, ?_, ?_, ?_, ?_, ?_, ?_, ?_, ?_, ?_, ?_, ?_, ?_, ?_⟩ <;> first
  | decide +kernel
  | rfl
  | (unfold Ready; decide +kernel)
  | (rintro (_ | _) <;> decide +kernel)

theorem witness_RefusedAccessIsViolation :
    (Ready Sess.h (lv Level.user)) ∧
    (findRef (ParRef.id 43981 false) = none) ∧
    ((lv Level.user).log.vlog.length < 64) ∧
    (Ready Sess.t1 (t1 Level.user)) ∧
    (findRef (ParRef.id 43981 true) = none) ∧
    ((t1 Level.user).log.vlog.length < 64) := by
  refine ⟨?_, ?_, ?_, ?_, ?_, ?_⟩ <;> first
  | decide +kernel
  | rfl
  | (unfold Ready; decide +kernel)
  | (rintro (_ | _) <;> decide +kernel)

/-- A write refused for its level. -/
theorem witness_RefusedAccess_write :
    Ready .h (lv .user) ∧ findRef (.id 0x3400 false) = some (parOf 0x3400, false) ∧
    writeCheck (lv .user) ((lv .user).ses .h).level false (parOf 0x3400) false = some 22 := by
  refine ⟨by unfold Ready; decide +kernel, ?_, ?_⟩ <;> decide +kernel

end Lines

/-! ### Witnesses: Staging -/

namespace Staging

/-! States and operands that the witnesses below name. -/

def lv2x : State := (ms (lv .factory) fun h => { h with auto := false })
def stg (a : Bool) := ms (lv .factory) fun h => { h with auto := a, staging := [(0x1040, 1000)] }
def cm0 : Commit := { load := false, by_ := .line .h, ents := [(0x1040, 1000)], phase := .build, blocks := [], made := 0, queue := [], opened := false, start := 0, window := 50, sw := none, swAck := false, setp0 := false, recOk := false, gen := 5, applied := none, err := 0, piece := 0 }
def busy := { stg true with commit := some cm0 }
def fr (s : State) : State := { s with fram := { s.fram with present := true } }
def frb : State := match exec (.save .h) (fr (lv .installer)) with | .next t => { t with sess := (lv .installer).sess } | _ => live

theorem witness_StagingActs :
    (Ready Sess.h (lv Level.factory)) ∧
    (findRef (ParRef.id 4160 false) = some (parOf 4160, false)) ∧
    (writeCheck (lv Level.factory) ((lv Level.factory).ses Sess.h).level false (parOf 4160) false = none) ∧
    ((parOf 4160).eff ≠ Eff.line) ∧
    ((parOf 4160).eff ≠ Eff.tmux) ∧
    (readValue (parOf 4160) (txt "1A") = ValRes.ok 1000) ∧
    (valueCheck (lv Level.factory) (parOf 4160).id 1000 = none) ∧
    (List.length ((lv Level.factory).ses Sess.h).staging < 256) ∧
    ((lv Level.factory).committing = false) ∧
    (Ready Sess.h lv2x) ∧
    (writeCheck lv2x (lv2x.ses Sess.h).level false (parOf 4160) false = none) ∧
    (valueCheck lv2x (parOf 4160).id 1000 = none) ∧
    (List.length (lv2x.ses Sess.h).staging < 256) ∧
    (lv2x.committing = false) ∧
    ((lv2x.ses Sess.h).auto = false) ∧
    (Ready Sess.h (stg true)) ∧
    (aboveLevel ((stg true).ses Sess.h).level ((stg true).ses Sess.h).staging = none) ∧
    ((stg true).committing = false) ∧
    (Ready Sess.h busy) ∧
    (aboveLevel (busy.ses Sess.h).level (busy.ses Sess.h).staging = none) ∧
    (busy.committing = true) := by
  refine ⟨?_, ?_, ?_, ?_, ?_, ?_, ?_, ?_, ?_, ?_, ?_, ?_, ?_, ?_, ?_, ?_, ?_, ?_, ?_, ?_, ?_⟩ <;> first
  | decide +kernel
  | rfl
  | (unfold Ready; decide +kernel)
  | (rintro (_ | _) <;> decide +kernel)

theorem witness_CommitStartsInBuild :
    (Ready Sess.h (lv Level.factory)) ∧
    ((lv Level.factory).commit = none) ∧
    ((lv Level.factory).fram.journal.length < 64) ∧
    (findRef (ParRef.id 4160 false) = some (parOf 4160, false)) ∧
    (writeCheck (lv Level.factory) ((lv Level.factory).ses Sess.h).level false (parOf 4160) false = none) ∧
    ((parOf 4160).eff ≠ Eff.line) ∧
    ((parOf 4160).eff ≠ Eff.tmux) ∧
    (readValue (parOf 4160) (txt "1A") = ValRes.ok 1000) ∧
    (valueCheck (lv Level.factory) (parOf 4160).id 1000 = none) ∧
    (((lv Level.factory).ses Sess.h).auto = true) ∧
    (commitCheck (lv Level.factory) [((parOf 4160).id, 1000)] = none) := by
  refine ⟨?_, ?_, ?_, ?_, ?_, ?_, ?_, ?_, ?_, ?_, ?_⟩ <;> first
  | decide +kernel
  | rfl
  | (unfold Ready; decide +kernel)
  | (rintro (_ | _) <;> decide +kernel)

theorem witness_SaveAsksForBaseSlot :
    (Ready Sess.h (fr (lv Level.installer))) ∧
    (((fr (lv Level.installer)).ses Sess.h).level ≠ Level.user) ∧
    ((fr (lv Level.installer)).commit = none) ∧
    ((fr (lv Level.installer)).fram.present = true) ∧
    (BitVec.getLsbD (fr (lv Level.installer)).otp.wrow 10 = false) ∧
    (Ready Sess.h frb) ∧
    ((frb.ses Sess.h).level ≠ Level.user) ∧
    (frb.commit = none) ∧
    (frb.fram.present = true) ∧
    (BitVec.getLsbD frb.otp.wrow 10 = false) := by
  refine ⟨?_, ?_, ?_, ?_, ?_, ?_, ?_, ?_, ?_, ?_⟩ <;> first
  | decide +kernel
  | rfl
  | (unfold Ready; decide +kernel)
  | (rintro (_ | _) <;> decide +kernel)

/-- `commit` with one staged entry that the level may write. -/
theorem witness_CommitStartsInBuild_commit :
    Ready .h (stg true) ∧ (stg true).commit = none ∧ (stg true).fram.journal.length < 64 ∧ ((stg true).ses .h).staging ≠ [] ∧
    (∀ e ∈ ((stg true).ses .h).staging, ∀ p, parById e.1 = some p → ∀ l, p.write = some l →
      reaches ((stg true).ses .h).level l = true) ∧
    (∀ e ∈ ((stg true).ses .h).staging, ∃ p l, parById e.1 = some p ∧ p.write = some l) ∧
    (∀ e ∈ ((stg true).ses .h).staging, lockedFor (stg true) ((stg true).ses .h).level e.1 = false) ∧
    commitCheck (stg true) ((stg true).ses .h).staging = none := by
  have hs : ((stg true).ses .h).staging = [(0x1040, 1000)] := rfl
  have hp : parById 0x1040 = some (parOf 0x1040) := by decide +kernel
  have hw : (parOf 0x1040).write = some .user := by decide +kernel
  refine ⟨by unfold Ready; decide +kernel, by decide +kernel, by decide +kernel, by decide +kernel, ?_, ?_, by decide +kernel,
    by decide +kernel⟩
  · intro e he p h l hl
    rw [hs, List.mem_singleton] at he
    subst he
    rw [hp] at h
    cases h
    rw [hw] at hl
    cases hl
    decide +kernel
  · intro e he
    rw [hs, List.mem_singleton] at he
    subst he
    exact ⟨_, _, hp, hw⟩

end Staging

/-! ### Witnesses: AxisLines -/

namespace AxisLines

/-! States and operands that the witnesses below name. -/

def warm (s : State) : State := { s with temp := { s.temp with ts := s.temp.ts.map fun x => { x with evals := 3, eff := some 100 } } }
def rdy0 : State := { (warm (lv .installer)) with link := { (lv .user).link with tel := List.replicate 8 (some 2500), aux := List.replicate 8 900 }, otp := { (lv .user).otp with wrow := 1 } }
def rdy : State := rdy0.withPar [(0x1020, 1), (0x2020, 1), (0x1100, 1), (0x1101, 500), (0x1110,1), (0x2100, 1), (0x2110,1), (0x11A4, 1), (0x21A4,1)]
def arm2 : State := { rdy with loop := (rdy.loop.mod .a fun l => { l with st := .ready }).mod .b fun l => { l with st := .ready }, pos := (rdy.pos.mod .a fun p => { p with valid := true }).mod .b fun p => { p with valid := true } }
def run2 : State := { arm2 with mot := (arm2.mot.mod .a fun m => { m with st := .run }).mod .b fun m => { m with st := .run } }
def flt (k : Nat) (ax : BitVec 2) : State := { rdy with faults := [{ kind := k, die := .aster, axes := ax, tick := 0, info := 0 }] }
def fltR : State := (flt 7 3).modLoop .a fun l => { l with relAt := some 2999999 }
def fltSafe : State := { flt 7 3 with dev := .safe }
def learn2 : State := arm2.withPar [(0x1101, 0), (0x1111, 0), (0x2101,0), (0x2111,0)]
def k0 : List Byte := List.replicate 32 0
def ch : Challenge := { level := .factory, nonce := List.replicate 16 5, at_ := 2000000 }
def chs : State := ms (lv .user) fun h => { h with chal := some ch }
def good : List Byte := authResponse chs .h .factory k0 ch.nonce
def bad := good.map (· + 1)
def chl : State := { chs with fram := { chs.fram with tries := 4 } }
def chl2x : State := {chl with fram := {chl.fram with present := true}}
def idl (l : Level) : State := { ms (lv l) (fun h => { h with lineAt := 0, machine := true }) with etime := 900000000000 }
def idl2x : State := { idl .user with lockAt := some (5, 60000000) }
def bop : State := ms (lv .user) fun h => { h with bundle := some [1, 2] }

theorem witness_AxisCommandsHandOver :
    (Ready Sess.h rdy) ∧
    (rdy.armed Axis.a = false) ∧
    (armCheck rdy Axis.a = none) ∧
    (NoHand rdy Axis.a) ∧
    (Ready Sess.h arm2) ∧
    (arm2.armed Axis.b = true) ∧
    (∀ (y : Axis), y ∈ selAxes AxisSel.all → arm2.armed y = true ∧ NoHand arm2 y) ∧
    (∀ (y : Axis), y ∈ selAxes AxisSel.all → rdy.armed y = false ∧ NoHand rdy y) ∧
    (moveCheck arm2 Axis.a 0 = none) ∧
    (NoHand arm2 Axis.a) ∧
    (Ready Sess.h run2) ∧
    (run2.coupled = false) ∧
    (∀ (y : Axis), y ∈ selAxes AxisSel.all → run2.moving y = true ∧ NoHand run2 y) ∧
    (∀ (y : Axis), arm2.moving y = false ∧ (arm2.mot.get y).learn = none ∧ (arm2.loop.get y).hand = none) := by
  refine ⟨?_, ?_, ?_, ?_, ?_, ?_, ?_, ?_, ?_, ?_, ?_, ?_, ?_, ?_⟩ <;> first
  | decide +kernel
  | rfl
  | (unfold Ready; decide +kernel)
  | (rintro (_ | _) <;> decide +kernel)

theorem witness_DiagAndClearStart :
    (Ready Sess.h rdy) ∧
    (rdy.ticking = true) ∧
    ((rdy.ses Sess.h).level ≠ Level.user) ∧
    (rdy.armed Axis.a = false) ∧
    (clearable rdy (selMask AxisSel.all) = false) ∧
    (Ready Sess.h fltR) ∧
    (clearable fltR (selMask AxisSel.all) = true) ∧
    (∃ y, y ∈ selAxes AxisSel.all ∧ clearBlocked fltR y = true) ∧
    (Ready Sess.h (flt 7 1)) ∧
    (clearable (flt 7 1) (selMask (AxisSel.one Axis.a)) = true) ∧
    (∀ (y : Axis), y ∈ selAxes (AxisSel.one Axis.a) → clearBlocked (flt 7 1) y = false) ∧
    ((flt 7 1).ticking = true) ∧
    ((flt 7 1).dev ≠ Dev.safe) ∧
    (∀ (y : Axis), y ∈ selAxes (AxisSel.one Axis.a) → NoHand (flt 7 1) y) ∧
    (Ready Sess.h fltSafe) ∧
    (clearable fltSafe (selMask AxisSel.all) = true) ∧
    (∀ (y : Axis), y ∈ selAxes AxisSel.all → clearBlocked fltSafe y = false) ∧
    (fltSafe.dev = Dev.safe) ∧
    (∀ (y : Axis), y ∈ selAxes AxisSel.all → fltSafe.classS y = false) := by
  refine ⟨?_, ?_, ?_, ?_, ?_, ?_, ?_, ?_, ?_, ?_, ?_, ?_, ?_, ?_, ?_, ?_, ?_, ?_, ?_⟩ <;> first
  | decide +kernel
  | rfl
  | (unfold Ready; decide +kernel)
  | (rintro (_ | _) <;> decide +kernel)

theorem witness_CalibrationsStart :
    (Ready Sess.h rdy) ∧
    ((rdy.ses Sess.h).level ≠ Level.user) ∧
    (rdy.disarmed Axis.a = true) ∧
    ((rdy.loop.get Axis.a).word.cmd = 0 ∨ (rdy.loop.get Axis.a).word.cmd = 4) ∧
    ((rdy.loop.get Axis.a).relAt = none) ∧
    (stillNow rdy Axis.a = true) ∧
    (rdy.ticking = true) ∧
    ((rdy.loop.get Axis.a).cal = none) ∧
    (Ready Sess.h arm2) ∧
    ((arm2.ses Sess.h).level ≠ Level.user) ∧
    (1 ≤ arm2.commMode Axis.a) ∧
    (arm2.commMode Axis.a ≤ 3) ∧
    (arm2.ready Axis.a = true) ∧
    (arm2.moving Axis.a = false) ∧
    ((arm2.loop.get Axis.a).cal = none) ∧
    ((arm2.mot.get Axis.a).learn = none) ∧
    ((arm2.loop.get Axis.a).hand = none) := by
  refine ⟨?_, ?_, ?_, ?_, ?_, ?_, ?_, ?_, ?_, ?_, ?_, ?_, ?_, ?_, ?_, ?_, ?_⟩ <;> first
  | decide +kernel
  | rfl
  | (unfold Ready; decide +kernel)
  | (rintro (_ | _) <;> decide +kernel)

theorem witness_ElevationActs :
    (Ready Sess.h chs) ∧
    (authLevel (txt "factory") = some Level.factory) ∧
    (Level.factory = Level.factory → Sess.h = Sess.h) ∧
    (chs.lockAt = none) ∧
    (levelKey chs Level.factory = some k0) ∧
    ((chs.ses Sess.h).chal = some ch) ∧
    (ch.level = Level.factory) ∧
    (chs.since ch.at_ ≤ 1000000 * chs.parN 25603) ∧
    (readResponse (hexBytes good) = some good) ∧
    (good = authResponse chs Sess.h Level.factory k0 ch.nonce) ∧
    (readResponse (groupHex good) = some good) ∧
    (readResponse (hexBytes bad) = some bad) ∧
    (bad ≠ authResponse chs Sess.h Level.factory k0 ch.nonce) ∧
    (Ready Sess.h chl) ∧
    (chl.lockAt = none) ∧
    (levelKey chl Level.factory = some k0) ∧
    ((chl.ses Sess.h).chal = some ch) ∧
    (chl.since ch.at_ ≤ 1000000 * chl.parN 25603) ∧
    (bad ≠ authResponse chl Sess.h Level.factory k0 ch.nonce) ∧
    (Ready Sess.h chl2x) ∧
    (chl2x.lockAt = none) ∧
    (levelKey chl2x Level.factory = some k0) ∧
    ((chl2x.ses Sess.h).chal = some ch) ∧
    (chl2x.since ch.at_ ≤ 1000000 * chl2x.parN 25603) ∧
    (bad ≠ authResponse chl2x Sess.h Level.factory k0 ch.nonce) ∧
    (Ready Sess.h (lv Level.factory)) := by
  refine ⟨?_, ?_, ?_, ?_, ?_, ?_, ?_, ?_, ?_, ?_, ?_, ?_, ?_, ?_, ?_, ?_, ?_, ?_, ?_, ?_, ?_, ?_, ?_, ?_, ?_, ?_⟩ <;> first
  | decide +kernel
  | rfl
  | (unfold Ready; decide +kernel)
  | (rintro (_ | _) <;> decide +kernel)

theorem witness_TrustTimesOut :
    ((idl Level.factory).parN 25600 ≠ 0) ∧
    (1000000 * (idl Level.factory).parN 25600 ≤ (idl Level.factory).since ((idl Level.factory).ses Sess.h).lineAt) ∧
    ((idl Level.user).parN 25600 ≠ 0) ∧
    (1000000 * (idl Level.user).parN 25600 ≤ (idl Level.user).since ((idl Level.user).ses Sess.h).lineAt) ∧
    (idl2x.lockAt = some (5, 60000000)) ∧
    (60000000 ≤ idl2x.since 5) := by
  refine ⟨?_, ?_, ?_, ?_, ?_, ?_⟩ <;> first
  | decide +kernel
  | rfl
  | (unfold Ready; decide +kernel)
  | (rintro (_ | _) <;> decide +kernel)

theorem witness_BundlesAct :
    (Ready Sess.h (lv Level.user)) ∧
    (Ready Sess.h bop) ∧
    ([txt "00FF", txt "12"] ≠ []) ∧
    ((bop.ses Sess.h).bundle = some [1, 2]) ∧
    (List.map readBytes [txt "00FF", txt "12"] = List.map some [[0, 255], [18]]) ∧
    ([1, 2].length + [[0, 255], [18]].flatten.length ≤ 1024) ∧
    ((bop.ses Sess.h).bundle.bind readBundle = none) ∧
    (((lv Level.user).ses Sess.h).bundle.bind readBundle = none) := by
  refine ⟨?_, ?_, ?_, ?_, ?_, ?_, ?_, ?_⟩ <;> first
  | decide +kernel
  | rfl
  | (unfold Ready; decide +kernel)
  | (rintro (_ | _) <;> decide +kernel)

/-- `cal learn` with both learning profiles ready at one end. -/
theorem witness_CalibrationsStart_learn :
    Ready .h learn2 ∧ (learn2.ses .h).level ≠ .user ∧ (learn2.coupled = true → Axis.a = .a) ∧
    (∀ y ∈ learnAxes learn2 .a, learnOk learn2 y = true) := by
  refine ⟨by unfold Ready; decide +kernel, by decide +kernel, fun _ => rfl, by decide +kernel⟩

end AxisLines

/-! ### Witnesses: SleepOtp -/

namespace SleepOtp

/-! States and operands that the witnesses below name. -/

def warm (s : State) : State := { s with temp := { s.temp with ts := s.temp.ts.map fun x => { x with evals := 3, eff := some 100 } } }
def bb : List Byte := (readBytes (txt "01000100000000000000000000000000000000000c0000000100050030000202003e4e15b7fe95672461319b251f61a95e10" ++ txt "f626110c51b61fa26a4874080d8954e3b57ac105db8fe50afe5c157fbc0464c3ae2627d56e02b79be5f4b30c7efae7c35abc" ++ txt "ff2cd2fb6e072f0598af2259965026d9ed377b8b382652ef085dd9605ec35abcff2cd2fb6e072f0598af2259965026d9ed37" ++ txt "7b8b382652ef085dd9605e")).getD []
def dg : List Byte := (readBytes (txt "1be206711ba0d8aa8faaeb8552156945deb16032648d89d8f70a76b28475b2a3")).getD []
def otpS (s : State) : State := { s with otp := { s.otp with sensed := (List.range 8).map fun i => (0x100 + i, maskWord dg i), array := [(0x1F0, eccEncode 1)], marks := [(0x1F0, { mark := .sealed, rb := 0 })] } }
def bs : State := otpS (ms (lv .user) fun h => { h with bundle := some bb })
def b0 : Bundle := { slot := 0, level := .installer, target := List.replicate 16 0, seq := 12, entries := [(0x30, 2, [2, 0])], signed := bb.take 33, key := (bb.drop 33).take 64, sig := bb.drop 97 }
def bs2 : State := bs.modSes .h fun se => { se with bundle := none }
def slp : State := { ((lv .user).withPar [(0x4008, 0xFF)]) with fram := { live.fram with present := true } }
def fac : State := { (lv .factory) with otp := { live.otp with wrow := 0 } }
def stk : Par := parOf 0x6000
def sw (kind owner len start : Nat) : Int := kind * 2^28 + owner * 2^23 + len * 2^17 + start
def sched : List (Nat × Int) := [(0x5000, 1), (0x5100, sw 1 3 8 100), (0x5101, sw 2 0 32 400), (0x5102, sw 2 3 32 900), (0x5200, 0), (0x5210, 64), (0x5300, 1), (0x5310, 0), (0x500B, 1), (0x500C, 1), (0x5007, 5), (0x5002, 20000)]
def bus (st : BusState) (node : Nat) : State := takeBusSet { ((lv .user).withPar sched) with bus := { Bus.reset with st := st, cycle := 6, ran := true, hearing := 5, lock := 1, node := node } }
def o1 (l : Level) (m : Mark) (v : BitVec 39) : State := { lv l with otp := { live.otp with array := [(0x1F, v)], marks := [(0x1F, { mark := m, rb := 1 })], copies := { u := 5, v := 7, w := 1 } } }
def fw : State := { warm (lv .factory) with fram := { live.fram with present := true } }
def td : List (Nat × BitVec 39) := (digestTodo (marginReads 2 fw) 2).getD []
def fi : State := { fw with sess := (fw.modSes .h fun h => { h with level := .installer }).sess }

theorem witness_BundlesAct_SleepOtp :
    (Ready Sess.h bs) ∧
    ((bs.ses Sess.h).bundle.bind readBundle = some b0) ∧
    (bundleCheck bs2 b0 = none) ∧
    (bs.commit = none) ∧
    (bundleStore bs2 b0.level b0.entries [] = Except.ok [(48, 2)]) ∧
    (commitCheck bs2 [(48, 2)] = none) ∧
    (bs.fram.journal.length < 64) ∧
    (bs.par 25616 < ↑b0.seq) := by
  refine ⟨?_, ?_, ?_, ?_, ?_, ?_, ?_, ?_⟩ <;> first
  | decide +kernel
  | rfl
  | (unfold Ready; decide +kernel)
  | (rintro (_ | _) <;> decide +kernel)

theorem witness_SleepAndResetStart :
    (Ready Sess.h slp) ∧
    (sleepCheck slp Sess.h true [] = none) ∧
    (sleepCheck slp Sess.h false [] = none) ∧
    (sleepCheck slp Sess.h false [txt "RB3", txt "RB0"] = none) ∧
    ([txt "RB3", txt "RB0"].length ≤ 4) ∧
    (false = true → [txt "RB3", txt "RB0"] = []) ∧
    (Ready Sess.h (lv Level.installer)) ∧
    (((lv Level.installer).ses Sess.h).level ≠ Level.user) := by
  refine ⟨?_, ?_, ?_, ?_, ?_, ?_, ?_, ?_⟩ <;> first
  | decide +kernel
  | rfl
  | (unfold Ready; decide +kernel)
  | (rintro (_ | _) <;> decide +kernel)

theorem witness_RemoteAndTestLinesAct :
    (Ready Sess.h fac) ∧
    ((fac.ses Sess.h).level = Level.factory) ∧
    (BitVec.getLsbD fac.otp.wrow 3 = false) ∧
    (tmuxSource tmuxDWords 63 (txt "9") = Except.ok 10) ∧
    (tmuxSource tmuxAWords 31 (txt "9") = Except.ok 10) ∧
    (parById 24576 = some stk) ∧
    (writeCheck fac (fac.ses Sess.h).level false stk false = none) ∧
    (Ready Sess.h (bus BusState.sync 3)) ∧
    (Sess.h = Sess.h) ∧
    (busLook (bus BusState.sync 3) = bus BusState.sync 3) ∧
    ((bus BusState.sync 3).busSync = true) ∧
    ((bus BusState.sync 3).bus.node = 0 ∨ 0 = 0) ∧
    (0 ≠ (bus BusState.sync 3).bus.node) ∧
    (ownsTunnel (bus BusState.sync 3).busSet (bus BusState.sync 3).bus.node = true) ∧
    (ownsTunnel (bus BusState.sync 3).busSet 0 = true) ∧
    ((bus BusState.sync 3).busSet 20482 ≤ 20000) ∧
    (startsWith (trim (txt " get tick.freq ")) ['#'] = false) ∧
    (trim (txt " get tick.freq ") ≠ ['-']) ∧
    (Tunnel.fresh 0 = ((bus BusState.sync 3).tunnel 0).getD (Tunnel.fresh 0)) ∧
    (List.length (withCrc ('#' :: dec (Tunnel.fresh 0).seq ++ ' ' :: trim (txt " get tick.freq "))) ≤ 160) := by
  refine ⟨?_, ?_, ?_, ?_, ?_, ?_, ?_, ?_, ?_, ?_, ?_, ?_, ?_, ?_, ?_, ?_, ?_, ?_, ?_, ?_⟩ <;> first
  | decide +kernel
  | rfl
  | (unfold Ready; decide +kernel)
  | (rintro (_ | _) <;> decide +kernel)

theorem witness_OtpLinesAct :
    (Ready Sess.h (lv Level.installer)) ∧
    (((lv Level.installer).ses Sess.h).level ≠ Level.user) ∧
    ((lv Level.installer).otp.run = none) ∧
    (regionOf 7 ≠ 3) ∧
    (((lv Level.installer).otpMark 7).mark = Mark.blank) ∧
    (Ready Sess.h (o1 Level.installer Mark.weak (eccEncode 3735928559))) ∧
    (((o1 Level.installer Mark.weak (eccEncode 3735928559)).ses Sess.h).level ≠ Level.user) ∧
    ((o1 Level.installer Mark.weak (eccEncode 3735928559)).otp.run = none) ∧
    (regionOf 31 ≠ 3) ∧
    (((o1 Level.installer Mark.weak (eccEncode 3735928559)).otpMark 31).mark ≠ Mark.blank) ∧
    (Ready Sess.h (o1 Level.factory Mark.uncorr 546892524202)) ∧
    (((o1 Level.factory Mark.uncorr 546892524202).ses Sess.h).level ≠ Level.user) ∧
    ((o1 Level.factory Mark.uncorr 546892524202).otp.run = none) ∧
    (Ready Sess.h (lv Level.factory)) ∧
    (((lv Level.factory).ses Sess.h).level ≠ Level.user) ∧
    ((lv Level.factory).otp.run = none) ∧
    (Ready Sess.h fw) ∧
    (fw.otp.run = none) ∧
    (fw.otpWindow = true) ∧
    (fw.tempReady = true) ∧
    ((fw.ses Sess.h).level = Level.factory) ∧
    (regionOf 31 = 3 → ∀ (i : Nat), i < 4 → (fw.otpData i).isSome = true) ∧
    (BitVec.extractLsb' 16 16 (65535 : W32) = 0) ∧
    (("KEYS", 2, 256, 319) ∈ List.take 4 otpRegions) ∧
    (fw.regionShut 2 = false) ∧
    (∀ (w : Nat), w ∈ regionWords 2 → (fw.otpMark w).mark = Mark.blank ∨ (fw.otpMark w).mark = Mark.sealed ∧ Config.marginFails fw.free w = false) ∧
    (digestTodo (marginReads 2 fw) 2 = some td) := by
  refine ⟨?_, ?_, ?_, ?_, ?_, ?_, ?_, ?_, ?_, ?_, ?_, ?_, ?_, ?_, ?_, ?_, ?_, ?_, ?_, ?_, ?_, ?_, ?_, ?_, ?_, ?_, ?_⟩ <;> first
  | decide +kernel
  | rfl
  | (unfold Ready; decide +kernel)
  | (rintro (_ | _) <;> decide +kernel)

/-- `otp gen commit` of the first generation. -/
theorem witness_OtpLinesAct_gen :
    Ready .h fi ∧ fi.otp.run = none ∧ fi.otpWindow = true ∧ (fi.ses .h).level ≠ .user ∧ fi.commit = none ∧
    fi.otp.sticky.getLsbD 4 = false ∧ genTop fi < 16 := by
  refine ⟨by unfold Ready; decide +kernel, ?_, ?_, ?_, ?_, ?_, ?_⟩ <;> decide +kernel

end SleepOtp

/-! ### Witnesses: Writes -/

namespace Writes

/-! States and operands that the witnesses below name. -/

def txb (n : Nat) : TxBuf := match live.bus.tx[n]? with | some b => b | none => { words := [], back := [], fresh := false, age := 0 }
def rxb (n : Nat) : RxBuf := match live.bus.rx[n]? with | some b => b | none => { words := [], age := 0, cnt := 0, got := false, stale := false, made := false, view := { words := [], age := 0, cnt := 0, made := false } }
def pl : State := ({ live with pos := live.pos.mod .a fun p => { p with pos := 77, wrap := 4 } }).withPar [(0x10B2, -5)]
def ce : State := live.modChg fun c => { c with st := .error, tSafety := 5 }
def lr : State := { live with log := { live.log with pinFull := true } }
def sn : State := { live with sess := { live.sess with h := { live.sess.h with latSnap := live.sess.h.latSnap } } }
def sn2 : State := { live with sess := { live.sess with h := { live.sess.h with rxSnap := [(3, { words := [1], age := 3, cnt := 4, made := true }), (5, { words := [2], age := 3, cnt := 4, made := true })] } } }
def pt : State := ms (lv .user) fun h => { h with part := txt " get x" }
def live2x : State := { live with host := { live.host with deaf := true } }
def live3x : State := { live with host := { live.host with restart := some (.watchdog, 0) } }
def pto : State := { ms (lv .user) (fun h => { h with part := txt "#5 x", machine := true, charAt := 0 }) with etime := 9000000 }

theorem witness_WrittenEffectsAndSnapshotsAct :
    (pl.chg.st ≠ ChgState.error) ∧
    (ce.chg.st = ChgState.error) ∧
    ([(0, 5), (7, 6)] ≠ []) ∧
    (lr.bus.tx[2]? = some (txb 2)) ∧
    ((sn.ses Sess.h).isOpen = true) ∧
    ((sn2.ses Sess.h).isOpen = true) ∧
    (sn2.bus.rx[3]? = some (rxb 3)) := by
  refine ⟨?_, ?_, ?_, ?_, ?_, ?_, ?_⟩ <;> first
  | decide +kernel
  | rfl
  | (unfold Ready; decide +kernel)
  | (rintro (_ | _) <;> decide +kernel)

theorem witness_ReceptionActs :
    ((lv Level.user).receives = true) ∧
    (((lv Level.user).ses Sess.h).isOpen = true) ∧
    (((lv Level.user).ses Sess.h).skip = none) ∧
    (List.length ((lv Level.user).ses Sess.h).part < 160) ∧
    (((lv Level.user).ses Sess.h).rxFree ≠ 0) ∧
    (((lv Level.user).ses Sess.h).esc = 0) ∧
    (pt.receives = true) ∧
    ((pt.ses Sess.h).isOpen = true) ∧
    ((pt.ses Sess.h).skip = none) ∧
    ((pt.ses Sess.h).machine = false) ∧
    (startsWith (trim (pt.ses Sess.h).part) ['#'] = false) ∧
    (trim (pt.ses Sess.h).part ≠ []) ∧
    (live2x.host.deaf = true) ∧
    (live3x.host.deaf = false) ∧
    (live3x.dev ≠ Dev.off) ∧
    (live3x.host.restart.isSome = true) ∧
    (pto.sess.h.machine = true) ∧
    (pto.sess.h.part ≠ []) ∧
    (pto.parN 22533 * 1000 ≤ pto.since pto.sess.h.charAt) ∧
    (pto.receives = true) := by
  refine ⟨?_, ?_, ?_, ?_, ?_, ?_, ?_, ?_, ?_, ?_, ?_, ?_, ?_, ?_, ?_, ?_, ?_, ?_, ?_, ?_⟩ <;> first
  | decide +kernel
  | rfl
  | (unfold Ready; decide +kernel)
  | (rintro (_ | _) <;> decide +kernel)


end Writes

/-! ### Witnesses: Turns -/

namespace Turns

/-! States and operands that the witnesses below name. -/

def rl (b : String) (f : Frame) (e : Option Nat) : RxLine := { len := 3, body := txt b, frame := f, err := e, tick := 0, at_ := 0, enter := false, cut := false }
def ws (ls : List RxLine) : State := ms (lv .user) fun h => { h with waiting := ls }
def runL (body : String) (w : Wait) : Running := { line := rl body .plain none, tick := 90, wait := w }
def waits (x : Sess) (b : String) (w : Wait) (s : State) : State := s.modSes x fun se => { se with isOpen := true, running := some (runL b w) }
def ch (l : List Text) : State := waits .h "x" (.chunk l (txt "ok")) live
def ch2x : State := (ms (ch [txt "a", txt "b"]) fun h => { h with cancel := true })
def long : List Text := List.replicate 12 (List.replicate 130 'x')
def short : List Text := [txt "a", txt "b"]
def lo : State := ms (lv .user) fun h => { h with lost := 7 }
def lo4x : State := (ms lo fun h => { h with out := [{ notice := false, chars := List.replicate 400 'x', rate := none }] })
def lo5x : State := live.modSes .t1 fun h => { h with isOpen := true, lost := 3 }
def tq : Tunnel := { Tunnel.fresh 3 with opened := true, want := some 4, at_ := 100 }
def rem : State := waits .h "at 3 get x" .remote { live with bus := { Bus.reset with st := .sync, tun := [tq], node := 0 } }
def call2x : Call := { x := .h, line := rl "at 3 get x" .plain none, word := txt "at", tick := 90 }
def tid : State := { live with etime := 800000000, sess := { live.sess with t2 := { live.sess.h with machine := true, echo := false, lineAt := 0, staging := [(0x20, 3)], waiting := [rl "x" .plain none], level := .installer } }, bus := { Bus.reset with st := .sync, tun := [{ tq with sess := some .t2 }], node := 0 }, host := { live.host with waiters := [(.t2, 0), (.h, 1)] } }
def cm (p : CommitPhase) (op : Bool) : Commit := { load := false, by_ := .line .h, ents := [(0x20, 3)], phase := p, blocks := [], made := 0, queue := [0], opened := op, start := 0, window := 50, sw := none, swAck := false, setp0 := false, recOk := false, gen := 5, applied := none, err := 0, piece := 0 }
def rs (p : CommitPhase) (op : Bool) : State := waits .h "commit" .commit { tid with commit := some (cm p op) }
def live2x : State := { live with host := { live.host with restart := some (.parity, 5) } }
def live3x : State := { live with host := { live.host with resetting := true } }
def rsd : State := { rs .stream true with host := { (rs .stream true).host with restart := some (.watchdog, 5) } }
def rsd2 : State := { rsd with faults := [{ kind := 0xD, die := .aster, axes := 1, tick := 0, info := 0 }] }
def rsd3 : State := { rsd with faults := [{ kind := 0xD, die := .aster, axes := 3, tick := 0, info := 0 }] }
def pwt : State := { waits .h "discard" (.param .discard) live with host := { live.host with waiters := [(.h, 5), (.t1, 6)] } }
def pwt2x : State := (ms pwt fun h => { h with staging := [(0x20, 3)] })
def rnOf (s : State) : Running := match s.sess.h.running with | some r => r | none => { line := { len := 0, body := [], frame := .plain, err := none, tick := 0, at_ := 0, enter := false, cut := false }, tick := 0, wait := .turn }
def one (o : ParamOp) (w : String) : State := ms { waits .h w (.param o) live with host := { live.host with waiters := [(.h, 5)] } } fun h => { h with staging := [(0x20, 3)], auto := false, level := .factory }
def psd : State := one .staged "staged"
def psdC : State := { psd with commit := some (cm .stream true) }
def pwt3x : State := { pwt with commit := some (cm .stream true) }
def pwt5x : State := { pwt3x with commit := some { cm .stream true with piece := 2999999 } }

theorem witness_TurnsStartLines :
    ((ws [rl "" Frame.plain none]).starts = true) ∧
    (List.find? (fun p => canTurn (ws [rl "" Frame.plain none]) p.snd) (cycleFrom (ws [rl "" Frame.plain none]).host.turn) = some (0, Sess.h)) ∧
    (((ws [rl "" Frame.plain none]).ses Sess.h).restartDue = none) ∧
    (((ws [rl "" Frame.plain none]).ses Sess.h).running = none ∧ ((ws [rl "" Frame.plain none]).ses Sess.h).waiting = [rl "" Frame.plain none]) ∧
    ((rl "" Frame.plain none).cut = false) ∧
    (tokens (rl "" Frame.plain none).body = []) ∧
    ((rl "" Frame.plain none).err = none → ∀ (u : Text), storedReply ((ws [rl "" Frame.plain none]).ses Sess.h) (rl "" Frame.plain none) = some u → txt "ok" = u) ∧
    ((waits Sess.h "x" Wait.commit live).starts = true) ∧
    (List.find? (fun p => canTurn (waits Sess.h "x" Wait.commit live) p.snd) (cycleFrom (waits Sess.h "x" Wait.commit live).host.turn) = none) ∧
    ((ws [rl "frob 3" Frame.plain none, rl "x" Frame.plain none]).starts = true) ∧
    (List.find? (fun p => canTurn (ws [rl "frob 3" Frame.plain none, rl "x" Frame.plain none]) p.snd) (cycleFrom (ws [rl "frob 3" Frame.plain none, rl "x" Frame.plain none]).host.turn) = some (0, Sess.h)) ∧
    (((ws [rl "frob 3" Frame.plain none, rl "x" Frame.plain none]).ses Sess.h).running = none) ∧
    (((ws [rl "frob 3" Frame.plain none, rl "x" Frame.plain none]).ses Sess.h).waiting = [rl "frob 3" Frame.plain none, rl "x" Frame.plain none]) ∧
    ((waits Sess.h "x" (Wait.chunk [txt "a", txt "b"] (txt "ok")) live).starts = true) ∧
    (List.find? (fun p => canTurn (waits Sess.h "x" (Wait.chunk [txt "a", txt "b"] (txt "ok")) live) p.snd) (cycleFrom (waits Sess.h "x" (Wait.chunk [txt "a", txt "b"] (txt "ok")) live).host.turn) = some (0, Sess.h)) ∧
    (((waits Sess.h "x" (Wait.chunk [txt "a", txt "b"] (txt "ok")) live).ses Sess.h).running = some (runL "x" (Wait.chunk [txt "a", txt "b"] (txt "ok")))) ∧
    ((runL "x" (Wait.chunk [txt "a", txt "b"] (txt "ok"))).wait = Wait.chunk [txt "a", txt "b"] (txt "ok")) ∧
    (((waits Sess.h "x" (Wait.chunk [txt "a", txt "b"] (txt "ok")) live).ses Sess.h).cancel = false) ∧
    (((waits Sess.h "x" (Wait.chunk [txt "a", txt "b"] (txt "ok")) live).ses Sess.h).notices = []) ∧
    (holdsReply (waits Sess.h "x" (Wait.chunk [txt "a", txt "b"] (txt "ok")) live) Sess.h (runL "x" (Wait.chunk [txt "a", txt "b"] (txt "ok"))).line.tick = false) := by
  refine ⟨?_, ?_, ?_, ?_, ?_, ?_, ?_, ?_, ?_, ?_, ?_, ?_, ?_, ?_, ?_, ?_, ?_, ?_, ?_, ?_⟩ <;> first
  | decide +kernel
  | rfl
  | (unfold Ready; decide +kernel)
  | (rintro (_ | _) <;> decide +kernel)

theorem witness_LinesGoOnOrEnd :
    (ch2x.forul = true) ∧
    (ch2x.pwr.step = SleepStep.awake) ∧
    ((ch2x.ses Sess.h).isOpen = true) ∧
    ((ch2x.ses Sess.h).running = some (runL "x" (Wait.chunk [txt "a", txt "b"] (txt "ok")))) ∧
    ((runL "x" (Wait.chunk [txt "a", txt "b"] (txt "ok"))).wait = Wait.chunk [txt "a", txt "b"] (txt "ok")) ∧
    ((ch2x.ses Sess.h).cancel = true) ∧
    ((ch long).forul = true) ∧
    ((ch long).pwr.step = SleepStep.awake) ∧
    (((ch long).ses Sess.h).isOpen = true) ∧
    (((ch long).ses Sess.h).running = some (runL "x" (Wait.chunk long (txt "ok")))) ∧
    ((runL "x" (Wait.chunk long (txt "ok"))).wait = Wait.chunk long (txt "ok")) ∧
    (((ch long).ses Sess.h).cancel = false) ∧
    (164 ≤ ((ch long).ses Sess.h).free) ∧
    (((ch long).ses Sess.h).notices = []) ∧
    (holdsReply (ch long) Sess.h (runL "x" (Wait.chunk long (txt "ok"))).line.tick = false) ∧
    (lo.sess.h.lost ≠ 0) ∧
    (lo.sess.h.notices = []) ∧
    (lo.host.restart = none) ∧
    (lo.sess.h.isOpen = true) ∧
    (164 ≤ lo.sess.h.free) ∧
    (lo4x.sess.h.lost ≠ 0) ∧
    (lo4x.sess.h.notices = []) ∧
    (lo4x.host.restart = none) ∧
    (lo4x.sess.h.isOpen = true) ∧
    (lo4x.sess.h.free < 164) ∧
    (Sess.t1 ≠ Sess.h) ∧
    ((lo5x.ses Sess.t1).lost ≠ 0) ∧
    ((lo5x.ses Sess.t1).notices = []) ∧
    (lo5x.host.restart = none) ∧
    (remoteCall rem = some call2x) ∧
    (164 ≤ (rem.ses Sess.h).free) ∧
    ((rem.ses Sess.h).isOpen = true) ∧
    (rem.host.restart = none) ∧
    ((atNode call2x).bind rem.tunnel = some tq) ∧
    (Sess.t2 ≠ Sess.h) ∧
    ((tid.ses Sess.t2).isOpen = true) ∧
    (tid.parN 22544 * 1000000 ≤ tid.since (tid.ses Sess.t2).lineAt) := by
  refine ⟨?_, ?_, ?_, ?_, ?_, ?_, ?_, ?_, ?_, ?_, ?_, ?_, ?_, ?_, ?_, ?_, ?_, ?_, ?_, ?_, ?_, ?_, ?_, ?_, ?_, ?_, ?_, ?_, ?_, ?_, ?_, ?_, ?_, ?_, ?_, ?_, ?_⟩ <;> first
  | decide +kernel
  | rfl
  | (unfold Ready; decide +kernel)
  | (rintro (_ | _) <;> decide +kernel)

theorem witness_RestartActs :
    (hostRuns (rs CommitPhase.stream true) = true) ∧
    (hostRuns (rs CommitPhase.build false) = true) ∧
    (hostRuns (rs CommitPhase.arm true) = true) ∧
    (hostRuns live = true) ∧
    (hostRuns live2x = true) ∧
    (hostRuns live3x = true) ∧
    (rsd.host.restart.isSome = true) ∧
    ((waits Sess.t2 "cal" (Wait.chunk [txt "a"] (txt "ok")) rsd).host.restart.isSome = true) ∧
    (rsd.host.restart = some (RestartCause.watchdog, 5)) ∧
    (rsd.host.stopped = false) ∧
    (50000 ≤ rsd.since 5) ∧
    (rsd2.host.restart = some (RestartCause.watchdog, 5)) ∧
    (rsd2.host.stopped = false) ∧
    (50000 ≤ rsd2.since 5) ∧
    (rsd3.host.restart = some (RestartCause.watchdog, 5)) ∧
    (rsd3.host.stopped = false) ∧
    (50000 ≤ rsd3.since 5) := by
  refine ⟨?_, ?_, ?_, ?_, ?_, ?_, ?_, ?_, ?_, ?_, ?_, ?_, ?_, ?_, ?_, ?_, ?_⟩ <;> first
  | decide +kernel
  | rfl
  | (unfold Ready; decide +kernel)
  | (rintro (_ | _) <;> decide +kernel)

theorem witness_ParamIsLent :
    (pwt2x.host.waiters = [(Sess.h, 5), (Sess.t1, 6)]) ∧
    ((pwt2x.ses Sess.h).isOpen = true) ∧
    ((pwt2x.ses Sess.h).running = some (rnOf pwt2x)) ∧
    (pwt2x.committing = false) ∧
    (pwt2x.host.restart = none) ∧
    (psdC.host.waiters = [(Sess.h, 5)]) ∧
    ((psdC.ses Sess.h).isOpen = true) ∧
    ((psdC.ses Sess.h).running = some (rnOf psd)) ∧
    (psdC.commit = some (cm CommitPhase.stream true)) ∧
    ((cm CommitPhase.stream true).load = false) ∧
    (psdC.host.restart = none) ∧
    (psdC.due (cm CommitPhase.stream true).piece 4000 = true) ∧
    (pwt3x.commit = some (cm CommitPhase.stream true)) ∧
    (pwt3x.host.restart = none) ∧
    (pwt3x.due (cm CommitPhase.stream true).piece 4000 = true) ∧
    (live.host.waiters = [] ∨ live.committing = true ∨ live.host.restart.isSome = true) ∧
    (Lock.fram ≠ Lock.param) ∧
    (∀ (c : Commit), pwt5x.commit = some c → c.load = true ∨ pwt5x.due c.piece 4000 = false) := by
  refine ⟨?_, ?_, ?_, ?_, ?_, ?_, ?_, ?_, ?_, ?_, ?_, ?_, ?_, ?_, ?_, ?_, ?_, ?_⟩ <;> first
  | decide +kernel
  | rfl
  | (unfold Ready; decide +kernel)
  | (rintro (_ | _) <;> decide +kernel)

/-- A chunked reply whose data lines all find room, and one whose data lines do not. -/
theorem witness_LinesGoOnOrEnd_resume :
    placed ((ch short).ses .h).used (dataLines .plain short) = short.length ∧
    placed ((ch long).ses .h).used (dataLines .plain long) < long.length := by decide +kernel

end Turns

/-! ### Witnesses: Link -/

namespace Link

/-! States and operands that the witnesses below name. -/

def tk : State := { live with acc := 79000, etFrac := 79, first := false, pe := { live.pe with downIn := 0 } }
def aux0 : List (BitVec 12) := [1,2,3,4,5,6,7,8]
def tk2x : State := { tk with acc := 70000 }
def tk3x : State := { tk with pe := { tk.pe with linked := false } }
def tk4x : State := { tk with pe := { tk.pe with trim := -20 }, tick := 0xFFFFFFFF }
def tk5x : State := { tk with first := true }
def tk6x : State := { tk with first := true, pwr := { tk.pwr with step := .leaving } }
def md : State := { live with msDue := true, bus := { live.bus with rx := live.bus.rx.map fun r => { r with words := [5], age := 7, cnt := 9 } } }
def mdb : State := { (md.withPar [(0x5000, 1), (0x4400, 2)]) with loop := md.loop.mod .a fun l => { l with st := .ready }, mot := md.mot.mod .a fun m => { m with st := .run } }
def md2x : State := { md with dev := .safe }
def md3x : State := { md with host := { md.host with restart := some (.parity, 5) } }
def ut : State := { live with link := { live.link with utSeq := 0xF, ucSeq := 0xF }, pe := { live.pe with utSeq := 0xF, ucSeq := 0xF, an := { live.pe.an with aux := aux0, conv := [1,2,3,4,5,6,7,8,9,10,11,12,13,14,15,4095] } } }
def utr : State := { ut with pe := { ut.pe with recs := [{ dseq := 4, code := 5, mask := 1, tick := 9 }] } }
def vo (f : SegState) : State := { live with pe := { live.pe with ut := f, uc := f, recs := utr.pe.recs } }
def b22 (n : Byte) : List Byte := (List.replicate 30 0).set 22 n
def dl : State := { live with link := { live.link with done := false } }
def dlu : State := { dl with link := { dl.link with gotUc := true } }
def dlm : State := { dlu with loop := live.loop.mod .a fun l => { l with st := .ready, word := { GateWord.off with cmd := 1 } } }
def dlm2x : State := { dlm with link := { dlm.link with gotUc := false } }
def dl2x : State := { dl with dev := .safe }
def dn (s : State) : Option DownFrame := match exec .loopEngineRun s with | .next t => t.link.down | _ => none
def vd (r : Bool) : State := { live with link := { live.link with down := dn dl, downRetry := r } }
def fr0 : DownFrame := match dn dl with | some f => f | none => { seq := 0, tickl := 0, ga := GateWord.off, gb := GateWord.off, dtype := 0, delta := [] }
def vd2x : State := { vd false with pe := { (vd false).pe with tick := (vd false).tick, downSeq := fr0.seq - 1 } }
def vd3x : State := { vd2x with pe := { vd2x.pe with downSeq := fr0.seq } }
def fr1 : DownFrame := { fr0 with ga := { GateWord.off with cmd := 6 } }
def vd4x : State := { vd2x with faults := [{ kind := 5, die := .peony, axes := 1, tick := 0, info := 0 }, { kind := 5, die := .peony, axes := 3, tick := 0, info := 0 }], link := { vd2x.link with clear := 1, down := some fr1 }, loop := vd2x.loop.mod .a fun l => { l with st := .latched } }
def vd5x : State := { vd2x with pe := { vd2x.pe with linked := false } }
def vd6x : State := { vd5x with link := { vd5x.link with downRetry := true } }
def armB (s : State) : State := { s with loop := (s.loop.mod .a fun l => { l with st := .ready }).mod .b fun l => { l with st := .catching }, mot := s.mot.mod .a fun m => { m with st := .run } }
def ov : State := armB { live with link := { live.link with overRun := 3, overNow := true } }
def lg : State := armB ({ live with link := { live.link with gapRun := 2, gotUc := false } }.withPar [(0x3000, 3)])
def tt : State := armB { live with link := { live.link with utAt := 0 } }
def sk : State := armB { live with link := { live.link with low := true, lowAt := 0, bst4 := 2 } }
def pg : State := { live with pe := { live.pe with gapRun := 9, linked := true, an := { live.pe.an with buck := true } } }
def pgc : State := { pg with pe := { pg.pe with ax := pg.pe.ax.mod .a fun a => { a with cmd := 1, hasDuty := true, leg := { a.leg with u := { a.leg.u with hi := true } } } } }
def tr : State := { live with boot := .train, ticking := false, link := { live.link with up := false, hdrOk := false, tries := 8, held := false } }
def th : State := { tr with link := { tr.link with hdrOk := true } }
def th4x : State := { th with pe := { th.pe with reply := some (segment [0xF0, 0x43, th.wrowBits.zeroExtend 8, 1]) } }
def live2x : State := { live with link := { live.link with gapFired := true, gapAfter := some 16, retrain := false } }

theorem witness_ReloadAdvancesTime :
    (tk.ticking = true) ∧
    (tk.first = false) ∧
    (tk.pwr.step = SleepStep.awake) ∧
    (tk.pe.downIn = 0) ∧
    (live.ticking = true) ∧
    (live.first = false) ∧
    (live.pwr.step = SleepStep.awake) ∧
    (live.pe.downIn = 0) ∧
    (tk2x.ticking = true) ∧
    (tk2x.first = false) ∧
    (tk2x.pwr.step = SleepStep.awake) ∧
    (tk2x.pe.downIn = 0) ∧
    (tk3x.ticking = true) ∧
    (tk3x.first = false) ∧
    (tk3x.pwr.step = SleepStep.awake) ∧
    (tk3x.pe.downIn = 0) ∧
    (tk4x.ticking = true) ∧
    (tk4x.first = false) ∧
    (tk4x.pwr.step = SleepStep.awake) ∧
    (tk4x.pe.downIn = 0) ∧
    (tk5x.ticking = true) ∧
    (tk5x.first = true) ∧
    (tk6x.ticking = true) ∧
    (tk6x.first = true) := by
  refine ⟨?_, ?_, ?_, ?_, ?_, ?_, ?_, ?_, ?_, ?_, ?_, ?_, ?_, ?_, ?_, ?_, ?_, ?_, ?_, ?_, ?_, ?_, ?_, ?_⟩ <;> first
  | decide +kernel
  | rfl
  | (unfold Ready; decide +kernel)
  | (rintro (_ | _) <;> decide +kernel)

theorem witness_MsWorkAndCentreAct :
    (md.ticking = true) ∧
    (md.msDue = true) ∧
    (md.host.restart = none) ∧
    (mdb.ticking = true) ∧
    (mdb.msDue = true) ∧
    (mdb.host.restart = none) ∧
    (md2x.ticking = true) ∧
    (md2x.msDue = true) ∧
    (md2x.host.restart = none) ∧
    (md3x.ticking = true) ∧
    (md3x.msDue = true) ∧
    (md3x.host.restart.isSome = true) ∧
    (live.ticking = true) ∧
    (live.msDue = false) := by
  refine ⟨?_, ?_, ?_, ?_, ?_, ?_, ?_, ?_, ?_, ?_, ?_, ?_, ?_, ?_⟩ <;> first
  | decide +kernel
  | rfl
  | (unfold Ready; decide +kernel)
  | (rintro (_ | _) <;> decide +kernel)

theorem witness_SegmentsArrive :
    (ut.pe.live = true) ∧
    (ut.ticking = true) ∧
    (ut.pe.ut = SegState.idle) ∧
    (ut.pe.an.aux.length = 8) ∧
    (ut.pe.uc = SegState.idle) ∧
    (ut.pe.an.conv.length = 16) ∧
    (utr.pe.live = true) ∧
    (utr.ticking = true) ∧
    (utr.pe.ut = SegState.idle) ∧
    (utr.pe.an.aux.length = 8) := by
  refine ⟨?_, ?_, ?_, ?_, ?_, ?_, ?_, ?_, ?_, ?_⟩ <;> first
  | decide +kernel
  | rfl
  | (unfold Ready; decide +kernel)
  | (rintro (_ | _) <;> decide +kernel)

theorem witness_VerdictsAct :
    ((vo (SegState.out (b22 5) 165)).pe.ut = SegState.out (b22 5) 165) ∧
    (165 ^^^ 0 = 165) ∧
    ((vo (SegState.out (b22 0) 90)).pe.ut = SegState.out (b22 0) 90) ∧
    (90 ^^^ 0 ≠ 165) ∧
    ((vo (SegState.retried (b22 0) 165)).pe.ut = SegState.retried (b22 0) 165) ∧
    (165 ^^^ 1 ≠ 165) ∧
    ((vo (SegState.out (b22 5) 165)).pe.uc = SegState.out (b22 5) 165) ∧
    ((vo (SegState.out (b22 0) 90)).pe.uc = SegState.out (b22 0) 90) ∧
    ((vo (SegState.retried (b22 0) 165)).pe.uc = SegState.retried (b22 0) 165) ∧
    (vd2x.link.down = some fr0) ∧
    (vd2x.pe.live = true) ∧
    (fr0.tickl = BitVec.extractLsb' 0 8 (vd2x.pe.tick + 1)) ∧
    (fr0.delta.length ≤ 32) ∧
    (fr0.dtype = 0) ∧
    (fr0.seq = vd2x.pe.downSeq + 1) ∧
    (fr0.ga.cmd ≠ 6) ∧
    (fr0.gb.cmd ≠ 6) ∧
    (vd3x.link.down = some fr0) ∧
    (vd3x.pe.live = true) ∧
    (fr0.tickl = BitVec.extractLsb' 0 8 (vd3x.pe.tick + 1)) ∧
    (fr0.seq = vd3x.pe.downSeq) ∧
    (vd4x.link.down = some fr1) ∧
    (vd4x.pe.live = true) ∧
    (fr1.tickl = BitVec.extractLsb' 0 8 (vd4x.pe.tick + 1)) ∧
    (fr1.delta.length ≤ 32) ∧
    (fr1.dtype = 0) ∧
    (fr1.seq = vd4x.pe.downSeq + 1) ∧
    (1 = ((if fr1.ga.cmd = 6 then 1 else 0) ||| if fr1.gb.cmd = 6 then 2 else 0) &&& vd4x.link.clear) ∧
    (vd5x.link.down = some fr0) ∧
    (vd5x.pe.live = false) ∧
    (vd5x.link.downRetry = false) ∧
    (vd6x.link.down = some fr0) ∧
    (vd6x.pe.live = false) ∧
    (vd6x.link.downRetry = true) := by
  refine ⟨?_, ?_, ?_, ?_, ?_, ?_, ?_, ?_, ?_, ?_, ?_, ?_, ?_, ?_, ?_, ?_, ?_, ?_, ?_, ?_, ?_, ?_, ?_, ?_, ?_, ?_, ?_, ?_, ?_, ?_, ?_, ?_, ?_, ?_⟩ <;> first
  | decide +kernel
  | rfl
  | (unfold Ready; decide +kernel)
  | (rintro (_ | _) <;> decide +kernel)

theorem witness_DownFrameGoesOut :
    (dl.ticking = true) ∧
    (dl.link.done = false) ∧
    (dlu.ticking = true) ∧
    (dlu.link.done = false) ∧
    (dlu.link.gotUc = true) ∧
    (dlu.dev ≠ Dev.safe) ∧
    (Option.any (fun x => x.load) dlu.commit = false) ∧
    (dlm.ticking = true) ∧
    (dlm.link.done = false) ∧
    (dlm.link.gotUc = true) ∧
    (dlm.dev ≠ Dev.safe) ∧
    (Option.any (fun x => x.load) dlm.commit = false) ∧
    (dlm2x.ticking = true) ∧
    (dlm2x.link.done = false) ∧
    (dl2x.ticking = true) ∧
    (dl2x.link.done = false) := by
  refine ⟨?_, ?_, ?_, ?_, ?_, ?_, ?_, ?_, ?_, ?_, ?_, ?_, ?_, ?_, ?_, ?_⟩ <;> first
  | decide +kernel
  | rfl
  | (unfold Ready; decide +kernel)
  | (rintro (_ | _) <;> decide +kernel)

theorem witness_AsterFaultsStop :
    (Instr.eOverrun = Instr.eOverrun ∧ 13 = 13 ∧ 3 ≤ ov.link.overRun ∧ ov.link.overNow = true ∧ ov.link.overStop = false ∧ (ov.faults.any fun f => f.kind == 13) = false) ∧
    (Instr.eLinkGap = Instr.eLinkGap ∧ 5 = 5 ∧ lg.ticking = true ∧ lg.link.gapFired = false ∧ lg.parN 12288 ≤ lg.gapNow) ∧
    (Instr.telemetryTimeout = Instr.telemetryTimeout ∧ 5 = 5 ∧ tt.ticking = true ∧ 2000 ≤ tt.since tt.link.utAt ∧ tt.gapLatched 2 = false) ∧
    (Instr.fltLStuck = Instr.fltLStuck ∧ 5 = 5 ∧ sk.ticking = true ∧ sk.link.low = true ∧ sk.link.flt = false ∧ 2000 ≤ sk.since sk.link.lowAt ∧ 2 ≤ sk.link.bst4 ∧ sk.gapLatched 1 = false) := by
  refine ⟨?_, ?_, ?_, ?_⟩ <;> first
  | decide +kernel
  | rfl
  | (unfold Ready; decide +kernel)
  | (rintro (_ | _) <;> decide +kernel)

theorem witness_PeonyGapsStop :
    (Instr.linkGapLimit = Instr.linkGapLimit ∧ 5 = 5 ∧ pg.pe.runs = true ∧ pg.ticking = true ∧ pg.pe.gapFired = false ∧ pg.pe.gapLimit ≤ pg.pe.gapNow) ∧
    (Instr.nckLoss = Instr.nckLoss ∧ 6 = 6 ∧ pg.pe.runs = true) ∧
    (Instr.linkGapLimit = Instr.linkGapLimit ∧ 5 = 5 ∧ pgc.pe.runs = true ∧ pgc.ticking = true ∧ pgc.pe.gapFired = false ∧ pgc.pe.gapLimit ≤ pgc.pe.gapNow) ∧
    (Instr.nckLoss = Instr.nckLoss ∧ 6 = 6 ∧ pgc.pe.runs = true) := by
  refine ⟨?_, ?_, ?_, ?_⟩ <;> first
  | decide +kernel
  | rfl
  | (unfold Ready; decide +kernel)
  | (rintro (_ | _) <;> decide +kernel)

theorem witness_TrainingActs :
    (tr.training = true) ∧
    (tr.pe.powered = true) ∧
    (tr.link.hdrOk = false) ∧
    (tr.link.tries ≠ 0) ∧
    (tr.link.held = false) ∧
    (tr.link.outside = false) ∧
    (th.link.hdrOk = true) ∧
    (th.pe.powered = true) ∧
    (th.link.hdrs < 4) ∧
    (tickLen (th.parN 13312) < 65536) ∧
    (th4x.link.hdrOk = true) ∧
    (th4x.pe.reply = some (segment [240, 67, BitVec.zeroExtend 8 th4x.wrowBits, 1])) ∧
    (live2x.ticking = true) ∧
    (live2x.link.gapFired = true) ∧
    (live2x.link.gapAfter = some 16) ∧
    (live2x.link.retrain = false) := by
  refine ⟨?_, ?_, ?_, ?_, ?_, ?_, ?_, ?_, ?_, ?_, ?_, ?_, ?_, ?_, ?_, ?_⟩ <;> first
  | decide +kernel
  | rfl
  | (unfold Ready; decide +kernel)
  | (rintro (_ | _) <;> decide +kernel)

/-- Peony samples in its tick. -/
theorem witness_MsWorkAndCentre_centre : live.ticking = true ∧ live.pe.runs = true := by decide +kernel

end Link

/-! ### Witnesses: Gates -/

namespace Gates

/-! States and operands that the witnesses below name. -/

def P : State := { live with pe := { live.pe with wrow := some 1 } }
def PC : State := { P with pe := { P.pe with ax := P.pe.ax.mod .a fun a => { a with cmd := 1, hasDuty := true, duty := { u := 5, v := 6, w := 7 }, leg := { a.leg with u := { a.leg.u with hi := true }, v := { a.leg.v with lo := true } } } } }
def PD : State := { PC with pe := { PC.pe with wrow := some 1, configured := true, active := memWrite PC.pe.active (gateBase .a + 10) 1 } }
def NP (s : State) : State := { s with pe := { s.pe with wrow := some 6 } }
def la (l : PLatch) : State := { PC with pe := { PC.pe with flt := true, faults := [(1, 1), (5, 3)], ax := PC.pe.ax.mod .a fun a => { a with latch := l } } }
def stg : State := { live with pe := { live.pe with staging := true, held := [0, 1, 3], active := memWrites [] 5 [1,2], shadow := memWrites [] 5 [7] } }
def opn : State := { stg with pe := { stg.pe with staging := false } }
def arm : State := { stg with pe := { stg.pe with armed := some 8, tick := 7, uc := .acked, ax := PC.pe.ax } }
def ctl : State := { live with pe := { live.pe with tick := 0x123456FF, ax := PC.pe.ax, an := { live.pe.an with buck := true } } }

theorem witness_GateCommandsDrive :
    (P.pe.live = true) ∧
    ((P.pe.ax.get Axis.a).latch = PLatch.free) ∧
    (PC.pe.live = true) ∧
    ((PC.pe.ax.get Axis.a).latch = PLatch.free) ∧
    (PC.gateHeld Axis.a = false) ∧
    (PC.pe.permit = true) ∧
    (PD.pe.live = true) ∧
    ((PD.pe.ax.get Axis.a).latch = PLatch.free) ∧
    (PD.gateHeld Axis.a = false) ∧
    (PD.pe.permit = true) ∧
    (PD.pe.directDis Axis.a = false) ∧
    (memRead PD.pe.active (gateBase Axis.a + 10) ≠ 0) ∧
    (BitVec.getLsbD (PC.pe.ax.get Axis.a).diag 14 = false) ∧
    ((PC.pe.ax.get Axis.a).cmd = 1 ∧ (PC.pe.ax.get Axis.a).hasDuty = true) ∧
    (BitVec.getLsbD (P.pe.ax.get Axis.a).diag 14 = false) ∧
    ((P.pe.ax.get Axis.a).cmd ≠ 1) ∧
    ((P.pe.ax.get Axis.a).cmd ≠ 7) ∧
    ((NP PC).pe.live = true) ∧
    (((NP PC).pe.ax.get Axis.a).latch = PLatch.free) ∧
    ((NP PC).pe.permit = false) := by
  refine ⟨?_, ?_, ?_, ?_, ?_, ?_, ?_, ?_, ?_, ?_, ?_, ?_, ?_, ?_, ?_, ?_, ?_, ?_, ?_, ?_⟩ <;> first
  | decide +kernel
  | rfl
  | (unfold Ready; decide +kernel)
  | (rintro (_ | _) <;> decide +kernel)

theorem witness_LatchCommandsAct :
    (PC.pe.live = true) ∧
    ((PC.pe.ax.get Axis.a).latch = PLatch.free) ∧
    ((la PLatch.relS).pe.live = true) ∧
    (((la PLatch.relS).pe.ax.get Axis.a).latch ≠ PLatch.free) := by
  refine ⟨?_, ?_, ?_, ?_⟩ <;> first
  | decide +kernel
  | rfl
  | (unfold Ready; decide +kernel)
  | (rintro (_ | _) <;> decide +kernel)

theorem witness_StagingOnPeony :
    (stg.pe.live = true) ∧
    (stg.pe.staging = true) ∧
    (256 % 4096 + 29 ≤ 3840) ∧
    (∀ (n : Nat), n ≤ (1 : Byte).toNat → stg.pe.held.contains n = true) ∧
    (stg.pe.held.contains 2 = false) ∧
    (arm.pe.live = true) ∧
    (arm.pe.armed = some (arm.pe.tick + 1)) ∧
    (arm.pe.runs = true) ∧
    (arm.pe.ucOver = true) ∧
    (opn.pe.live = true) ∧
    (opn.pe.staging = false) ∧
    (parseEntries 16 (List.take 31 [5, 32, 68, 69]) = [(5, [68, 69])]) ∧
    (5 + [68, 69].length ≤ 3840) ∧
    ([68, 69] ≠ []) := by
  refine ⟨?_, ?_, ?_, ?_, ?_, ?_, ?_, ?_, ?_, ?_, ?_, ?_, ?_, ?_⟩ <;> first
  | decide +kernel
  | rfl
  | (unfold Ready; decide +kernel)
  | (rintro (_ | _) <;> decide +kernel)

theorem witness_ControlEntriesAct :
    (ctl.pe.live = true) ∧
    (5 ≠ BitVec.extractLsb' 8 24 (ctl.pe.tick + 1)) ∧
    (ctl.pe.gapFired = false) ∧
    (live.pe.live = true) ∧
    (BitVec.getLsbD (live.pe.ax.get Axis.a).diag 14 = false) ∧
    ((live.pe.ax.get Axis.a).cmd = 0) ∧
    ((live.pe.ax.get Axis.a).latch ≠ PLatch.relS) ∧
    ((live.pe.ax.get Axis.a).latch ≠ PLatch.relE) ∧
    (3848 + [1, 2, 3, 4, 5, 6, 7].length ≤ 3855) ∧
    (parseEntries 16 (List.take 32 [48, 31, 68]) = [(3888, [68])]) := by
  refine ⟨?_, ?_, ?_, ?_, ?_, ?_, ?_, ?_, ?_, ?_⟩ <;> first
  | decide +kernel
  | rfl
  | (unfold Ready; decide +kernel)
  | (rintro (_ | _) <;> decide +kernel)


end Gates

/-! ### Witnesses: Protection -/

namespace Protection

/-! States and operands that the witnesses below name. -/

def legOn : State := live.modPax .a fun a => { a with cmd := 1, leg := a.leg.mod .u fun l => { l with hi := true, clampHi := false } }
def relE : State := (live.modPax .a fun a => { a with latch := .relE, leg := a.leg.map fun l => { l with lo := true } }).modPax .b fun a => { a with latch := .relS }
def direct7 : State := live.modPax .b fun a => { a with cmd := 7 }
def vlow : State := { legOn with pe := { legOn.pe with an := { legOn.pe.an with vgdLow := true } } }
def brk0 : State := { live with pe := { live.pe with isl := { live.pe.isl with brkPassive := false, slew := 3 } } }
def brkP : State := { live with pe := { live.pe with isl := { live.pe.isl with brkPassive := true } } }
def blk : State := live.modPax .a fun a => { a with leg := a.leg.mod .u fun l => { l with blank := true, hi := true } }
def busBlk : State := { live with pe := { live.pe with an := { live.pe.an with busBlank := true } } }
def recd : State := { relE with pe := { relE.pe with tickRecs := [{ dseq := 0, code := 2, mask := 0x81, tick := 0 }] } }
def fltA : State := { relE with link := { relE.link with flt := true, low := true } }
def fltP : State := { live with link := { live.link with low := true }, pe := { live.pe with flt := true }, loop := live.loop.mod .a fun l => { l with st := .ready }, mot := live.mot.mod .a fun m => { m with st := .run } }
def win : State := { live with sess := { live.sess with h := { live.sess.h with clearWin := { a := some 2000000, b := some 2000000 } } } }
def relT : State := relE.modPax .a fun a => { a with rel := { a.rel with low := false, since := 2999000, t := 1000 } }
def relN : State := relE.modPax .a fun a => { a with rel := { a.rel with low := false, since := 2999500, t := 1000 } }
def dg (w : W16) (n : Nat) : State := live.modPax .b fun a => { a with diag := w, diagClk := n }
def dg1 : State := dg 0x401C 240000
def dg3 : State := dg 0x401C 239999
def fltDg : State := fltP.modLoop .a fun l => { l with degr := .recon .u }
def fltMk : State := { fltP with link := { fltP.link with mark := some (3, 4) } }

theorem witness_GateSupplyActs :
    (live.pe.powered = true) ∧
    (live.pe.an.vgdLow = false) ∧
    ((1699#12).toNat < 1700) ∧
    (vlow.pe.powered = true) ∧
    (1800 < (1801#12).toNat) ∧
    (vlow.pe.an.vgdLow = true) ∧
    (legOn.pe.powered = true) ∧
    (((legOn.pe.ax.get Axis.a).leg.get Phase.v).btLow = false) ∧
    (((legOn.pe.ax.get Axis.a).leg.get Phase.v).hi = false) ∧
    (legOn.pe.an.vgdLow = false) ∧
    (((legOn.pe.ax.get Axis.a).leg.get Phase.u).btLow = false) ∧
    (((legOn.pe.ax.get Axis.a).leg.get Phase.u).hi = true) ∧
    ((legOn.pe.ax.get Axis.a).cmd ≠ 7) := by
  refine ⟨?_, ?_, ?_, ?_, ?_, ?_, ?_, ?_, ?_, ?_, ?_, ?_, ?_⟩ <;> first
  | decide +kernel
  | rfl
  | (unfold Ready; decide +kernel)
  | (rintro (_ | _) <;> decide +kernel)

theorem witness_PinsClampAndChopperAct :
    (direct7.pe.powered = true) ∧
    ((direct7.pe.ax.get Axis.b).cmd = 7) ∧
    ((direct7.pe.ax.get Axis.b).latch = PLatch.free) ∧
    (direct7.gateHeld Axis.b = false) ∧
    (((direct7.pe.ax.get Axis.b).leg.get Phase.w).btLow = false) ∧
    ((direct7.pe.ax.get Axis.a).cmd ≠ 7 ∨ (direct7.pe.ax.get Axis.a).latch ≠ PLatch.free) ∧
    (brk0.pe.isl.gbrk = false) ∧
    (brk0.pe.isl.brkPassive = false) ∧
    (live.pe.isl.brkOn < (3301#12).toNat) ∧
    ((3300#12).toNat ≤ live.pe.isl.brkOn) ∧
    ((3149#12).toNat < live.pe.isl.brkOff) ∧
    (live.pe.isl.brkOff ≤ (3150#12).toNat) ∧
    (brkP.pe.isl.brkPassive = true) := by
  refine ⟨?_, ?_, ?_, ?_, ?_, ?_, ?_, ?_, ?_, ?_, ?_, ?_, ?_⟩ <;> first
  | decide +kernel
  | rfl
  | (unfold Ready; decide +kernel)
  | (rintro (_ | _) <;> decide +kernel)

theorem witness_ProtectionActs :
    (blk.pe.powered = true) ∧
    (blk.blanking (Shunt.leg Axis.a Phase.u) = true) ∧
    (relE.pe.powered = true) ∧
    (relE.blanking (Shunt.leg Axis.a Phase.u) = false) ∧
    (recd.pe.powered = true) ∧
    (busBlk.pe.powered = true) ∧
    (busBlk.blanking Shunt.bus = true) ∧
    (blk.pe.vov < (3501#12).toNat) ∧
    ((3500#12).toNat ≤ blk.pe.vov) ∧
    (relE.pe.an.uvlo = false) ∧
    ((349#12).toNat < 350) ∧
    (375 < (376#12).toNat) ∧
    ((375#12).toNat ≤ 375) ∧
    ((relE.pe.ax.get Axis.b).latch = PLatch.relS) ∧
    ((relT.pe.ax.get Axis.a).latch = PLatch.relE) ∧
    ((relT.pe.ax.get Axis.a).rel.low = true ∨ (relT.pe.ax.get Axis.a).rel.t ≤ relT.since (relT.pe.ax.get Axis.a).rel.since) ∧
    ((relN.pe.ax.get Axis.a).latch = PLatch.relE) ∧
    ((relN.pe.ax.get Axis.a).rel.low = false) ∧
    (relN.since (relN.pe.ax.get Axis.a).rel.since < (relN.pe.ax.get Axis.a).rel.t) ∧
    (relN.ticking = true) ∧
    ((live.pe.ax.get Axis.a).latch = PLatch.free) := by
  refine ⟨?_, ?_, ?_, ?_, ?_, ?_, ?_, ?_, ?_, ?_, ?_, ?_, ?_, ?_, ?_, ?_, ?_, ?_, ?_, ?_, ?_⟩ <;> first
  | decide +kernel
  | rfl
  | (unfold Ready; decide +kernel)
  | (rintro (_ | _) <;> decide +kernel)

theorem witness_DiagnosisFltAndWindowAct :
    (16412 = (dg1.pe.ax.get Axis.b).diag) ∧
    (BitVec.getLsbD (16412 : W16) 14 = true) ∧
    (240000 ≤ (dg1.pe.ax.get Axis.b).diagClk) ∧
    (BitVec.getLsbD (dg1.pe.ax.get Axis.b).diag 14 = true) ∧
    (false = false ∧ (dg3.pe.ax.get Axis.b).diagClk < 240000) ∧
    (fltA.link.flt = true) ∧
    (fltA.link.low = true) ∧
    (fltA.pe.powered = true) ∧
    (fltP.inReset = false) ∧
    (fltP.pe.flt = true) ∧
    (fltP.link.low = true) ∧
    (fltP.link.mark = none) ∧
    (fltDg.inReset = false) ∧
    (fltDg.pe.flt = true) ∧
    (fltDg.link.low = true) ∧
    (fltDg.link.mark = none) ∧
    (fltMk.inReset = false) ∧
    (fltMk.pe.flt = true) ∧
    (fltMk.link.mark.isSome = true) ∧
    ((win.ses Sess.h).clearWin.get Axis.a = some 2000000) ∧
    (win.due 2000000 1000000 = true) := by
  refine ⟨?_, ?_, ?_, ?_, ?_, ?_, ?_, ?_, ?_, ?_, ?_, ?_, ?_, ?_, ?_, ?_, ?_, ?_, ?_, ?_, ?_⟩ <;> first
  | decide +kernel
  | rfl
  | (unfold Ready; decide +kernel)
  | (rintro (_ | _) <;> decide +kernel)


end Protection

/-! ### Witnesses: Position -/

namespace Position

/-! States and operands that the witnesses below name. -/

def enc : State := live.withPar [(0x10A0, 1), (0x10A1, 1), (0x10A3, 500), (0x10A4, 1), (0x10A5, 0), (0x10A6, 3)]
def hal : State := (live.withPar [(0x10A0, 2)]).modPos .a fun p => { p with hall := 1, lastCnt := some (5, 7, false) }
def sc1 : State := { live with pe := { live.pe with active := memWrite [] 0x100 1 } }
def encf : State := enc.withPar [(0x10A2, 1)]
def encz (s : State) : State := s.modPos .a fun p => { p with qz := true }
def lat1 : State := (live.withPar [(0x10AC, 1), (0x10AF, 3), (0x10AD, 1)]).modPos .a fun p => { p with pos := 77, wrap := 3 }
def win3 : State := live.modPos .b fun p => { p with winTicks := 4000, pos := 77, winPos := -4, lastCnt := some (3, 4, true) }
def armedA (s : State) : State := { s with loop := s.loop.mod .a fun l => { l with st := .ready }, mot := s.mot.mod .a fun m => { m with st := .run } }
def idxBad : State := armedA (enc.modPos .a fun p => { p with idxRun := 60000, valid := true })
def scBad : State := { armedA (live.withPar [(0x0050, 2)]) with sc := { SinCos.reset with qRun := 2 } }
def stall : State := (armedA live).modLoop .a fun l => { l with stallAt := some 0, openLoop := some (0, 0) }
def stall2 : State := { stall with etime := 9000000 }
def sense : State := (armedA live).modLoop .a fun l => { l with senseDue := some (false, 2) }
def opn : State := (armedA (live.withPar [(0x1079, 0)])).modLoop .a fun l => { l with openRun := { u := { ticks := 5, since := 0 }, v := { ticks := 5, since := 0 }, w := { ticks := 5, since := 0 } } }
def opn2 : State := opn.modLoop .a fun l => { l with degr := .limp .u }
def opn3 : State := { opn2 with etime := 20000000 }
def opn4 : State := opn3.modLoop .a fun l => { l with degr := .recon .u }
def obst : State := (armedA live).modMot .a fun m => { m with overN := 2 }
def obstD : State := (armedA live).modMot .a fun m => { m with obsDue := some false }
def susp : State := modTs 0 (fun x => { x with raw := some 100, cnt := some 0xFFFF, evals := 3, due := true, hot := true }) live
def hot7 : State := armedA (modTs 7 (fun x => { x with cnt := some 34000 }) live)
def sense2 : State := (armedA (live.withPar [(0x1073, 0)])).modLoop .a fun l => { l with sumRun := 4, resid := { u := 1, v := 5, w := 2 }, i := { u := 1, v := 2, w := 3 } }
def sense3 : State := sense2.modLoop .a fun l => { l with senseDue := some (true, 2) }
def opn5 : State := opn.withPar [(0x1079, 1)]
def obst2 : State := obst.modMot .a fun m => { m with copy := some { pkind := 1, react := 1, flags := 0, target := 5, endZone := 0, segs := [] } }
def obst3 : State := obst2.modMot .a fun m => { m with obsDue := some true }

theorem witness_PositionInputsAct :
    (enc.counting = true) ∧
    (true = if encFilt enc Axis.a ≤ 1000 then true else (enc.pos.get Axis.a).qa) ∧
    (false = if encFilt enc Axis.a ≤ 1000 then false else (enc.pos.get Axis.a).qb) ∧
    (hal.counting = true) ∧
    (3 = hallFiltered (hallFilt hal Axis.a) 3 (hal.pos.get Axis.a).hall 1000 1000 1000) ∧
    (sc1.counting = true) ∧
    (sc1.pe.powered = true) ∧
    (memRead sc1.pe.active 256 = 1) ∧
    (0 < encFilt encf Axis.a) ∧
    ((encz enc).counting = true) ∧
    (encFilt (encz enc) Axis.a ≤ 1000) ∧
    (((encz enc).pos.get Axis.a).qz = true) ∧
    (encFilt enc Axis.a ≤ 1000) ∧
    ((enc.pos.get Axis.a).qz = false) ∧
    (enc.axp Axis.a 165 ≠ 1) ∧
    (false = (lat1.pos.get Axis.a).pin 0) ∧
    (live.counting = true) ∧
    (pinFilt live Axis.a ≤ 1000) ∧
    (true ≠ (live.pos.get Axis.a).pin 0) ∧
    (pinEvent (live.latSrc Axis.a 0) true = false) ∧
    (lat1.counting = true) ∧
    (pinFilt lat1 Axis.a ≤ 1000) ∧
    (true ≠ (lat1.pos.get Axis.a).pin 0) ∧
    (lat1.latSrc Axis.a 0 = 1 ∧ true = true) ∧
    (win3.ticking = true) ∧
    (win3.axn Axis.b 169 ≤ (win3.pos.get Axis.b).winTicks) := by
  refine ⟨?_, ?_, ?_, ?_, ?_, ?_, ?_, ?_, ?_, ?_, ?_, ?_, ?_, ?_, ?_, ?_, ?_, ?_, ?_, ?_, ?_, ?_, ?_, ?_, ?_, ?_⟩ <;> first
  | decide +kernel
  | rfl
  | (unfold Ready; decide +kernel)
  | (rintro (_ | _) <;> decide +kernel)

theorem witness_AxisFaultsStop :
    (Instr.eEncIdx Axis.a = Instr.eEncIdx Axis.a ∧ 11 = 11 ∧ 1 = axBit Axis.a ∧ idxBad.axp Axis.a 167 ≤ ↑(idxBad.pos.get Axis.a).idxRun ∧ (idxBad.faults.any fun f => f.kind == 11 && hasAxis f.axes Axis.a) = false) ∧
    (Instr.eSincosAmp = Instr.eSincosAmp ∧ 12 = 12 ∧ 2 = axBit Axis.b ∧ scBad.scAxis = some Axis.b ∧ (scBad.par 85 ≤ ↑scBad.sc.outRun ∨ 2 ≤ scBad.sc.qRun) ∧ (scBad.faults.any fun f => f.kind == 12) = false) ∧
    (1 = axBit Axis.a) ∧
    ((stall.mot.get Axis.a).obsTick ≠ some stall.tick) ∧
    ((stall.loop.get Axis.a).stallAt = some 0) ∧
    (stall.axn Axis.a 74 * 1000 ≤ stall.since 0) ∧
    ((stall2.mot.get Axis.a).obsTick ≠ some stall2.tick) ∧
    ((stall2.loop.get Axis.a).openLoop.isSome = true ∧ stall2.axn Axis.a 57 * 1000 ≤ stall2.since (stall2.loop.get Axis.a).since) ∧
    (Instr.senseFailure Axis.a = Instr.senseFailure Axis.a ∧ 10 = 10 ∧ 1 = axBit Axis.a ∧ sense.armed Axis.a = true ∧ Option.any (fun d => !d.fst) (sense.loop.get Axis.a).senseDue = true) ∧
    (openProved opn Axis.a Phase.v = true) ∧
    (opn.armed Axis.a = true) ∧
    ((opn.loop.get Axis.a).senseTick ≠ some opn.tick) ∧
    ((opn.loop.get Axis.a).degr = Degraded.none ∧ (opn.axp Axis.a 121 ≠ 1 ∨ opn.commMode Axis.a = 4)) ∧
    (openProved opn2 Axis.a Phase.v = true) ∧
    (opn2.armed Axis.a = true) ∧
    ((opn2.loop.get Axis.a).senseTick ≠ some opn2.tick) ∧
    (Phase.u ≠ Phase.v) ∧
    ((opn2.loop.get Axis.a).degr = Degraded.limp Phase.u) ∧
    (opn3.axn Axis.a 76 * 100000 ≤ opn3.since (opn3.loop.get Axis.a).degrAt) ∧
    ((opn3.loop.get Axis.a).degr = Degraded.limp Phase.u) ∧
    (opn4.axn Axis.a 76 * 100000 ≤ opn4.since (opn4.loop.get Axis.a).degrAt) ∧
    ((opn4.loop.get Axis.a).degr = Degraded.recon Phase.u) ∧
    (Instr.obstruction Axis.a = Instr.obstruction Axis.a ∧ 8 = 8 ∧ 1 = axBit Axis.a ∧ (obstD.mot.get Axis.a).obsDue = some false ∧ obstD.coupled = false) ∧
    (Instr.tsSuspect 0 = Instr.tsSuspect 0 ∧ 14 = 14 ∧ 3 = 3 ∧ (susp.ts 0).due = true ∧ susp.asleep = false ∧ (susp.ts 0).hot = true) ∧
    ((hot7.ts 7).b5 = false ∧ (hot7.ts 7).cnt = some 34000 ∧ 34000 ≤ (hot7.ts 7).nOn) := by
  refine ⟨?_, ?_, ?_, ?_, ?_, ?_, ?_, ?_, ?_, ?_, ?_, ?_, ?_, ?_, ?_, ?_, ?_, ?_, ?_, ?_, ?_, ?_, ?_, ?_, ?_⟩ <;> first
  | decide +kernel
  | rfl
  | (unfold Ready; decide +kernel)
  | (rintro (_ | _) <;> decide +kernel)

theorem witness_DegradesAndReverses :
    (4 ≤ (sense2.loop.get Axis.a).sumRun) ∧
    ((sense2.loop.get Axis.a).degr = Degraded.none) ∧
    (failedChannel (sense2.loop.get Axis.a).resid = some Phase.v) ∧
    (sense2.axp Axis.a 115 = 0) ∧
    (sense3.armed Axis.a = true) ∧
    ((sense3.loop.get Axis.a).senseDue = some (true, 2)) ∧
    (openProved opn5 Axis.a Phase.w = true) ∧
    (opn5.armed Axis.a = true) ∧
    ((opn5.loop.get Axis.a).senseTick ≠ some opn5.tick) ∧
    ((opn5.loop.get Axis.a).degr = Degraded.none) ∧
    (opn5.axp Axis.a 121 = 1) ∧
    (opn5.commMode Axis.a ≠ 4) ∧
    (openProved live Axis.a Phase.u = false) ∧
    ((obst2.mot.get Axis.a).hit = true) ∧
    ((obst2.mot.get (otherAxis Axis.a)).hit = false) ∧
    ((obst2.mot.get Axis.a).obsDue = none) ∧
    (obst2.paired = false) ∧
    (reacts obst2 Axis.a = true) ∧
    (obst2.host.restart = none) ∧
    ((obst2.mot.get Axis.a).st = MotState.run) ∧
    (obst3.coupled = false) ∧
    ((obst3.mot.get Axis.a).obsDue = some true) := by
  refine ⟨?_, ?_, ?_, ?_, ?_, ?_, ?_, ?_, ?_, ?_, ?_, ?_, ?_, ?_, ?_, ?_, ?_, ?_, ?_, ?_, ?_, ?_⟩ <;> first
  | decide +kernel
  | rfl
  | (unfold Ready; decide +kernel)
  | (rintro (_ | _) <;> decide +kernel)


end Position

/-! ### Witnesses: Motion -/

namespace Motion

/-! States and operands that the witnesses below name. -/

def runH (w : Wait) : Running := { line := { len := 0, body := txt "x", frame := .plain, err := none, tick := 0, at_ := 0, enter := false, cut := false }, tick := 90, wait := w }
def waits (x : Sess) (w : Wait) (s : State) : State := s.modSes x fun se => { se with isOpen := true, running := some (runH w) }
def st (x : AxState) : State := (live.modLoop .a fun l => { l with st := x, since := 0 })
def pre : State := waits .h (.axis (.one .a) .arm) (st .precharge)
def sta : State := waits .t1 (.axis .all .arm) (waits .h (.axis (.one .a) .arm) (st .start))
def staFoc : State := (waits .h (.axis (.one .a) .arm) (st .start)).withPar [(0x1020, 3), (0x102C, 1)]
def wai : State := { waits .t1 (.axis .all .arm) (waits .h (.axis (.one .a) .arm) (st .wait)) with etime := 900000000 }
def ol : State := (live.withPar [(0x1035, 300)]).modLoop .a fun l => { l with openLoop := some (77, 3), lockAt := some 0, angle := 9000 }
def dis : State := waits .t1 (.axis .all .disarm) (waits .h (.axis (.one .a) (.move 1)) { (st .ready) with loop := (st .ready).loop.mod .a fun l => { l with disarming := true, iq := 3 }, mot := live.mot.mod .a fun m => { m with st := .run } })
def disD : State := dis.modLoop .a fun l => { l with degr := .limp .v }
def stallD : State := { (live.modLoop .a fun l => { l with st := .ready, stallAt := some 0 }) with mot := { a := { live.mot.a with st := .run }, b := { live.mot.b with st := .run } } }
def stallE : State := stallD.modLoop .b fun l => { l with st := .ready, degr := .recon .u }
def sm : Tri Int := { u := 2048 * 4096 + 4096 * 64, v := 2048 * 4096 - 4096 * 64, w := 2048 * 4096 }
def co : State := waits .h (.calOffset .a) (live.modLoop .a fun l => { l with cal := some (.offset 1024 sm (List.replicate 10 100)) })
def vms : List Nat := List.replicate 10 100
def co3 : State := co.modLoop .a fun l => { l with cal := some (.offset 1023 sm vms) }
def co4 : State := { co with etime := 5000000, commit := none }.modLoop .a fun l => { l with st := .ready }
def cmt : Commit := { load := false, by_ := .line .h, ents := [(0x20, 3)], phase := .stream, blocks := [], made := 0, queue := [0], opened := true, start := 0, window := 50, sw := none, swAck := false, setp0 := false, recOk := false, gen := 5, applied := none, err := 0, piece := 0 }
def co5 : State := { co with commit := some cmt }
def smBad : Tri Int := { u := 2048 * 4096 + 4096 * 65, v := 2048 * 4096 - 4096 * 64, w := 2048 * 4096 }
def co2 : State := waits .h (.calOffset .a) (live.modLoop .a fun l => { l with cal := some (.offset 1024 smBad vms) })
def ca : State := waits .h (.calAlign .a) ((live.withPar [(0x10A0, 1), (0x10A3, 500), (0x1021, 4), (0x10E1, 2)]).modLoop .a fun l => { l with cal := some (.align 6 0 100 1100 100 [(0, 5)] [(0, 9)]) })
def ca2 : State := ca.modLoop .a fun l => { l with cal := some (.align 6 0 100 1201 100 [(0, 5)] [(0, 9)]) }
def ca3 : State := { ca with commit := some cmt }
def cpy : ProfCopy := { pkind := 2, react := 0, flags := 3, target := 4000, endZone := 5, segs := [{ kind := 6, speed := 5, rate := 5, dist := 0 }] }
def liveG : State := { live with link := { live.link with gotUc := true } }
def es1 : State := waits .h (.axis (.one .a) .stop) (liveG.modMot .a fun m => { m with st := .run, endFound := true })
def es2 : State := liveG.modMot .a fun m => { m with st := .run, copy := some cpy, seg := 0, homeAt := some 0, segBuf := [(0, { kind := 6, speed := 5, rate := 5, dist := 0 })] }
def pus : State := { ((liveG.withPar [(0x11C0, 1), (0x11C2, 100)]).modLoop .a fun l => { l with st := .ready, obs := 5000 }).modMot .a (fun m => { m with pushAt := some (0, true) }) with etime := 20000000 }
def pue : State := liveG.modMot .a fun m => { m with st := .assist, pushEnd := some 2500000, pushHold := true }
def lg : Learn := { pair := false, next := 1, run := true, dirPos := true, bad := 0, donePos := 4, doneNeg := 5, recPos := [], recNeg := [], cur := [(1, 2)], asked := false }
def lrn : State := live.modMot .a fun m => { m with learn := some lg, result := .done }
def b5 : State := { live with pe := { live.pe with an := { live.pe.an with ts := List.replicate 6 34660, buck := true } } }
def xch : State := modTs 6 (fun x => { x with raw := some 100, cnt := some 0xFFFF, evals := 3, due := true, hot := false }) (live.withPar [(0x3830, 0)])
def slp : State := { live with dev := .stop }
def chg (st : ChgState) : State := (live.withPar [(0x4400, 2), (0x440A, 1), (0x4409, 1), (0x4413, 1), (0x440F, 1), (0x4401, 12)]).modChg fun c => { c with st := st, tPre := 60000, tSafety := 360000, tAbsorb := 60001, tRestart := 60001, tVin := 6, tBackup := 2, tLimit := 1001, tReturn := 101, clampMs := List.replicate 1000 0 }
def ret (v : W16) : State := { (chg .backup) with link := { live.link with tel := live.link.tel.set 2 (some v) } }
def hw : State := { live with pe := { live.pe with gapFired := true, runtime := memWrite [] 0xF0E 1, an := { live.pe.an with b5 := live.pe.an.b5.set 4 true, chgStop := [.gap, .clamp], buck := true, needRun := true, vmH := [100], batH := [100] } } }

theorem witness_AxisFaultsStop_Motion :
    (1 = axBit Axis.a) ∧
    ((stallE.mot.get Axis.a).obsTick ≠ some stallE.tick) ∧
    ((stallE.loop.get Axis.a).stallAt = some 0) ∧
    (stallE.axn Axis.a 74 * 1000 ≤ stallE.since 0) := by
  refine ⟨?_, ?_, ?_, ?_⟩ <;> first
  | decide +kernel
  | rfl
  | (unfold Ready; decide +kernel)
  | (rintro (_ | _) <;> decide +kernel)

theorem witness_ArmingGoesOn :
    ((pre.loop.get Axis.a).st = AxState.precharge) ∧
    ((pre.loop.get Axis.a).disarming = false) ∧
    (pre.axn Axis.a 105 * 100 ≤ pre.since (pre.loop.get Axis.a).since) ∧
    ((sta.loop.get Axis.a).st = AxState.start) ∧
    ((sta.loop.get Axis.a).disarming = false) ∧
    (alignsStart sta Axis.a = false) ∧
    ((staFoc.loop.get Axis.a).st = AxState.start) ∧
    ((staFoc.loop.get Axis.a).disarming = false) ∧
    (alignsStart staFoc Axis.a = true) ∧
    (staFoc.axn Axis.a 52 * 1000 ≤ staFoc.since (staFoc.loop.get Axis.a).since) ∧
    ((wai.loop.get Axis.a).st = AxState.wait) ∧
    (wai.axn Axis.a 50 * 1000 ≤ wai.since (wai.loop.get Axis.a).since) ∧
    (((st AxState.catching).loop.get Axis.a).st = AxState.catching) ∧
    (50000 ≤ (st AxState.catching).since ((st AxState.catching).loop.get Axis.a).since) ∧
    ((ol.loop.get Axis.a).openLoop = some (77, 3)) ∧
    ((ol.loop.get Axis.a).lockAt = some 0) ∧
    (50000 ≤ ol.since 0) ∧
    ((dis.loop.get Axis.a).disarming = true) ∧
    (dis.armed Axis.a = true) ∧
    (20000 ≤ dis.since (dis.loop.get Axis.a).since) ∧
    ((dis.loop.get Axis.a).degr = Degraded.none) ∧
    ((disD.loop.get Axis.a).disarming = true) ∧
    (20000 ≤ disD.since (disD.loop.get Axis.a).since) ∧
    (degradedFault (disD.loop.get Axis.a).degr = some (9, 2)) ∧
    ((disD.mot.get Axis.a).st = MotState.run ∨ (disD.mot.get Axis.a).st = MotState.stopping ∨ (disD.mot.get Axis.a).st = MotState.reversing) := by
  refine ⟨?_, ?_, ?_, ?_, ?_, ?_, ?_, ?_, ?_, ?_, ?_, ?_, ?_, ?_, ?_, ?_, ?_, ?_, ?_, ?_, ?_, ?_, ?_, ?_, ?_⟩ <;> first
  | decide +kernel
  | rfl
  | (unfold Ready; decide +kernel)
  | (rintro (_ | _) <;> decide +kernel)

theorem witness_CalibrationsEnd :
    ((co.loop.get Axis.a).cal = some (CalRun.offset 1024 sm vms)) ∧
    (co.disarmed Axis.a = true ∧ stillFor co Axis.a = true ∧ vmSteady vms = true) ∧
    (∀ (q : Int), q ∈ sm.toList → (offsetOf q).natAbs ≤ 64) ∧
    (co.commit = none) ∧
    (co.fram.journal.length < 64) ∧
    ((co3.loop.get Axis.a).cal = some (CalRun.offset 1023 sm vms)) ∧
    ((co4.loop.get Axis.a).cal = some (CalRun.offset 1024 sm vms)) ∧
    (¬(co4.disarmed Axis.a = true ∧ stillFor co4 Axis.a = true ∧ vmSteady vms = true)) ∧
    ((co5.loop.get Axis.a).cal = some (CalRun.offset 1024 sm vms)) ∧
    (co5.disarmed Axis.a = true ∧ stillFor co5 Axis.a = true ∧ vmSteady vms = true) ∧
    (co5.commit.isSome = true) ∧
    ((co2.loop.get Axis.a).cal = some (CalRun.offset 1024 smBad vms)) ∧
    (co2.disarmed Axis.a = true ∧ stillFor co2 Axis.a = true ∧ vmSteady vms = true) ∧
    (¬∀ (q : Int), q ∈ smBad.toList → (offsetOf q).natAbs ≤ 64) ∧
    ((ca.loop.get Axis.a).cal = some (CalRun.align 6 0 100 1100 100 [(0, 5)] [(0, 9)])) ∧
    ((ca.loop.get Axis.a).st = AxState.disarmed) ∧
    ((fun p => ↑(BitVec.ofInt 32 (1100 - p)).toInt - alignExpect ca Axis.a ≤ alignExpect ca Axis.a / 10 ∧ alignExpect ca Axis.a - ↑(BitVec.ofInt 32 (1100 - p)).toInt ≤ alignExpect ca Axis.a / 10) 100 ∧ (fun p => ↑(BitVec.ofInt 32 (1100 - p)).toInt - alignExpect ca Axis.a ≤ alignExpect ca Axis.a / 10 ∧ alignExpect ca Axis.a - ↑(BitVec.ofInt 32 (1100 - p)).toInt ≤ alignExpect ca Axis.a / 10) 100) ∧
    (ca.commit = none) ∧
    (ca.fram.journal.length < 64) ∧
    ((ca2.loop.get Axis.a).cal = some (CalRun.align 6 0 100 1201 100 [(0, 5)] [(0, 9)])) ∧
    ((ca2.loop.get Axis.a).st = AxState.disarmed) ∧
    (¬((fun p => ↑(BitVec.ofInt 32 (1201 - p)).toInt - alignExpect ca2 Axis.a ≤ alignExpect ca2 Axis.a / 10 ∧ alignExpect ca2 Axis.a - ↑(BitVec.ofInt 32 (1201 - p)).toInt ≤ alignExpect ca2 Axis.a / 10) 100 ∧ (fun p => ↑(BitVec.ofInt 32 (1201 - p)).toInt - alignExpect ca2 Axis.a ≤ alignExpect ca2 Axis.a / 10 ∧ alignExpect ca2 Axis.a - ↑(BitVec.ofInt 32 (1201 - p)).toInt ≤ alignExpect ca2 Axis.a / 10) 100)) ∧
    ((ca3.loop.get Axis.a).cal = some (CalRun.align 6 0 100 1100 100 [(0, 5)] [(0, 9)])) ∧
    ((ca3.loop.get Axis.a).st = AxState.disarmed) ∧
    ((fun p => ↑(BitVec.ofInt 32 (1100 - p)).toInt - alignExpect ca3 Axis.a ≤ alignExpect ca3 Axis.a / 10 ∧ alignExpect ca3 Axis.a - ↑(BitVec.ofInt 32 (1100 - p)).toInt ≤ alignExpect ca3 Axis.a / 10) 100 ∧ (fun p => ↑(BitVec.ofInt 32 (1100 - p)).toInt - alignExpect ca3 Axis.a ≤ alignExpect ca3 Axis.a / 10 ∧ alignExpect ca3 Axis.a - ↑(BitVec.ofInt 32 (1100 - p)).toInt ≤ alignExpect ca3 Axis.a / 10) 100) ∧
    (ca3.commit.isSome = true) ∧
    ((live.loop.get Axis.a).cal = none) := by
  refine ⟨?_, ?_, ?_, ?_, ?_, ?_, ?_, ?_, ?_, ?_, ?_, ?_, ?_, ?_, ?_, ?_, ?_, ?_, ?_, ?_, ?_, ?_, ?_, ?_, ?_, ?_, ?_⟩ <;> first
  | decide +kernel
  | rfl
  | (unfold Ready; decide +kernel)
  | (rintro (_ | _) <;> decide +kernel)

theorem witness_MotionFindsItsEnd :
    (es1.link.gotUc = true) ∧
    ((es1.mot.get Axis.a).st = MotState.run) ∧
    ((es1.mot.get Axis.a).segKind ≠ 6) ∧
    ((es1.mot.get Axis.a).endFound = true) ∧
    ((es1.loop.get Axis.a).degr = Degraded.none) ∧
    (es2.link.gotUc = true) ∧
    ((es2.mot.get Axis.a).st = MotState.run) ∧
    ((es2.mot.get Axis.a).segKind = 6) ∧
    (es2.homed Axis.a = true) ∧
    ((es2.loop.get Axis.a).degr = Degraded.none) ∧
    (pus.link.gotUc = true) ∧
    ((pus.mot.get Axis.a).pushAt = some (0, true)) ∧
    (pus.axp Axis.a 451 * 1000 ≤ ↑(pus.since 0)) ∧
    ((pushNow pus Axis.a).isSome = true) ∧
    (pus.axp Axis.a 448 ≠ 2) ∧
    (pue.link.gotUc = true) ∧
    ((pue.mot.get Axis.a).st = MotState.assist) ∧
    ((pue.mot.get Axis.a).pushEnd = some 2500000) ∧
    (500000 ≤ pue.since 2500000) ∧
    (live.link.gotUc = false) ∧
    (lrn.coupled = false) ∧
    ((lrn.mot.get Axis.a).learn = some lg) ∧
    (lg.run = true) ∧
    (lg.pair = false) ∧
    (lrn.moving Axis.a = false) ∧
    ((lrn.mot.get Axis.a).result = MotResult.done) := by
  refine ⟨?_, ?_, ?_, ?_, ?_, ?_, ?_, ?_, ?_, ?_, ?_, ?_, ?_, ?_, ?_, ?_, ?_, ?_, ?_, ?_, ?_, ?_, ?_, ?_, ?_, ?_⟩ <;> first
  | decide +kernel
  | rfl
  | (unfold Ready; decide +kernel)
  | (rintro (_ | _) <;> decide +kernel)

theorem witness_TemperatureActs :
    (live.pe.runs = true) ∧
    (live.temp.ts.length = 8) ∧
    (live.dev = Dev.boot ∨ live.dev = Dev.run ∨ live.dev = Dev.safe) ∧
    (b5.pe.powered = true) ∧
    (b5.inB5 0 = false) ∧
    (BitVec.toNat (nth b5.pe.an.ts (0) 65535) ≤ b5.pe.nOn 0) ∧
    ((xch.ts 6).due = true) ∧
    ((xch.ts 6).hot = false) ∧
    (xch.temp.ts.length = 8) ∧
    (xch.asleep = false) ∧
    (slp.asleep = true) := by
  refine ⟨?_, ?_, ?_, ?_, ?_, ?_, ?_, ?_, ?_, ?_, ?_⟩ <;> first
  | decide +kernel
  | rfl
  | (unfold Ready; decide +kernel)
  | (rintro (_ | _) <;> decide +kernel)

theorem witness_ChargerActs :
    ((chg ChgState.pre).host.restart = none) ∧
    ((chg ChgState.pre).chg.st = ChgState.pre) ∧
    ((chg ChgState.pre).parN 17418 * 60000 ≤ (chg ChgState.pre).chg.tPre) ∧
    ((chg ChgState.bulk).host.restart = none) ∧
    ((chg ChgState.bulk).chg.st = ChgState.pre ∨ (chg ChgState.bulk).chg.st = ChgState.bulk ∨ (chg ChgState.bulk).chg.st = ChgState.absorb) ∧
    ((chg ChgState.bulk).parN 17417 * 360000 ≤ (chg ChgState.bulk).chg.tSafety) ∧
    ((chg ChgState.absorb).host.restart = none) ∧
    ((chg ChgState.absorb).chg.st = ChgState.absorb) ∧
    (60000 < (chg ChgState.absorb).chg.tAbsorb) ∧
    ((chg ChgState.done).host.restart = none) ∧
    ((chg ChgState.done).chg.st = ChgState.float ∨ (chg ChgState.done).chg.st = ChgState.trickle ∨ (chg ChgState.done).chg.st = ChgState.done) ∧
    (60000 < (chg ChgState.done).chg.tRestart) ∧
    ((chg ChgState.float).host.restart = none) ∧
    ((chg ChgState.float).chg.st.charging = true) ∧
    (1000 ≤ (chg ChgState.float).chg.clampMs.length) ∧
    (5 < (chg ChgState.float).chg.tVin) ∧
    ((chg ChgState.pause).host.restart = none) ∧
    ((chg ChgState.pause).chg.st ≠ ChgState.off) ∧
    ((chg ChgState.pause).chg.st ≠ ChgState.error) ∧
    ((chg ChgState.pause).chg.st ≠ ChgState.backup) ∧
    (1 < (chg ChgState.pause).chg.tBackup) ∧
    ((chg ChgState.bulk).chg.st = ChgState.bulk) ∧
    ((chg ChgState.bulk).par 17408 = 2) ∧
    (1000 < (chg ChgState.bulk).chg.tLimit) ∧
    ((ret 700).host.restart = none) ∧
    ((ret 700).chg.st = ChgState.backup) ∧
    ((ret 700).parN 17427 * 100 < (ret 700).chg.tReturn) ∧
    (vbat (ret 700) = some 14000) ∧
    ((ret 700).par 17408 ≠ 0) ∧
    ((ret 700).par 17423 ≠ 0) ∧
    (hw.pe.powered = true) ∧
    (ChgStop.zch = ChgStop.zch → hw.inB5 4 = true) ∧
    (ChgStop.zch = ChgStop.gap → hw.pe.gapFired = true) ∧
    (ChgStop.zch = ChgStop.headroom → hw.pe.headroom 150 = true) ∧
    (ChgStop.zch = ChgStop.clamp → hw.pe.overMax = true) := by
  refine ⟨?_, ?_, ?_, ?_, ?_, ?_, ?_, ?_, ?_, ?_, ?_, ?_, ?_, ?_, ?_, ?_, ?_, ?_, ?_, ?_, ?_, ?_, ?_, ?_, ?_, ?_, ?_, ?_, ?_, ?_, ?_, ?_, ?_, ?_, ?_⟩ <;> first
  | decide +kernel
  | rfl
  | (unfold Ready; decide +kernel)
  | (rintro (_ | _) <;> decide +kernel)


end Motion

/-! ### Witnesses: Power -/

namespace Power

/-! States and operands that the witnesses below name. -/

def pw (f : Power → Power) (s : State) : State := { s with pwr := f s.pwr }
def drain : State := pw (fun p => { p with step := .drain, banks := 3, mask := 0xFF }) (live.modPos .a fun p => { p with pos := 77, wrap := 3 })
def drainM : State := { drain with mode := true }
def slp : State := pw (fun p => { p with step := .asleep, pmbus := 0, banks := 3, mask := 0xFF, timer := 5 }) live
def flu : State := pw (fun p => { p with step := .flush, mask := 0xFF }) { live with faults := [{ kind := 7, die := .aster, axes := 1, tick := 0, info := 0 }] }
def fluW : State := pw (fun p => { p with watch := true }) flu
def flu3 : State := { flu with host := { flu.host with restart := some (.watchdog, 5) } }
def wch : State := pw (fun p => { p with step := .asleep, watch := true, pmbus := 0, mask := 0xFF, refHall := .both 3, src := 63, noRsp := 2 }) live
def h4 : List (BitVec 3) := [3, 3, 3, 3]
def q4 : List (BitVec 2) := [0, 0, 0, 0]
def pm (n : Nat) : State := pw (fun p => { p with pmbus := n }) live
def pm2 : State := pw (fun p => { p with step := .asleep, banks := 3 }) (pm 2)
def pm2v : Nat := vcoreAsked pm2
def pm3 : State := pw (fun p => { p with step := .leaving, banks := 3 }) (pm 3)
def leav : State := pw (fun p => { p with step := .leaving, pmbus := 0, lpoOn := true, banks := 1, woken := 4, es := 3 }) { live with ticking := false, sess := { live.sess with h := { live.sess.h with level := .installer } } }
def leavA : State := pw (fun p => { p with abort := some (.wake .rxd) }) leav
def bus (st : BusState) : State := { (live.withPar [(0x5000, 1), (0x5100, 5), (0x5005, 2)]) with bus := { Bus.reset with st := st, cycle := 6, ran := true, hearing := 5, lock := 1, node := if st = .master then 0 else 3 } }
def busT (st : BusState) : State := takeBusSet (bus st)
def ownF (s : State) : State := { s with bus := { s.bus with own := some (1, 0, [1, 2, 3, 4]) } }
def busM : State := { bus .master with bus := { (bus .master).bus with cycled := true } }
def busE : State := { busM with bus := { busM.bus with stopping := true } }
def iv0 : Nat := 80 * ((busT .sync).busSet 0x5002).toNat
def j0 : Nat := iv0 + (busT .sync).bus.comp - (2 + ((busT .sync).busSet 0x500A).toNat)
def busL : State := { busT .sync with bus := { (busT .sync).bus with miss := 60000 } }
def busS : State := { busT .sync with bus := { (busT .sync).bus with sent := [1], due := [(1, 0x28, 0), (2, 0x48, 1)] } }

theorem witness_SleepGoesOn :
    (drain.pwr.step = SleepStep.drain) ∧
    (drain.sess.h.out = []) ∧
    (drain.sess.h.held = []) ∧
    (closing drain = false) ∧
    (drain.mode = false) ∧
    (drainM.pwr.step = SleepStep.drain) ∧
    (drainM.sess.h.out = []) ∧
    (drainM.sess.h.held = []) ∧
    (closing drainM = false) ∧
    (drainM.mode = true) ∧
    (drainM.pwr.woken = 0) ∧
    (live.pwr.step ≠ SleepStep.drain) ∧
    (wakeActs slp WakeSrc.bus = true) ∧
    (slp.pwr.step = SleepStep.asleep) ∧
    (slp.pwr.pmbus = 0) ∧
    (slp.mode = false) ∧
    (wakeActs drain WakeSrc.wake0 = true) ∧
    (wakeActs slp WakeSrc.vm = false) ∧
    (wakeActs fluW WakeSrc.wake0 = true) ∧
    (fluW.pwr.watch = true) ∧
    (fluW.pwr.step = SleepStep.flush) ∧
    (wakeActs flu WakeSrc.rxd = true) ∧
    (flu.pwr.watch = false) ∧
    (flu.pwr.step = SleepStep.flush) ∧
    (flu.pwr.abort = none) ∧
    (flu.faults ≠ []) ∧
    (flu3.pwr.watch = false) ∧
    (flu3.pwr.step = SleepStep.flush) ∧
    (flu3.pwr.abort = none) ∧
    (flu3.host.restart.isSome = true) ∧
    (wakeActs slp WakeSrc.timer = true) ∧
    (wch.pwr.step = SleepStep.asleep) ∧
    (wch.pwr.watch = true) ∧
    (wch.pwr.pmbus = 0) ∧
    ((Option.filter (islandSends wch.pe) (watchRsp (155 :: 0 :: crcBytes [0]))).isSome = true) ∧
    (∀ (i : Nat), i < 6 → nth (crocusFindings wch h4 h4 q4 q4 (Option.filter (islandSends wch.pe) (watchRsp (155 :: 0 :: crcBytes [0])))) i none = some false) ∧
    (Option.filter (islandSends wch.pe) (watchRsp []) = none) ∧
    (2 ≤ wch.pwr.noRsp) ∧
    (wch.mode = false) := by
  refine ⟨?_, ?_, ?_, ?_, ?_, ?_, ?_, ?_, ?_, ?_, ?_, ?_, ?_, ?_, ?_, ?_, ?_, ?_, ?_, ?_, ?_, ?_, ?_, ?_, ?_, ?_, ?_, ?_, ?_, ?_, ?_, ?_, ?_, ?_, ?_, ?_, ?_, ?_, ?_⟩ <;> first
  | decide +kernel
  | rfl
  | (unfold Ready; decide +kernel)
  | (rintro (_ | _) <;> decide +kernel)

theorem witness_ExitsGoOn :
    ((pm 1).pwr.pmbus = 1) ∧
    (readbackPasses (pm 1) 900 = true) ∧
    (pm2.pwr.pmbus = 2) ∧
    (readbackPasses pm2 pm2v = true) ∧
    (pm2.pwr.woken = 0) ∧
    (pm3.pwr.pmbus = 3) ∧
    (readbackPasses pm3 900 = true) ∧
    (live.dev = Dev.run) ∧
    (live.pwr.step = SleepStep.awake) ∧
    (leav.pwr.step = SleepStep.leaving) ∧
    (leav.pwr.pmbus = 0) ∧
    (leav.link.up = true) ∧
    (leav.pwr.abort = none) ∧
    (leav.pwr.lpoOn = true) ∧
    (0 < 2 ^ 40 - 1) ∧
    (leav.pwr.lpo < 2 ^ 40 - 1) ∧
    (leavA.pwr.step = SleepStep.leaving) ∧
    (leavA.pwr.pmbus = 0) ∧
    (leavA.link.up = true) ∧
    (leavA.pwr.abort = some (AbortSrc.wake WakeSrc.rxd)) ∧
    (leavA.safe = 0) := by
  refine ⟨?_, ?_, ?_, ?_, ?_, ?_, ?_, ?_, ?_, ?_, ?_, ?_, ?_, ?_, ?_, ?_, ?_, ?_, ?_, ?_, ?_⟩ <;> first
  | decide +kernel
  | rfl
  | (unfold Ready; decide +kernel)
  | (rintro (_ | _) <;> decide +kernel)

set_option maxRecDepth 20000 in
theorem witness_BusCyclesGo :
    ((ownF (busT BusState.sync)).busLive = true) ∧
    ((ownF (busT BusState.sync)).par 20480 = 1) ∧
    ((ownF (busT BusState.sync)).bus.st ≠ BusState.off) ∧
    ((bus BusState.master).busLive = true) ∧
    ((bus BusState.master).par 20480 = 1) ∧
    ((bus BusState.master).bus.own = none) ∧
    ((bus BusState.master).bus.st = BusState.master) ∧
    ((bus BusState.master).bus.stopping = false) ∧
    (busE.busLive = true) ∧
    (busE.par 20480 = 1) ∧
    (busE.bus.own = none) ∧
    (busE.bus.st = BusState.master) ∧
    (busE.bus.stopping = true) ∧
    ((bus BusState.listen).busLive = true) ∧
    ((bus BusState.listen).par 20480 = 1) ∧
    ((bus BusState.listen).bus.own = none) ∧
    ((bus BusState.listen).bus.st = BusState.listen) ∧
    (5 ≠ schedHash (takeBusSet (bus BusState.listen)).busSet) ∧
    ((busT BusState.sync).busLive = true) ∧
    ((busT BusState.sync).par 20480 = 1) ∧
    ((busT BusState.sync).bus.own = none) ∧
    ((busT BusState.sync).bus.st = BusState.sync) ∧
    ((busT BusState.sync).bus.stopping = false) ∧
    (j0 = ((iv0 : Int) + (busT BusState.sync).bus.comp - (2 + ((takeBusSet (busT BusState.sync)).busSet 20490).toNat : Nat)).toNat) ∧
    (intervalOk (busT BusState.sync).busSet j0 = true) ∧
    (↑(busT BusState.sync).bus.miss + 1 < (busT BusState.sync).par 20486) ∧
    (busL.busLive = true) ∧
    (busL.par 20480 = 1) ∧
    (busL.bus.own = none) ∧
    (busL.bus.st = BusState.sync) ∧
    (busL.bus.stopping = false) ∧
    (busL.par 20486 ≤ ↑busL.bus.miss + 1) ∧
    ((ownF busS).busLive = true) ∧
    ((ownF busS).par 20480 = 1) ∧
    ((ownF busS).bus.sent ≠ []) ∧
    ((busT BusState.sync).busSync = true ∨ (busT BusState.sync).bus.st = BusState.locking ∨ (busT BusState.sync).bus.st = BusState.badid) ∧
    ((busT BusState.hash).busLive = true) ∧
    ((busT BusState.hash).par 20480 = 1) ∧
    ((busT BusState.hash).bus.st = BusState.listen ∨ (busT BusState.hash).bus.st = BusState.hash) ∧
    (busS.busLive = true) ∧
    (busS.par 20480 = 1) ∧
    (ownBefore busS = false) ∧
    (busS.busSync = true) := by
  refine ⟨?_, ?_, ?_, ?_, ?_, ?_, ?_, ?_, ?_, ?_, ?_, ?_, ?_, ?_, ?_, ?_, ?_, ?_, ?_, ?_, ?_, ?_, ?_, ?_, ?_, ?_, ?_, ?_, ?_, ?_, ?_, ?_, ?_, ?_, ?_, ?_, ?_, ?_, ?_, ?_, ?_, ?_, ?_⟩ <;> first
  | decide +kernel
  | rfl
  | (unfold Ready; decide +kernel)
  | (rintro (_ | _) <;> decide +kernel)


end Power

/-! ### Witnesses: Bus -/

namespace Bus

/-! States and operands that the witnesses below name. -/

def runL (body : String) (w : Wait) : Running := { line := { len := 0, body := txt body, frame := .plain, err := none, tick := 0, at_ := 0, enter := false, cut := false }, tick := 90, wait := w }
def waits (x : Sess) (w : Wait) (s : State) : State := s.modSes x fun se => { se with isOpen := true, running := some (runL "at 3 x" w) }
def sw (kind owner len start : Nat) : Int := kind * 2^28 + owner * 2^23 + len * 2^17 + start
def sched : List (Nat × Int) := [(0x5000, 1), (0x5100, sw 1 3 8 100), (0x5101, sw 1 5 8 400), (0x5102, sw 2 3 32 900), (0x5200, 0), (0x5210, 64), (0x5300, 1), (0x5310, 0), (0x500B, 1), (0x500C, 1), (0x5007, 5)]
def bus (st : BusState) : State := takeBusSet { (live.withPar sched) with bus := { Bus.reset with st := st, cycle := 6, ran := true, hearing := 5, lock := 1, node := 3, tx := Bus.reset.tx.set 0 { words := List.replicate 8 1, back := List.replicate 8 7, fresh := true, age := 3 } } }
def sy : State := bus .sync
def txbuf2x : TxBuf := { words := List.replicate 8 1, back := List.replicate 8 7, fresh := true, age := 3 }
def ownF (s : State) : State := { s with bus := { s.bus with own := some (1, 0, [1, 2, 3, 4]) } }
def sy2x : State := { sy with bus := { sy.bus with tun := [] , turn := 0 } }
def grp (b : Byte) : State := { (sy.withPar [(0x1100, 1), (0x1101, 50), (0x1102, 100), (0x1103, 100), (0x1104, 100), (0x1105, 10)]) with bus := { sy.bus with ready := [(9, b)] }, loop := sy.loop.mod .a fun l => { l with st := .ready }, pos := sy.pos.mod .a fun p => { p with valid := true } }
def grpS : State := { grp 0x48 with mot := sy.mot.mod .a fun m => { m with st := .run } }
def t0 : Tunnel := { Tunnel.fresh 3 with opened := true, unack := some (1, 0, true, []), txSeq := 9, rxSeq := 4, at_ := 0, want := some 7 }
def tu (t : Tunnel) : State := { sy with bus := { sy.bus with tun := [Tunnel.fresh 1, t] } }
def full : State := { sy with sess := { sy.sess with t1 := { sy.sess.t1 with isOpen := true }, t2 := { sy.sess.t1 with isOpen := true }, t3 := { sy.sess.t1 with isOpen := true }, t4 := { sy.sess.t1 with isOpen := true } } }
def t1 : Tunnel := { t0 with sess := some .t2, unack := none, opened := false, acc := [0x41] }
def sv : State := (tu t1).modSes .t2 fun se => { se with isOpen := true, peer := some 3, staging := [(1,1)] }
def t2 : Tunnel := { t0 with unack := none, opened := true, acc := textBytes (txt "#7 o") }
def rm : State := waits .h .remote (tu t2)
def body : List Byte := textBytes (txt "k*XXXX")
def call2x : Call := { x := .h, line := (runL "at 3 x" .remote).line, word := txt "at", tick := 90 }
def call3x : Call := { x := .h, line := (runL "at 3 x" .remote).line, word := txt "at", tick := 90 }

theorem witness_SlotsAndGroupsAct :
    ((ownF sy).busLive = true) ∧
    ((ownF sy).par 20480 = 1) ∧
    ((ownF sy).bus.own = some (1, 0, [1, 2, 3, 4])) ∧
    (sy.busLive = true) ∧
    (sy.par 20480 = 1) ∧
    (sy.bus.own = none) ∧
    (sy.busSync = true) ∧
    (slotOwner (schedWord sy.busSet 0) = sy.bus.node) ∧
    (slotKind (schedWord sy.busSet 0) = 1) ∧
    (List.find? (fun k => sy.busSet (20992 + 16 * k) == ↑0) (List.range 4) = some 0) ∧
    (sy.bus.tx[0]? = some txbuf2x) ∧
    (slotOwner (schedWord sy.busSet 1) ≠ sy.bus.node) ∧
    (sy2x.busLive = true) ∧
    (sy2x.par 20480 = 1) ∧
    (sy2x.bus.own = none) ∧
    (sy2x.busSync = true) ∧
    (slotOwner (schedWord sy2x.busSet 2) = sy2x.bus.node) ∧
    (slotKind (schedWord sy2x.busSet 2) = 2) ∧
    (∀ (q : Nat), servedPeer sy2x = some q → sy2x.tunnel q = none) ∧
    (slotKind (schedWord sy.busSet 1) = 1) ∧
    ([1, 2, 3, 4, 5, 6, 7, 8].length = slotLen (schedWord sy.busSet 1)) ∧
    ([1, 2, 3, 4, 5, 6, 7, 8].length < 256) ∧
    (slotOwner (schedWord sy.busSet 1) < 32) ∧
    (slotKind (schedWord sy.busSet 1) ≠ 0) ∧
    ((grp 40).busLive = true) ∧
    ((grp 40).par 20480 = 1) ∧
    (takeReady 1 (grp 40).bus.ready = some ((9, 40), [])) ∧
    (grpAxes (9, 40).snd = axBit Axis.a) ∧
    (lineGoverns (grp 40) Axis.a = false) ∧
    (moveCheck (grp 40) Axis.a (40 % 8) = none) ∧
    ((grp 48).busLive = true) ∧
    ((grp 48).par 20480 = 1) ∧
    (takeReady 1 (grp 48).bus.ready = some ((9, 48), [])) ∧
    (grpAxes (9, 48).snd = axBit Axis.b) ∧
    ((moveCheck (grp 48) Axis.b (48 % 8)).isSome = true) ∧
    (grpS.busLive = true) ∧
    (grpS.par 20480 = 1) ∧
    (takeReady 2 grpS.bus.ready = some ((9, 72), [])) ∧
    (grpAxes (9, 72).snd = axBit Axis.a) ∧
    (lineGoverns grpS Axis.a = false) ∧
    (grpS.coupled = false) ∧
    (grpS.moving Axis.a = true) ∧
    ((grpS.loop.get Axis.a).hand ≠ some AxCmd.disarm) ∧
    (takeReady 1 sy.bus.ready = none) ∧
    (takeReady 2 sy.bus.ready = none) := by
  refine ⟨?_, ?_, ?_, ?_, ?_, ?_, ?_, ?_, ?_, ?_, ?_, ?_, ?_, ?_, ?_, ?_, ?_, ?_, ?_, ?_, ?_, ?_, ?_, ?_, ?_, ?_, ?_, ?_, ?_, ?_, ?_, ?_, ?_, ?_, ?_, ?_, ?_, ?_, ?_, ?_, ?_, ?_, ?_, ?_, ?_⟩ <;> first
  | decide +kernel
  | rfl
  | (unfold Ready; decide +kernel)
  | (rintro (_ | _) <;> decide +kernel)

theorem witness_TunnelsAct :
    ((tu t0).busLive = true) ∧
    ((tu t0).bus.st ≠ BusState.off) ∧
    ((tu t0).tunnel 3 = some t0) ∧
    (t0.unack = some (1, 0, true, [])) ∧
    (t0.txSeq = 9) ∧
    (t0.opened = true) ∧
    ((bus BusState.master).busLive = true) ∧
    ((bus BusState.master).bus.st ≠ BusState.off) ∧
    ((bus BusState.master).tunnel 4 = none) ∧
    (freeSession (bus BusState.master) = some Sess.t1) ∧
    ((bus BusState.master).receives = true) ∧
    (full.busLive = true) ∧
    (full.bus.st ≠ BusState.off) ∧
    (full.tunnel 4 = none) ∧
    (freeSession full = none) ∧
    (sv.busLive = true) ∧
    (sv.bus.st ≠ BusState.off) ∧
    (sv.tunnel 3 = some t1) ∧
    (t1.sess = some Sess.t2) ∧
    ((sv.ses Sess.t2).isOpen = true) ∧
    ((sv.ses Sess.t2).peer = some 3) ∧
    (t1.unack = none) ∧
    (sv.receives = true) ∧
    (rm.busLive = true) ∧
    (rm.bus.st ≠ BusState.off) ∧
    (rm.tunnel 3 = some t2) ∧
    (t2.unack = none) ∧
    (remoteFor (3) rm = some call2x) ∧
    ((rm.ses Sess.h).isOpen = true) ∧
    (rm.host.restart = none) ∧
    (164 ≤ (rm.ses Sess.h).free) ∧
    (remoteText t2.want (bytesText (t2.acc ++ unpad (textBytes (txt "k*1234")))) = some (txt "ok")) ∧
    ((tu t2).busLive = true) ∧
    ((tu t2).bus.st ≠ BusState.off) ∧
    ((tu t2).tunnel 3 = some t2) ∧
    (remoteFor (3) (tu t2) = none) ∧
    ((tu t2).host.restart = none) ∧
    (sy.busLive = true) ∧
    (sy.bus.st ≠ BusState.off) ∧
    (sy.tunnel 5 = none) ∧
    (remoteFor (3) rm = some call3x) := by
  refine ⟨?_, ?_, ?_, ?_, ?_, ?_, ?_, ?_, ?_, ?_, ?_, ?_, ?_, ?_, ?_, ?_, ?_, ?_, ?_, ?_, ?_, ?_, ?_, ?_, ?_, ?_, ?_, ?_, ?_, ?_, ?_, ?_, ?_, ?_, ?_, ?_, ?_, ?_, ?_, ?_, ?_⟩ <;> first
  | decide +kernel
  | rfl
  | (unfold Ready; decide +kernel)
  | (rintro (_ | _) <;> decide +kernel)


end Bus

/-! ### Witnesses: Commits -/

namespace Commits

/-! States and operands that the witnesses below name. -/

def runL (body : String) (w : Wait) : Running := { line := { len := 0, body := txt body, frame := .plain, err := none, tick := 0, at_ := 0, enter := false, cut := false }, tick := 90, wait := w }
def waits (x : Sess) (w : Wait) (s : State) : State := s.modSes x fun se => { se with isOpen := true, running := some (runL "x" w) }
def cm (ents : Store) (p : CommitPhase) : Commit := { load := false, by_ := .line .h, ents := ents, phase := p, blocks := [], made := 0, queue := [], opened := true, start := 0, window := 50, sw := none, swAck := false, setp0 := false, recOk := false, gen := 5, applied := none, err := 0, piece := 0 }
def cs (c : Commit) : State := waits .h .commit { live with commit := some c, sess := { live.sess with h := { live.sess.h with staging := c.ents } } }
def e1 : Store := [(0x0020, 300)]
def e2 : Store := [(0x3000, 5)]
def fram0 (s : State) : State := { s with fram := { s.fram with cur := none, queue := [] } }
def rq (op : FramOp) (l : Nat) : FramReq := { prio := 1, op := op, left := l, tries := 0, aged := false, at_ := 0 }
def fr (r : FramReq) : State := { live with fram := { live.fram with cur := some r } }
def cf (c : Commit) (r : FramReq) : State := { cs c with fram := { live.fram with cur := some r } }
def cm2x : Commit := { cm e2 .arm with sw := some 5 }
def cm3x : Commit := { cm e1 .applyWait with sw := some 99, applied := some 99, recOk := true }
def rmk : FramReq := { rq (.mark 0x33 5) 1 with tries := 2 }
def mks : State := { cf cm3x rmk with fram := { live.fram with cur := some rmk, journal := [JRec.make 4 (recEntries e2) true, JRec.make 5 (recEntries e1) true] } }
def jr (n : Nat) : JRec := { JRec.make (BitVec.ofNat 32 (n + 1)) [(0x20, 2, n)] true with state := 0x33 }
def fold (n : Nat) : State := { live with fram := { live.fram with journal := (List.range n).map jr, slot0 := some { gen := 100, vals := [], crc := slotCrc 100 [] } } }
def le : LogEntry := { lseq := 0, tick := 5, etime := 2998000, flags := 0, kind := 0x20, dseq := 4, axes := 1, mask := 0, arg0 := 4, arg1 := 3, pin := false }
def rle : FramReq := { rq .logEntry 1 with prio := 4, tries := 2 }
def frl (k : Nat) : State := { fr rle with log := { live.log with queue := [{ le with kind := k, lseq := 7 }], next := 8 } }
def fbase (u : BaseUse) : State := waits .h (.base u) (fr (rq (.base u e1) 1))
def fbase0 : State := fbase .save
def dmp (a b : Option Nat) : State := waits .h (.dump a b) { fr (rq (.logRead .h) 1) with log := { live.log with queue := [{ le with lseq := 7 }, { le with lseq := 8, kind := 5 }], next := 9 } }
def ag (r : FramReq) : State := { live with fram := { live.fram with queue := [r, r] } }
def r3 : FramReq := { rq .hostRead 2 with prio := 3, at_ := 2998000 }
def hd : State := { live with log := { live.log with hold := [(le, 2998000)], next := 0xFFFFFFFF } }
def aw (b : Bool) : State := { live with log := { live.log with await := [(9, 2998000, none, b), (10, 0, none, b)] }, sess := { live.sess with h := { live.sess.h with held := [{ notice := false, chars := txt "ok", rate := none }] } } }
def ln (s : String) (r : Option Nat) : OutLine := { notice := false, chars := txt s, rate := r }
def ou (l : OutLine) (b : Bool) : State := { live with sess := { live.sess with h := { live.sess.h with out := [l, l] } }, host := { live.host with cts := b } }
def ouC : State := (ou (ln "ok" none) true).withPar [(0x5801, 1)]
def orun (j : OtpJob) (p : Bool) (todo : List (Nat × BitVec 39)) : OtpRun := { job := j, by_ := .h, todo := todo, pulse := p, again := 0, begun := p, saving := none }
def ot (r : OtpRun) : State := waits .h .otp { live with otp := { live.otp with run := some r, array := [(7, 0x11)] }, fram := { live.fram with intent := r.todo.head? } }
def warm (s : State) : State := { s with temp := { s.temp with ts := s.temp.ts.map fun x => { x with evals := 3, eff := some 100 } } }
def run7 : OtpRun := orun (.burn 7) false [(7, 0x13)]
def run7s : OtpRun := { run7 with saving := some (some (txt "ok")) }
def otSv : State := waits .h .otp { ot run7s with fram := { (ot run7s).fram with cur := some (rq .otpState 1) } }
def rp : OtpRun := orun (.burn 7) true [(7, 0x13)]
def rwr : OtpRun := orun (.wired 5) true [(0x200, 5)]
def live2x : State := { live with dev := .watch }
def live3x : State := { live with dev := .off }
def lr : State := { State.reset with pe := { State.reset.pe with faults := [(1,1)], active := memWrite [] 4 4, ax := .both { PAxis.reset with latch := .rest } } }
def xt : State := { State.reset with boot := .train, pwr := { State.reset.pwr with xtal := true } }
def ld : Commit := { cm [] .stream with load := true }
def lds : State := { live with dev := .boot, boot := .load, commit := some ld, mtick := 200 }
def bt : State := { live with dev := .boot, boot := .analog }

theorem witness_CommitPhasesGoOn :
    ((fram0 (cs (cm e1 CommitPhase.build))).commit = some (cm e1 CommitPhase.build)) ∧
    ((cm e1 CommitPhase.build).load = false) ∧
    ((cm e1 CommitPhase.build).phase = CommitPhase.build) ∧
    ((fram0 (cs (cm e1 CommitPhase.build))).host.restart = none) ∧
    (needsSwitch (fram0 (cs (cm e1 CommitPhase.build))) (cm e1 CommitPhase.build).ents = false) ∧
    ((fram0 (cs (cm e1 CommitPhase.build))).recReady = false ∨ (fram0 (cs (cm e1 CommitPhase.build))).ticking = true ∧ (cm e1 CommitPhase.build).applied = none ∧ (cm e1 CommitPhase.build).sw = none) ∧
    ((cs (cm e2 CommitPhase.build)).commit = some (cm e2 CommitPhase.build)) ∧
    ((cm e2 CommitPhase.build).load = false) ∧
    ((cm e2 CommitPhase.build).phase = CommitPhase.build) ∧
    ((cs (cm e2 CommitPhase.build)).host.restart = none) ∧
    (needsSwitch (cs (cm e2 CommitPhase.build)) (cm e2 CommitPhase.build).ents = true) ∧
    ((cf (cm e1 CommitPhase.build) (rq FramOp.record 1)).commit = some (cm e1 CommitPhase.build)) ∧
    ((cm e1 CommitPhase.build).recOk = false) ∧
    ((cf (cm e1 CommitPhase.build) (rq FramOp.record 1)).fram.cur = some (rq FramOp.record 1)) ∧
    ((rq FramOp.record 1).op = FramOp.record) ∧
    ((rq FramOp.record 1).left ≤ 1) ∧
    ((cf (cm e1 CommitPhase.build) (rq FramOp.record 1)).fram.queue = []) ∧
    ((cf (cm e1 CommitPhase.build) (rq FramOp.record 1)).fram.present = true) ∧
    (recEntries (cm e1 CommitPhase.build).ents ≠ []) ∧
    ((cs (cm e2 CommitPhase.stream)).commit = some (cm e2 CommitPhase.stream)) ∧
    ((cm e2 CommitPhase.stream).load = false) ∧
    ((cs (cm e2 CommitPhase.stream)).host.restart = none) ∧
    ((cm e2 CommitPhase.stream).window ≤ BitVec.toNat ((cs (cm e2 CommitPhase.stream)).mtick - (cm e2 CommitPhase.stream).start)) ∧
    ((cm e2 CommitPhase.stream).phase = CommitPhase.stream ∨ (cm e2 CommitPhase.stream).phase = CommitPhase.arm ∧ (cm e2 CommitPhase.stream).sw = none) ∧
    ((cs cm2x).commit = some cm2x) ∧
    (cm2x.load = false) ∧
    ((cs cm2x).host.restart = none) ∧
    (cm2x.window ≤ BitVec.toNat ((cs cm2x).mtick - cm2x.start)) ∧
    (cm2x.phase = CommitPhase.arm) ∧
    (cm2x.sw = some 5) ∧
    (cm2x.err = 0) ∧
    (mks.commit = some cm3x) ∧
    (cm3x.applied = some 99) ∧
    (cm3x.by_ = CommitBy.line Sess.h) ∧
    (mks.fram.cur = some rmk) ∧
    (rmk.left ≤ 1) ∧
    (mks.fram.queue = []) ∧
    (rmk.op = FramOp.mark 51 cm3x.gen) ∧
    (mks.host.restart = none) ∧
    ((mks.ses Sess.h).isOpen = true) ∧
    ((mks.ses Sess.h).running = some (runL "x" Wait.commit)) ∧
    ((runL "x" Wait.commit).wait = Wait.commit) ∧
    (∀ (z : Sess), z ≠ Sess.h → Option.map (fun x => x.wait) (mks.ses z).running ≠ some Wait.commit) ∧
    (mks.fram.present = true) ∧
    (rmk.tries = 2) ∧
    (foldDue (fold 48) = true) ∧
    (foldDue (fold 47) = false) := by
  refine ⟨?_, ?_, ?_, ?_, ?_, ?_, ?_, ?_, ?_, ?_, ?_, ?_, ?_, ?_, ?_, ?_, ?_, ?_, ?_, ?_, ?_, ?_, ?_, ?_, ?_, ?_, ?_, ?_, ?_, ?_, ?_, ?_, ?_, ?_, ?_, ?_, ?_, ?_, ?_, ?_, ?_, ?_, ?_, ?_, ?_, ?_, ?_⟩ <;> first
  | decide +kernel
  | rfl
  | (unfold Ready; decide +kernel)
  | (rintro (_ | _) <;> decide +kernel)

theorem witness_FramLogAndUartGoOn :
    ((fr (rq FramOp.hostRead 2)).fram.cur = some (rq FramOp.hostRead 2)) ∧
    ((fr (rq FramOp.hostRead 2)).fram.queue = []) ∧
    (1 < (rq FramOp.hostRead 2).left) ∧
    ((fr (rq FramOp.hostRead 2)).fram.present = true) ∧
    ((rq FramOp.hostRead 2).op ≠ FramOp.logEntry) ∧
    ((frl 32).fram.cur = some rle) ∧
    ((frl 32).fram.queue = []) ∧
    (rle.op = FramOp.logEntry) ∧
    (rle.tries < 3) ∧
    ((fr (rq (FramOp.prefetchSeg Axis.a) 1)).fram.cur = some (rq (FramOp.prefetchSeg Axis.a) 1)) ∧
    ((fr (rq (FramOp.prefetchSeg Axis.a) 1)).fram.queue = []) ∧
    (framTries (rq (FramOp.prefetchSeg Axis.a) 1).op = none) ∧
    ((fr (rq (FramOp.intent 7 5) 1)).fram.cur = some (rq (FramOp.intent 7 5) 1)) ∧
    ((fr (rq (FramOp.intent 7 5) 1)).fram.queue = []) ∧
    ((rq (FramOp.intent 7 5) 1).left ≤ 1) ∧
    ((fr (rq (FramOp.intent 7 5) 1)).fram.present = true) ∧
    ((rq (FramOp.intent 7 5) 1).op = FramOp.intent 7 5) ∧
    (fbase0.fram.cur = some (rq (FramOp.base BaseUse.save e1) 1)) ∧
    (fbase0.fram.queue = []) ∧
    ((rq (FramOp.base BaseUse.save e1) 1).left ≤ 1) ∧
    (fbase0.fram.present = true) ∧
    ((rq (FramOp.base BaseUse.save e1) 1).op = FramOp.base BaseUse.save e1) ∧
    ((dmp none none).fram.cur = some (rq (FramOp.logRead Sess.h) 1)) ∧
    ((dmp none none).fram.queue = []) ∧
    ((rq (FramOp.logRead Sess.h) 1).left ≤ 1) ∧
    ((dmp none none).fram.present = true) ∧
    ((rq (FramOp.logRead Sess.h) 1).op = FramOp.logRead Sess.h) ∧
    (((dmp none none).ses Sess.h).isOpen = true) ∧
    (((dmp none none).ses Sess.h).running = some (runL "x" (Wait.dump none none))) ∧
    ((runL "x" (Wait.dump none none)).wait = Wait.dump none none) ∧
    (((dmp none none).ses Sess.h).notices = []) ∧
    (holdsReply (dmp none none) Sess.h (runL "x" (Wait.dump none none)).line.tick = false) ∧
    (Safety.placed ((dmp none none).ses Sess.h).used (dataLines (runL "x" (Wait.dump none none)).line.frame (List.map entryLine (dumpEntries (dmp none none) none none))) = (List.map entryLine (dumpEntries (dmp none none) none none)).length) ∧
    ((fr r3).fram.cur = some r3) ∧
    (1 < r3.left) ∧
    (r3.aged = false) ∧
    (3 ≤ r3.prio) ∧
    (2000 ≤ BitVec.toNat ((fr r3).etime - r3.at_)) ∧
    (∀ (c : FramReq), (ag r3).fram.cur = some c → c.left ≤ 1 ∨ c.aged = true) ∧
    ((ag r3).fram.queue = [r3, r3]) ∧
    (2000 ≤ BitVec.toNat ((ag r3).etime - r3.at_)) ∧
    (hd.log.hold = [(le, 2998000)]) ∧
    (hd.due (le, 2998000).snd 2000 = true) ∧
    (hd.host.restart = none) ∧
    (hd.log.next ≤ 4294967295) ∧
    (hd.log.queue.length < 64) ∧
    (hd.fram.present = true) ∧
    ((aw false).log.await = [(9, 2998000, none, false), (10, 0, none, false)]) ∧
    ((aw false).due 2998000 2000 = true) ∧
    ((aw false).host.restart = none) ∧
    ((aw false).fram.present = true) ∧
    ((aw false).log.next + (aw false).log.hold.length ≤ 4294967295) ∧
    ((aw false).log.queue.length + (aw false).log.hold.length < 64) ∧
    (ouC.ctsHolds = true) ∧
    (ouC.host.shifting = false) ∧
    ((ou (ln "ok" none) false).ctsHolds = false) ∧
    ((ou (ln "ok" none) false).sess.h.out = [ln "ok" none, ln "ok" none]) ∧
    (1 < List.length (ln "ok" none).chars) ∧
    ((ou (ln "ok" none) false).sess.h.notices = []) ∧
    ((ou (ln "o" (some 55)) false).ctsHolds = false) ∧
    ((ou (ln "o" (some 55)) false).sess.h.out = [ln "o" (some 55), ln "o" (some 55)]) ∧
    (List.length (ln "o" (some 55)).chars ≤ 1) ∧
    ((ou (ln "o" (some 55)) false).sess.h.notices = []) ∧
    ((ou (ln "o" (some 55)) false).host.resetting = false) := by
  refine ⟨?_, ?_, ?_, ?_, ?_, ?_, ?_, ?_, ?_, ?_, ?_, ?_, ?_, ?_, ?_, ?_, ?_, ?_, ?_, ?_, ?_, ?_, ?_, ?_, ?_, ?_, ?_, ?_, ?_, ?_, ?_, ?_, ?_, ?_, ?_, ?_, ?_, ?_, ?_, ?_, ?_, ?_, ?_, ?_, ?_, ?_, ?_, ?_, ?_, ?_, ?_, ?_, ?_, ?_, ?_, ?_, ?_, ?_, ?_, ?_, ?_, ?_, ?_, ?_⟩ <;> first
  | decide +kernel
  | rfl
  | (unfold Ready; decide +kernel)
  | (rintro (_ | _) <;> decide +kernel)

theorem witness_PulsesBurn :
    ((warm (ot run7)).otp.run = some run7) ∧
    (run7.todo = [(7, 19)]) ∧
    (run7.pulse = false) ∧
    (run7.saving = none) ∧
    ((warm (ot run7)).host.restart = none) ∧
    ((warm (ot run7)).fram.intent = some (7, 19)) ∧
    ((warm (ot run7)).otpWindow = true) ∧
    ((ot run7).otp.run = some run7) ∧
    ((ot run7).host.restart = none) ∧
    ((ot run7).fram.intent = some (7, 19)) ∧
    ((ot run7).otpWindow = false) ∧
    (otSv.otp.run = some run7s) ∧
    (run7s.saving = some (some (txt "ok"))) ∧
    (otSv.fram.cur = some (rq FramOp.otpState 1)) ∧
    ((rq FramOp.otpState 1).op = FramOp.otpState) ∧
    ((rq FramOp.otpState 1).left ≤ 1) ∧
    (otSv.fram.queue = []) ∧
    (otSv.fram.present = true) ∧
    (otSv.host.restart = none) ∧
    ((ot rp).otp.run = some rp) ∧
    (rp.todo = [(7, 19)]) ∧
    (rp.pulse = true) ∧
    ((ot rp).host.restart = none) ∧
    ((ot rwr).otp.run = some rwr) ∧
    (rwr.todo = [(512, 5)]) ∧
    (rwr.pulse = true) ∧
    ((ot rwr).host.restart = none) ∧
    (live.otp.run = none) ∧
    ([7, 9] ≠ []) ∧
    (live.dev = Dev.run) := by
  refine ⟨?_, ?_, ?_, ?_, ?_, ?_, ?_, ?_, ?_, ?_, ?_, ?_, ?_, ?_, ?_, ?_, ?_, ?_, ?_, ?_, ?_, ?_, ?_, ?_, ?_, ?_, ?_, ?_, ?_, ?_⟩ <;> first
  | decide +kernel
  | rfl
  | (unfold Ready; decide +kernel)
  | (rintro (_ | _) <;> decide +kernel)

theorem witness_ResetsAndBootGoOn :
    ((fram0 (cs (cm e1 CommitPhase.build))).dev ≠ Dev.off) ∧
    ((fram0 (cs (cm e1 CommitPhase.build))).fram.cur = none) ∧
    (Option.any (recBegun (fram0 (cs (cm e1 CommitPhase.build)))) (fram0 (cs (cm e1 CommitPhase.build))).commit = false) ∧
    (baseBegun (fram0 (cs (cm e1 CommitPhase.build))) = false) ∧
    ((fram0 (cs (cm e1 CommitPhase.build))).otp.run = none) ∧
    ((cf (cm e1 CommitPhase.build) (rq FramOp.record 3)).dev ≠ Dev.off) ∧
    ((cf (cm e1 CommitPhase.build) (rq FramOp.record 3)).commit = some (cm e1 CommitPhase.build)) ∧
    ((cm e1 CommitPhase.build).recOk = false) ∧
    ((cf (cm e1 CommitPhase.build) (rq FramOp.record 3)).fram.cur = some (rq FramOp.record 3)) ∧
    ((rq FramOp.record 3).op = FramOp.record) ∧
    (baseBegun (cf (cm e1 CommitPhase.build) (rq FramOp.record 3)) = false) ∧
    ((cf (cm e1 CommitPhase.build) (rq FramOp.record 3)).otp.run = none) ∧
    ((fram0 (cs (cm e1 CommitPhase.build))).dev = Dev.run) ∧
    ((fram0 (cs (cm e1 CommitPhase.build))).pwr.pmbus = 0) ∧
    (live2x.dev = Dev.stop ∨ live2x.dev = Dev.watch) ∧
    (live3x.dev = Dev.off) ∧
    (live3x.fram.cur = none) ∧
    (Option.any (recBegun live3x) live3x.commit = false) ∧
    (baseBegun live3x = false) ∧
    (live3x.otp.run = none) ∧
    (State.reset.inReset = true) ∧
    (State.reset.dev = Dev.boot) ∧
    (lr.link.held = true) ∧
    (lr.pe.powered = true) ∧
    (∀ (y : Axis), (lr.pe.ax.get y).latch = PLatch.rest) ∧
    (xt.boot = BootStep.train) ∧
    (xt.pwr.xtal = true) ∧
    (xt.count 30759 = 0) ∧
    (lds.commit = some ld) ∧
    (ld.load = true) ∧
    (200 ≤ BitVec.toNat (lds.mtick - ld.start)) ∧
    (lds.dev = Dev.boot) ∧
    (bt.dev = Dev.boot) ∧
    (bt.boot = BootStep.analog) := by
  refine ⟨?_, ?_, ?_, ?_, ?_, ?_, ?_, ?_, ?_, ?_, ?_, ?_, ?_, ?_, ?_, ?_, ?_, ?_, ?_, ?_, ?_, ?_, ?_, ?_, ?_, ?_, ?_, ?_, ?_, ?_, ?_, ?_, ?_, ?_⟩ <;> first
  | decide +kernel
  | rfl
  | (unfold Ready; decide +kernel)
  | (rintro (_ | _) <;> decide +kernel)


end Commits

end Sys2Proof.Tests
end

section
/-! SUPPORT. Counters and the violation ring under an access that is refused (R168, R219, R596). -/

namespace Sys2Proof.Machine

open Sys2Proof.Safety

/-! ### Stores and counters -/

/-- A key reads as written. -/
@[simp] theorem storeGet_storePut_same (m : Store) (i : Nat) (v : Int) : storeGet (storePut m i v) i = some v := by
  induction m with
  | nil => simp [storePut, storeGet]
  | cons e r ih =>
    obtain ⟨k, w⟩ := e
    unfold storePut
    split
    · simp [storeGet]
    · split
      · simp [storeGet]
      · rename_i hne
        simp [storeGet, Ne.symm hne, ih]

/-- A counter goes up by one and saturates (R657). -/
theorem count_bump_same (id : Nat) (s : State) : (bump id s).count id = min (s.count id + 1) (cntTop id) := by
  have h : (bump id s).count id = (((min (s.count id + 1) (cntTop id) : Nat) : Int)).toNat := by
    simp only [bump, bumpBy, State.count, storeGet_storePut_same, Option.getD_some]
  rw [h, Int.toNat_natCast]

/-! ### Violations (R219) -/

/-- A violation changes the violation ring, its VSEQ and counters only. -/
theorem violate_only (k : Call) (n : Nat) (lv : Level) (c : Nat) (a : Option (Bool × Nat)) (s : State) :
    violate k n lv c a s = { s with
      cnt := (violate k n lv c a s).cnt
      log := { s.log with vlog := (violate k n lv c a s).log.vlog, vseq := (violate k n lv c a s).log.vseq } } := by
  unfold violate when_
  dsimp only
  split <;> rfl

/-- A violation leaves every session as it is. -/
@[simp] theorem ses_violate (k : Call) (n : Nat) (lv : Level) (c : Nat) (a : Option (Bool × Nat)) (s : State) (x : Sess) :
    (violate k n lv c a s).ses x = s.ses x := by
  rw [violate_only]; rfl

/-- While the ring has room, a violation is one entry after the others, and one more in `stat.vlog.count`. -/
theorem violate_of_room (k : Call) (n : Nat) (lv : Level) (c : Nat) (a : Option (Bool × Nat)) {s : State}
    (h : s.log.vlog.length < 64) :
    violate k n lv c a s = bump 0x7852 (s.modLog fun l => { l with
      vlog := l.vlog ++ [{ vseq := s.log.vseq, tick := k.tick, sess := n, level := lv, code := c, addr := a, cmdw := k.word.take 4 }]
      vseq := min 0xFFFFFFFF (l.vseq + 1) }) := by
  have hroom : ¬ s.log.vlog.length ≥ 64 := Nat.not_le.2 h
  simp [violate, hroom]

/-- A line that is heard and a violation commute: one concerns a session, the other the log. -/
theorem violate_lineHeard (k : Call) (n : Nat) (lv : Level) (c : Nat) (a : Option (Bool × Nat)) (x : Sess) (s : State) :
    violate k n lv c a (lineHeard x s) = lineHeard x (violate k n lv c a s) := by
  have hlog : (lineHeard x s).log = s.log := rfl
  unfold violate when_
  dsimp only
  rw [hlog]
  split <;> rfl

/-- A violation takes no turn from a session. -/
theorem ready_violate {x : Sess} {s : State} (k : Call) (n : Nat) (lv : Level) (c : Nat) (a : Option (Bool × Nat))
    (h : Ready x s) : Ready x (violate k n lv c a s) := by
  unfold Ready
  rw [ses_violate, violate_only]
  exact h

/-! ### Refused lines -/

/-- An answer does not depend on the tick in which its line started. -/
theorem answer_tick (k : Call) (n : W32) (t : Text) (s : State) : answer { k with tick := n } t s = answer k t s := rfl

/-- An access error of a parameter is a violation with its ID, and then the answer (R168). -/
theorem failAt_of_access {c : Nat} (hlo : 20 ≤ c) (hhi : c ≤ 23) (k : Call) (id : Nat) (s : State) :
    failAt k c id s =
      answer k (errText c (some id)) (violate k (sessNum k.x) (s.ses k.x).level c (some (false, id)) s) := by
  simp [failAt, hlo, hhi]

/-- A line that starts now and meets an access error of a parameter is answered over the state with the violation, whose entry
has the tick and the word of the line. -/
theorem direct_failAt {x : Sess} {s : State} (h : Ready x s) (w : String) (f : Call → State → State) {c : Nat} {id : Nat}
    (hlo : 20 ≤ c) (hhi : c ≤ 23) (hfail : ∀ k : Call, k.x = x → f k (lineHeard x s) = failAt k c id (lineHeard x s)) :
    ∃ k t, k.tick = s.tick ∧ k.word = txt w ∧ direct x w f s = .next t ∧
      Answered x (errText c (some id)) (s.ses x) (violate k (sessNum x) (s.ses x).level c (some (false, id)) s) t := by
  obtain ⟨l, hframe, henter, hrun⟩ := direct_ready h w f
  let k : Call := { x := x, line := l, word := txt w, tick := s.tick }
  let v : State := violate k (sessNum x) (s.ses x).level c (some (false, id)) s
  have hses : v.ses x = s.ses x := ses_violate ..
  have hlevel : ((lineHeard x s).ses x).level = (s.ses x).level := by simp [lineHeard]
  have hend : f k (lineHeard x s) = answer k (errText c (some id)) (lineHeard x v) := by
    rw [hfail k rfl, failAt_of_access hlo hhi, hlevel, violate_lineHeard]
  have hready : Ready x v := ready_violate k _ _ c _ h
  have hdirect : l.frame = directFrame (v.ses x) := by rw [hses, hframe]
  have hans := answered_of (txt w) hready hdirect henter (errText c (some id))
  refine ⟨k, _, rfl, rfl, hrun, ?_⟩
  rw [hend, ← answer_tick k v.tick]
  rwa [hses] at hans

/-- A line answered over a violation changes its session, the violation ring and counters, and nothing else. -/
theorem answered_violate_frame {x : Sess} {r : Text} {s t : State} {k : Call} {n : Nat} {lv : Level} {c : Nat}
    {a : Option (Bool × Nat)} (h : Answered x r (s.ses x) (violate k n lv c a s) t) :
    lastLine (t.ses x) = some (frameReply (directFrame (s.ses x)) r ++ crlf) ∧ LineOnly (s.ses x) (t.ses x) ∧
      OthersKept x s t ∧
      t = { s with sess := t.sess, cnt := t.cnt, log := { s.log with vlog := t.log.vlog, vseq := t.log.vseq } } := by
  obtain ⟨-, hlast, hline, honly, hothers⟩ := h
  rw [ses_violate] at hlast
  refine ⟨hlast, hline, fun y hy => (hothers y hy).trans (ses_violate ..), ?_⟩
  unfold OnlySessions at honly
  rw [violate_only] at honly
  rw [honly]

/-- `get` of an ID that no parameter has is `err 20` with the ID (R143, R168). -/
theorem cmdGet_unknown_id {n : Nat} {e : Bool} (h : findRef (.id n e) = none) (k : Call) (s : State) :
    cmdGet (.id n e) k s = failAt k 20 n s := by
  simp only [cmdGet, withRead, h, noParam]

/-- A write that a check of its level or its lock refuses is answered before its value is read (R596). -/
theorem withWrite_refused {r : ParRef} {p : Par} {e : Bool} {c : Nat} {k : Call} {s : State} (hr : findRef r = some (p, e))
    (hc : writeCheck s (s.ses k.x).level false p e = some c) (v : Text) (f : Par → Int → State → State) :
    withWrite k r v f s = failAt k c p.id s := by
  simp only [withWrite, hr, hc]

/-- `set` of a parameter whose write is refused. -/
theorem cmdSet_refused {r : ParRef} {p : Par} {e : Bool} {c : Nat} {k : Call} {s : State} (hr : findRef r = some (p, e))
    (hc : writeCheck s (s.ses k.x).level false p e = some c) (lent : Bool) (v : Text) :
    cmdSet lent r v k s = failAt k c p.id s :=
  withWrite_refused hr hc v _

/-- `stage` of a parameter whose write is refused: the refusal goes before the `err 30` of a `line` parameter. -/
theorem cmdStage_refused {r : ParRef} {p : Par} {e : Bool} {c : Nat} {k : Call} {s : State} (hr : findRef r = some (p, e))
    (hc : writeCheck s (s.ses k.x).level false p e = some c) (lent : Bool) (v : Text) :
    cmdStage lent r v k s = failAt k c p.id s := by
  simp only [cmdStage, hr, hc, Option.isNone_some, Bool.and_false, Bool.false_eq_true, if_false]
  exact withWrite_refused hr hc v _

/-- The receipt of a line leaves the checks of a write as they are. -/
theorem writeCheck_lineHeard (x : Sess) (s : State) (p : Par) (e : Bool) :
    writeCheck (lineHeard x s) ((lineHeard x s).ses x).level false p e = writeCheck s (s.ses x).level false p e := by
  have hlevel : ((lineHeard x s).ses x).level = (s.ses x).level := by simp [lineHeard]
  rw [hlevel]; rfl

/-! ### The statement -/

/-- Settles O5: an unknown ID and a refused write both end in `failAt`, which places the violation and answers. -/
theorem refusedAccessIsViolation : Obligations.RefusedAccessIsViolation := by
  unfold Obligations.RefusedAccessIsViolation
  constructor
  · intro x n e s hready hnone hroom
    obtain ⟨k, t, htick, hword, hrun, hans⟩ := direct_failAt hready "get" (cmdGet (.id n e)) (c := 20) (by omega) (by omega)
      fun k _ => cmdGet_unknown_id hnone k _
    obtain ⟨hlast, -, hothers, hframe⟩ := answered_violate_frame hans
    obtain ⟨-, -, -, honly, -⟩ := hans
    unfold OnlySessions at honly
    rw [violate_of_room k _ _ _ _ hroom] at honly
    have hlog := congrArg (fun u : State => u.log.vlog) honly
    have hcount : t.count 0x7852 = min (s.count 0x7852 + 1) (cntTop 0x7852) := by
      rw [honly]; exact count_bump_same 0x7852 _
    have htop : cntTop 0x7852 = 65535 := by decide
    refine ⟨t, _, hrun, hlog, rfl, rfl, rfl, rfl, htick, ?_, hlast, ?_, hframe, hothers⟩
    · show k.word.take 4 = txt "get"
      rw [hword]; rfl
    · rw [hcount, htop, Nat.min_comm]
  · intro x r v p c s hready hr hc hlo hhi
    have hheard := (writeCheck_lineHeard x s p false).trans hc
    constructor
    · obtain ⟨k, t, -, -, hrun, hans⟩ := direct_failAt hready "set" (cmdSet false r v) (id := p.id) hlo hhi
        fun k hk => cmdSet_refused hr (hk ▸ hheard) false v
      exact ⟨t, hrun, answered_violate_frame hans⟩
    · obtain ⟨k, t, -, -, hrun, hans⟩ := direct_failAt hready "stage" (cmdStage false r v) (id := p.id) hlo hhi
        fun k hk => cmdStage_refused hr (hk ▸ hheard) false v
      exact ⟨t, hrun, answered_violate_frame hans⟩

end Sys2Proof.Machine
end

section
/-! SUPPORT. The reload and the time of the device (R46, R51, R52, R58). Two steps of a reload count: the end of a tick on Aster, and the
begin of a tick on both dies. Everything else that runs inside the step leaves the counts as they are. -/

namespace Sys2Proof.Machine

/-! ### The counts of a state -/

/-- What the reloads count: on Aster TICK, MTICK with the ms accumulator and the work that is due, ETIME with its fraction and the
recorded boundaries, and ECLK; on Peony TICK. With them stands what decides over the counting: whether ticks run, whether the next
reload is the first one, and whether Peony runs. -/
structure TickTime where
  ticking : Bool
  first : Bool
  tick : W32
  mtick : W32
  acc : Nat
  msDue : Bool
  etime : W48
  etFrac : Nat
  bounds : List (W32 × W48)
  eclk : W32
  peTick : W32
  peRuns : Bool

/-- The counts of a state. -/
def State.time (s : State) : TickTime :=
  { ticking := s.ticking, first := s.first, tick := s.tick, mtick := s.mtick, acc := s.acc, msDue := s.msDue, etime := s.etime,
    etFrac := s.etFrac, bounds := s.bounds, eclk := s.eclk, peTick := s.pe.tick, peRuns := s.pe.runs }

section
variable (s : State)

/-! ### Updates of the other parts -/

@[simp] theorem time_modSes (x : Sess) (f : Session → Session) : (s.modSes x f).time = s.time := rfl
@[simp] theorem time_modHost (f : HostCore → HostCore) : (s.modHost f).time = s.time := rfl
@[simp] theorem time_modLink (f : ALink → ALink) : (s.modLink f).time = s.time := rfl
@[simp] theorem time_modLoop (x : Axis) (f : AxLoop → AxLoop) : (s.modLoop x f).time = s.time := rfl
@[simp] theorem time_modMot (x : Axis) (f : AxMot → AxMot) : (s.modMot x f).time = s.time := rfl
@[simp] theorem time_modPos (x : Axis) (f : AxPos → AxPos) : (s.modPos x f).time = s.time := rfl
@[simp] theorem time_modFram (f : Fram → Fram) : (s.modFram f).time = s.time := rfl
@[simp] theorem time_modLog (f : LogState → LogState) : (s.modLog f).time = s.time := rfl
@[simp] theorem time_modOtp (f : Otp → Otp) : (s.modOtp f).time = s.time := rfl
@[simp] theorem time_modBus (f : Bus → Bus) : (s.modBus f).time = s.time := rfl
@[simp] theorem time_modPwr (f : Power → Power) : (s.modPwr f).time = s.time := rfl
@[simp] theorem time_modChg (f : Charger → Charger) : (s.modChg f).time = s.time := rfl
@[simp] theorem time_modPax (x : Axis) (f : PAxis → PAxis) : (s.modPax x f).time = s.time := rfl
@[simp] theorem time_modAn (f : PAnalog → PAnalog) : (s.modAn f).time = s.time := rfl
@[simp] theorem time_modIsl (f : Island → Island) : (s.modIsl f).time = s.time := rfl
@[simp] theorem time_commit (c : Option Commit) : ({ s with commit := c } : State).time = s.time := rfl

/-! ### Conditional and repeated updates -/

@[simp] theorem time_ite (c : Prop) [Decidable c] (a b : State) : (if c then a else b).time = if c then a.time else b.time :=
  apply_ite State.time c a b

@[simp] theorem time_when (c : Bool) (f : State → State) : (when_ c f s).time = if c then (f s).time else s.time :=
  time_ite _ (f s) s

end

theorem time_forAll {α : Type} {f : α → State → State} (h : ∀ a (t : State), (f a t).time = t.time) (l : List α) :
    ∀ s : State, (forAll l f s).time = s.time := by
  induction l with
  | nil => exact fun _ => rfl
  | cons a l ih => exact fun s => (ih (f a s)).trans (h a s)

section
variable (s : State)

/-! ### Counters, the log and the FRAM port -/

@[simp] theorem time_bumpBy (id n : Nat) : (bumpBy id n s).time = s.time := rfl
@[simp] theorem time_bump (id : Nat) : (bump id s).time = s.time := rfl
@[simp] theorem time_peak (id n : Nat) : (peak id n s).time = s.time := by rw [peak_only]; rfl
@[simp] theorem time_framAsk (p : Nat) (op : FramOp) (n : Nat) : (framAsk p op n s).time = s.time := by rw [framAsk_only]; rfl

@[simp] theorem time_logStamped (t : W32) (at_ : W48) (k : Nat) (axes : BitVec 2) (a b : Nat) :
    (logStamped t at_ k axes a b s).time = s.time := by
  rw [logStamped_only]; rfl

@[simp] theorem time_logAster (k : Nat) (axes : BitVec 2) (a b : Nat) : (logAster k axes a b s).time = s.time :=
  time_logStamped ..

/-! ### Sessions -/

@[simp] theorem time_answer (k : Call) (t : Text) : (answer k t s).time = s.time := by
  have h : answer k t s = { s with sess := (answer k t s).sess } := (answer_only k t s).1
  rw [h]; rfl

@[simp] theorem time_noticeTo (x : Sess) (cls : Nat) (t : Text) : (noticeTo x cls t s).time = s.time := by
  unfold noticeTo
  split
  · simp
  · rfl

@[simp] theorem time_notice (cls : Nat) (t : Text) : (notice cls t s).time = s.time :=
  time_forAll (by simp) _ s

@[simp] theorem time_closeSession (x : Sess) : (closeSession x s).time = s.time := by
  simp [closeSession, dropReads]

/-! ### Commands at their hand-over -/

@[simp] theorem time_endAxisWait (x : Axis) (p : AxCmd → Bool) (t : Text) : (endAxisWait x p t s).time = s.time :=
  time_forAll (by simp) _ s

@[simp] theorem time_dropHand (x : Axis) : (dropHand x s).time = s.time := by
  unfold dropHand; split <;> simp

@[simp] theorem time_grpFail (g : Byte) (axes : BitVec 2) (pos : Nat) : (grpFail g axes pos s).time = s.time := by
  simp [grpFail]

@[simp] theorem time_ungroup (x : Axis) : (ungroup x s).time = s.time := by
  unfold ungroup; split <;> simp

@[simp] theorem time_handOver (x : Axis) (c : AxCmd) : (handOver x c s).time = s.time := by
  simp [handOver]

@[simp] theorem time_handStop (x : Axis) : (handStop x s).time = s.time := by
  simp [handStop]

/-! ### The bus -/

@[simp] theorem time_busLoss : (busLoss s).time = s.time := by
  unfold busLoss; split
  · rfl
  · exact time_forAll (by simp) _ s

@[simp] theorem time_busGo (st : BusState) : (busGo st s).time = s.time := by
  simp [busGo]

@[simp] theorem time_busStops : (busStops s).time = s.time :=
  time_forAll (by simp) _ s

@[simp] theorem time_cycleEnd : (cycleEnd s).time = s.time := rfl

@[simp] theorem time_staleCheck : (staleCheck s).time = s.time :=
  time_forAll (fun _ t => time_notice t 3 _) _ _

@[simp] theorem time_rxStore (slot age : Nat) (p : List Byte) (own : Bool) : (rxStore slot age p own s).time = s.time :=
  time_staleCheck _

@[simp] theorem time_takeGroup (slot age : Nat) (p : List Byte) : (takeGroup slot age p s).time = s.time := by
  simp [takeGroup]

@[simp] theorem time_ownDone : (ownDone s).time = s.time := by
  unfold ownDone; split <;> simp

@[simp] theorem time_busOff : (busOff s).time = s.time := by
  simp [busOff]

@[simp] theorem time_takeBusSet : (takeBusSet s).time = s.time := rfl

@[simp] theorem time_busLook : (busLook s).time = s.time := by
  unfold busLook
  split
  · rfl
  · split <;> simp

/-! ### Position and motion -/

@[simp] theorem time_newWindow (x : Axis) : (newWindow x s).time = s.time := rfl
@[simp] theorem time_closeWindow (w clocks : Nat) (x : Axis) : (closeWindow w clocks x s).time = s.time := rfl
@[simp] theorem time_armLatch (x : Axis) (n : Nat) : (armLatch x n s).time = s.time := rfl
@[simp] theorem time_posInvalid (x : Axis) : (posInvalid x s).time = s.time := rfl

@[simp] theorem time_posLoad (x : Axis) : (posLoad x s).time = s.time := by
  simp [posLoad, reframe]

@[simp] theorem time_motAbort (x : Axis) : (motAbort x s).time = s.time := by
  simp [motAbort]

@[simp] theorem time_posLoadAxis (x : Axis) : (posLoadAxis x s).time = s.time := by
  simp [posLoadAxis]

@[simp] theorem time_posLost (x : Axis) : (posLost x s).time = s.time := by
  simp [posLost]

@[simp] theorem time_sincosStale : (sincosStale s).time = s.time := by
  unfold sincosStale; split <;> simp

@[simp] theorem time_windowTick (first : Bool) (x : Axis) : (windowTick first x s).time = s.time := by
  simp [windowTick]

/-! ### The charger -/

@[simp] theorem time_chgGo (st : ChgState) (r : ChgReason) : (chgGo st r s).time = s.time := by
  simp [chgGo]

@[simp] theorem time_chgPause : (chgPause s).time = s.time := by
  unfold chgPause; dsimp only; split <;> simp

@[simp] theorem time_chgEnter (st : ChgState) : (chgEnter st s).time = s.time := by
  simp [chgEnter]

@[simp] theorem time_qualify : (qualify s).time = s.time := by
  unfold qualify; split <;> simp

@[simp] theorem time_requalify : (requalify s).time = s.time := by
  simp [requalify]

@[simp] theorem time_chgChanged : (chgChanged s).time = s.time := by
  simp [chgChanged]

@[simp] theorem time_chgRetry : (chgRetry s).time = s.time := by
  simp [chgRetry]

/-! ### Commits -/

@[simp] theorem time_countCuts (ents : Store) : (countCuts ents s).time = s.time :=
  time_forAll (fun e t => by simp) _ s

@[simp] theorem time_pinRelease (n : Nat) : (pinRelease n s).time = s.time := by
  simp [pinRelease, pinsReleased]

@[simp] theorem time_applyAxis (x : Axis) (old : PSet) (ents : Store) : (applyAxis x old ents s).time = s.time := by
  unfold applyAxis
  dsimp only
  split <;> split <;> simp

@[simp] theorem time_useCopy (x : Axis) (p : Nat) : (useCopy x p s).time = s.time := rfl
@[simp] theorem time_stickySet (m : BitVec 6) : (stickySet m s).time = s.time := rfl
@[simp] theorem time_prm (p : Params) : ({ s with prm := p } : State).time = s.time := rfl

@[simp] theorem time_applyEntries (ents : Store) : (applyEntries ents s).time = s.time := by
  have haxes := time_forAll fun x t => time_applyAxis t x s.set ents
  have hcopies := time_forAll fun (q : Axis × Nat) t => time_useCopy t q.1 q.2
  unfold applyEntries
  dsimp only
  split <;> split <;> simp [haxes, hcopies]

@[simp] theorem time_syncBias : (syncBias s).time = s.time := rfl
@[simp] theorem time_syncClk : (syncClk s).time = s.time := rfl

@[simp] theorem time_txPut (k : Nat) (w : List (Nat × W32)) : (txPut k w s).time = s.time := by
  simp [txPut]

@[simp] theorem time_txWrite (ents : Store) : (txWrite ents s).time = s.time :=
  time_forAll (by simp) _ s

@[simp] theorem time_commitReply (c : Commit) (t : Text) : (commitReply c t s).time = s.time :=
  time_forAll (by simp) _ s

@[simp] theorem time_bundleTick (t : Option W32) : ({ s with bundleTick := t } : State).time = s.time := rfl

@[simp] theorem time_finishCommit : (finishCommit s).time = s.time := by
  have hlearn := time_forAll fun y t => time_modMot t y fun m => { m with learn := none }
  unfold finishCommit
  split
  · rfl
  · split
    · rfl
    · dsimp only
      split <;> simp [hlearn]

@[simp] theorem time_markDone : (markDone s).time = s.time := by
  unfold markDone; split <;> simp

@[simp] theorem time_applyCommit (t : W32) : (applyCommit t s).time = s.time := by
  unfold applyCommit
  split
  · rfl
  · split
    · rfl
    · simp

@[simp] theorem time_commitReload : (commitReload s).time = s.time := by
  unfold commitReload; split <;> simp

@[simp] theorem time_switchClk : (switchClk s).time = s.time := by
  unfold switchClk; split <;> simp

@[simp] theorem time_fltSync : (fltSync s).time = s.time := rfl

/-! ### The gates of Peony -/

@[simp] theorem time_setLegs (x : Axis) (f : Tri Leg → Tri Leg) : (setLegs x f s).time = s.time := by
  simp [setLegs]

@[simp] theorem time_gatesOff (x : Axis) : (gatesOff x s).time = s.time := time_setLegs ..
@[simp] theorem time_lowsOn (x : Axis) : (lowsOn x s).time = s.time := time_setLegs ..
@[simp] theorem time_gateEff (x : Axis) : (gateEff x s).time = s.time := rfl
@[simp] theorem time_settleGates (x : Axis) : (settleGates x s).time = s.time := rfl
@[simp] theorem time_syncBuck : (syncBuck s).time = s.time := rfl

@[simp] theorem time_applyGates (x : Axis) : (applyGates x s).time = s.time := by
  unfold applyGates
  dsimp only
  split
  · rfl
  · split
    · rfl
    · split <;> simp

@[simp] theorem time_swap : (swap s).time = s.time := by
  unfold swap islandThresholds
  exact (time_forAll (by simp) _ _).trans (by simp only [time_ite, time_modIsl, ite_self]; rfl)

@[simp] theorem time_swapAt (t : W32) : (swapAt t s).time = s.time := by
  simp [swapAt]

/-! ### Gate words (R24, R70) -/

theorem time_gateWord {f : State → State} (h : (f s).time = s.time) (x : Axis) : (gateWord x f s).time = s.time := by
  simp [gateWord, h]

@[simp] theorem time_putCmd (x : Axis) (c : BitVec 4) : (putCmd x c s).time = s.time := by
  simp [putCmd]

@[simp] theorem time_putOff (x : Axis) : (putOff x s).time = s.time := by
  simp [putOff]

@[simp] theorem time_badCmd (x : Axis) : (badCmd x s).time = s.time := by
  simp [badCmd]

@[simp] theorem time_abandonDiag (x : Axis) (b : W16) : (abandonDiag x b s).time = s.time := rfl
@[simp] theorem time_setLatch (x : Axis) (l : PLatch) : (setLatch x l s).time = s.time := rfl
@[simp] theorem time_peonyClear (x : Axis) : (peonyClear x s).time = s.time := rfl

@[simp] theorem time_enterRest (x : Axis) : (enterRest x s).time = s.time := by
  simp [enterRest]

@[simp] theorem time_startRelease (x : Axis) (l : PLatch) : (startRelease x l s).time = s.time := by
  simp [startRelease]

@[simp] theorem time_cmdClearWord (x : Axis) : (cmdClearWord x s).time = s.time := by
  simp [cmdClearWord]

@[simp] theorem time_enterE (x : Axis) : (enterE x s).time = s.time := by
  unfold enterE; split <;> simp

@[simp] theorem time_actWord (x : Axis) (w : GateWord) : (actWord x w s).time = s.time := by
  unfold actWord
  split
  case h_7 => exact time_cmdClearWord s x
  all_goals exact time_gateWord s (by simp) x

@[simp] theorem time_frameWords (f : DownFrame) : (frameWords f s).time = s.time := by
  simp [frameWords]

/-! ### CONTROL entries (R85) -/

@[simp] theorem time_runtime (a : Nat) (b : Byte) :
    (s.modPe fun p => { p with runtime := memWrite p.runtime a b }).time = s.time := rfl

@[simp] theorem time_bandCode (x : Axis) (c : Byte) : (bandCode x c s).time = s.time := by
  simp [bandCode]

@[simp] theorem time_diagStart (x : Axis) (v : Byte) : (diagStart x v s).time = s.time := by
  unfold diagStart
  dsimp only
  split
  · exact time_runtime s _ v
  · split
    · simp
    · split <;> simp

@[simp] theorem time_downIn (n : Nat) : (s.modPe fun p => { p with downIn := n }).time = s.time := rfl

@[simp] theorem time_runtimeByte (a : Nat) (b : Byte) : (runtimeByte a b s).time = s.time := by
  simp [runtimeByte]

end

theorem time_runtimeBytes (bs : List Byte) : ∀ (a : Nat) (s : State), (runtimeBytes a bs s).time = s.time := by
  induction bs with
  | nil => intro a s; rfl
  | cons b bs ih =>
    intro a s
    unfold runtimeBytes
    rw [ih]
    simp

section
variable (s : State)

@[simp] theorem time_controlEntry (e : Nat × List Byte) : (controlEntry e s).time = s.time := by
  unfold controlEntry
  split
  · exact (time_syncBuck _).trans (time_runtimeBytes _ _ s)
  · rfl

@[simp] theorem time_frameControl (f : DownFrame) : (frameControl f s).time = s.time := by
  unfold frameControl
  split
  · exact time_forAll (by simp) _ s
  · rfl

/-! ### The begin of a tick on Peony (R28) -/

@[simp] theorem time_downCopy : (downCopy s).time = s.time := by
  unfold downCopy; split <;> rfl

@[simp] theorem time_auxSlot (codes : List (BitVec 12)) : (auxSlot codes s).time = s.time := by
  have hvm := time_forAll fun x t => time_modPax t x diagVm
  simp [auxSlot, hvm]

@[simp] theorem time_trim :
    (s.modPe fun p => { p with trim := toSigned 16 (memLe p.runtime 0xF20 2) }).time = s.time := rfl

end

/-- The count of Peony's reload, while the die runs. -/
def TickTime.peonyBegun (c : TickTime) : TickTime :=
  { c with peTick := if c.peRuns then c.peTick + 1 else c.peTick }

theorem peonyBegun_of_runs {c : TickTime} (h : c.peRuns = true) : c.peonyBegun = { c with peTick := c.peTick + 1 } := by
  simp [TickTime.peonyBegun, h]

theorem peonyBegun_of_down {c : TickTime} (h : c.peRuns = false) : c.peonyBegun = c := by
  unfold TickTime.peonyBegun
  rw [if_neg (by simp [h])]

@[simp] theorem time_peTick (s : State) :
    (s.modPe fun p => { p with tick := p.tick + 1#32, rx := none }).time = { s.time with peTick := s.time.peTick + 1#32 } := rfl

theorem time_peonyTickBegin (aux : List (BitVec 12)) (s : State) : (peonyTickBegin aux s).time = s.time.peonyBegun := by
  have hgates := time_forAll fun x t => (time_settleGates (applyGates x t) x).trans (time_applyGates t x)
  unfold peonyTickBegin
  cases hruns : s.pe.runs with
  | false =>
    rw [peonyBegun_of_down hruns]
    rfl
  | true =>
    rw [peonyBegun_of_runs hruns]
    cases s.pe.rx with
    | none => simp [hgates]
    | some f => simp [hgates]

/-! ### The begin of a tick on Aster (R51, R52) -/

/-- The counts of Aster's reload: TICK advances, the next reload is no longer the first, and the boundary is recorded with its ETIME. -/
def TickTime.asterBegun (c : TickTime) : TickTime :=
  { c with tick := c.tick + 1, first := false, bounds := ((c.tick + 1, c.etime) :: c.bounds).take 300 }

theorem time_asterTickBegin (s : State) : (asterTickBegin s).time = s.time.asterBegun := by
  have hwindow := time_forAll fun x t => time_windowTick t s.first x
  calc (asterTickBegin s).time
      = ({ s with tick := s.tick + 1, first := false, bounds := ((s.tick + 1, s.etime) :: s.bounds).take 300 } : State).time := by
        simp [asterTickBegin, hwindow]
    _ = s.time.asterBegun := rfl

/-! ### The end of a tick (R46, R51) -/

/-- The counts at the end of a tick of so many clocks: 80 of them are a microsecond, and 80,000 a millisecond. -/
def TickTime.ended (clocks : Nat) (c : TickTime) : TickTime :=
  { c with
    etime := c.etime + BitVec.ofNat 48 ((c.etFrac + clocks) / 80)
    etFrac := (c.etFrac + clocks) % 80
    eclk := c.eclk + BitVec.ofNat 32 clocks
    acc := if c.acc + clocks < 80000 then c.acc + clocks else c.acc + clocks - 80000
    mtick := if c.acc + clocks < 80000 then c.mtick else c.mtick + 1
    msDue := if c.acc + clocks < 80000 then c.msDue else true }

/-- Where a sleep entry stands (Table 15-3): its step, and the ticks until Peony goes down. -/
def State.sleepEntry (s : State) : SleepStep × Nat := (s.pwr.step, s.pe.downIn)

section
variable (s : State)

@[simp] theorem time_phaseTick : (phaseTick s).time = s.time := by
  simp [phaseTick]

@[simp] theorem sleepEntry_phaseTick : (phaseTick s).sleepEntry = s.sleepEntry := by
  unfold phaseTick; split <;> rfl

@[simp] theorem time_tickTime (clocks : Nat) : (tickTime clocks s).time = s.time.ended clocks := by
  unfold tickTime TickTime.ended State.time
  dsimp only
  split <;> rfl

@[simp] theorem sleepEntry_tickTime (clocks : Nat) : (tickTime clocks s).sleepEntry = s.sleepEntry := by
  unfold tickTime
  dsimp only
  split <;> rfl

/-- The time that a full output buffer adds to a wait is kept with the sessions and the tunnels of the bus. -/
theorem blockTime_only (us : Nat) :
    blockTime us s = { s with sess := (blockTime us s).sess, bus := (blockTime us s).bus } := by
  unfold blockTime
  dsimp only
  split <;> rfl

@[simp] theorem time_blockTime (us : Nat) : (blockTime us s).time = s.time := by rw [blockTime_only]; rfl

@[simp] theorem sleepEntry_blockTime (us : Nat) : (blockTime us s).sleepEntry = s.sleepEntry := by rw [blockTime_only]; rfl

theorem when_bump_only (c : Bool) (id : Nat) : when_ c (bump id) s = { s with cnt := (when_ c (bump id) s).cnt } := by
  cases c <;> rfl

/-- The end of a tick on Aster changes the link and counters. -/
theorem asterTickEnd_only : asterTickEnd s = { s with link := (asterTickEnd s).link, cnt := (asterTickEnd s).cnt } := by
  unfold asterTickEnd
  dsimp only
  rw [when_bump_only]
  split
  · rw [peak_only]; rfl
  · rfl

@[simp] theorem time_asterTickEnd : (asterTickEnd s).time = s.time := by rw [asterTickEnd_only]; rfl

@[simp] theorem sleepEntry_asterTickEnd : (asterTickEnd s).sleepEntry = s.sleepEntry := by rw [asterTickEnd_only]; rfl

end

/-- A record that joins the queue of Peony changes the queue and its DSEQ. -/
theorem queueRec_only (r : PRec) (p : Peony) :
    queueRec r p = { p with recs := (queueRec r p).recs, dseq := (queueRec r p).dseq } := by
  unfold queueRec
  split
  · rfl
  · split <;> rfl

theorem queueRecs_only (l : List PRec) : ∀ p : Peony, l.foldl (fun q r => queueRec r q) p =
    { p with recs := (l.foldl (fun q r => queueRec r q) p).recs, dseq := (l.foldl (fun q r => queueRec r q) p).dseq } := by
  induction l with
  | nil => exact fun _ => rfl
  | cons r l ih =>
    intro p
    rw [List.foldl_cons, ih, queueRec_only]

section
variable (s : State)

@[simp] theorem time_peonyTickEnd (clocks : Nat) : (peonyTickEnd clocks s).time = s.time := by
  unfold peonyTickEnd
  split
  · rfl
  · dsimp only [State.modPe]
    rw [queueRecs_only]
    rfl

@[simp] theorem sleepEntry_peonyTickEnd (clocks : Nat) : (peonyTickEnd clocks s).sleepEntry = s.sleepEntry := by
  unfold peonyTickEnd
  split
  · rfl
  · dsimp only [State.modPe]
    rw [queueRecs_only]
    rfl

end

/-- While the device is awake and Peony stays up, the steps of a sleep entry do nothing. -/
theorem sleepSteps_of_awake {s : State} (h : s.sleepEntry = (.awake, 0)) : sleepIsolated (sleepFlush (downEnd s)) = s := by
  obtain ⟨hawake, hdown⟩ := Prod.mk.inj h
  simp [downEnd, sleepFlush, sleepIsolated, hawake, hdown]

theorem time_tickEnd {s : State} (h : s.sleepEntry = (.awake, 0)) : (tickEnd s).time = s.time.ended s.tickClocks := by
  unfold tickEnd
  dsimp only
  rw [sleepSteps_of_awake (by simpa using h)]
  simp

/-! ### The reload -/

/-- A reload while ticks run: the counts of the tick that ends, where one ends, and then those of the begin of a tick. -/
theorem time_tickReload {s : State} (aux : List (BitVec 12)) (hticking : s.ticking = true) {c : TickTime}
    (hend : (if s.first then tickFirst s else tickEnd s).time = c) (hon : c.ticking = true) :
    ∃ t, exec (.tickReload aux) s = .next t ∧ t.time = c.peonyBegun.asterBegun := by
  generalize hu : (if s.first then tickFirst s else tickEnd s) = u at hend
  subst hend
  have hrun : u.ticking = true := hon
  refine ⟨asterTickBegin (peonyTickBegin aux u), ?_, ?_⟩
  · show execTickReload aux s = _
    simp [execTickReload, hticking, hu, hrun]
  · rw [time_asterTickBegin, time_peonyTickBegin]

/-- Where no tick ends, the reload counts the begin of a tick only (R58). -/
theorem time_tickReload_first {s : State} (aux : List (BitVec 12)) (hticking : s.ticking = true) (hfirst : s.first = true) :
    ∃ t, exec (.tickReload aux) s = .next t ∧ t.time = s.time.peonyBegun.asterBegun :=
  time_tickReload aux hticking (by rw [if_pos hfirst]; rfl) hticking

/-- Where a tick ends and the device is awake, the reload counts its clocks, and then the begin of the next tick (R46, R51). -/
theorem time_tickReload_awake {s : State} (aux : List (BitVec 12)) (hticking : s.ticking = true) (hfirst : s.first = false)
    (h : s.sleepEntry = (.awake, 0)) :
    ∃ t, exec (.tickReload aux) s = .next t ∧ t.time = (s.time.ended s.tickClocks).peonyBegun.asterBegun :=
  time_tickReload aux hticking (by rw [if_neg (by simp [hfirst])]; exact time_tickEnd h) hticking

/-- A tick that does not complete a millisecond leaves MTICK (R46). -/
theorem ended_of_lt {clocks : Nat} {c : TickTime} (h : c.acc + clocks < 80000) :
    (c.ended clocks).acc = c.acc + clocks ∧ (c.ended clocks).mtick = c.mtick ∧ (c.ended clocks).msDue = c.msDue := by
  simp [TickTime.ended, h]

/-- A tick that completes a millisecond is an ms tick, and what is over stays in the accumulator (R46). -/
theorem ended_of_le {clocks : Nat} {c : TickTime} (h : 80000 ≤ c.acc + clocks) :
    (c.ended clocks).acc = c.acc + clocks - 80000 ∧ (c.ended clocks).mtick = c.mtick + 1 ∧ (c.ended clocks).msDue = true := by
  simp [TickTime.ended, Nat.not_lt.2 h]

/-- Settles O24: the counts after a reload are those of the tick that ended, where one ended, and then those of the begin of a tick. -/
theorem reloadAdvancesTime : Obligations.ReloadAdvancesTime := by
  unfold Obligations.ReloadAdvancesTime
  intro aux s hticking
  constructor
  · intro hfirst hawake hdown
    obtain ⟨t, hexec, htime⟩ := time_tickReload_awake aux hticking hfirst (Prod.ext hawake hdown)
    have hetime : t.etime = (s.time.ended s.tickClocks).etime := congrArg TickTime.etime htime
    have hacc : t.acc = (s.time.ended s.tickClocks).acc := congrArg TickTime.acc htime
    have hmtick : t.mtick = (s.time.ended s.tickClocks).mtick := congrArg TickTime.mtick htime
    have hms : t.msDue = (s.time.ended s.tickClocks).msDue := congrArg TickTime.msDue htime
    refine ⟨t, hexec, congrArg TickTime.tick htime, congrArg TickTime.first htime, ?_, fun hruns => ?_, hetime,
      congrArg TickTime.etFrac htime, congrArg TickTime.eclk htime, fun hlt => ?_, fun hle => ?_⟩
    · rw [hetime]
      exact congrArg (List.head? ∘ TickTime.bounds) htime
    · exact (congrArg TickTime.peTick htime).trans (if_pos hruns)
    · rw [hacc, hmtick, hms]
      exact ended_of_lt hlt
    · rw [hacc, hmtick, hms]
      exact ended_of_le hle
  · intro hfirst
    obtain ⟨t, hexec, htime⟩ := time_tickReload_first aux hticking hfirst
    exact ⟨t, hexec, congrArg TickTime.tick htime, congrArg TickTime.first htime,
      fun hruns => (congrArg TickTime.peTick htime).trans (if_pos hruns), congrArg TickTime.etime htime,
      congrArg TickTime.etFrac htime, congrArg TickTime.eclk htime, congrArg TickTime.acc htime, congrArg TickTime.mtick htime⟩

end Sys2Proof.Machine
end

section
/-! SUPPORT. The delta field and the configuration of Peony (R71, R82, R83, R85, R121): what the rows of the delta field and the swap
change on Peony. -/

namespace Sys2Proof.Machine

open Sys2Proof.Safety

/-! ### Gates: an axis and the analogue side alone -/

section
variable (x : Axis) (s : State)

theorem setLegs_only (f : Tri Leg → Tri Leg) :
    setLegs x f s = { s with pe := { s.pe with ax := (setLegs x f s).pe.ax, an := (setLegs x f s).pe.an } } := rfl

theorem applyGates_only :
    applyGates x s = { s with pe := { s.pe with ax := (applyGates x s).pe.ax, an := (applyGates x s).pe.an } } := by
  unfold applyGates
  dsimp only
  split
  · rfl
  · split
    · rfl
    · split <;> rfl

/-- At a swap an axis takes its effective values and its gates follow the command in force (R257). -/
theorem swapGates_only :
    applyGates x (gateEff x s) = { s with pe := { s.pe with
      ax := (applyGates x (gateEff x s)).pe.ax, an := (applyGates x (gateEff x s)).pe.an } } := by
  rw [applyGates_only]; rfl

end

/-! ### The rows of a DOWN frame -/

/-- The state in which Peony has accepted the frame of its tick (R75). -/
def State.framed (s : State) : State := s.modPe fun p => { p with gotDown := true }

/-- While Peony takes part in the link, a part of a frame acts on the state that marks the frame. -/
theorem downRow_live {s t : State} (h : s.pe.live = true) {f : State → State} (hf : f s.framed = t) :
    (.next (downRow f s) : Out) = .next t := congrArg _ ((if_pos h).trans hf)

/-! ### Staging (R71, R82) -/

section
variable {s : State}

theorem openStaging_of_open (h : s.pe.staging = true) (blk : Nat) : openStaging blk s = s := by
  simp [openStaging, h]

theorem openStaging_of_later {blk : Nat} (h : blk ≠ 0) : openStaging blk s = s := by
  simp [openStaging, h]

/-- Block 0 opens staging over a copy of the active area. -/
theorem openStaging_first (h : s.pe.staging = false) : openStaging 0 s =
    s.modPe fun p => { p with shadow := p.active, staging := true, rejected := false, armed := none, held := [] } := by
  simp [openStaging, h]

/-- An entry that lies within the staged area reaches the shadow copy whole. -/
theorem stageEntry_inside {a : Nat} {ds : List Byte} (ha : a < stagedEnd) (hend : a + ds.length ≤ stagedEnd) :
    stageEntry (a, ds) s = s.modPe fun p => { p with shadow := memWrites p.shadow a ds } := by
  have hall : ds.take (stagedEnd - a) = ds := List.take_of_length_le (by omega)
  simp [stageEntry, ha, hall]

/-- Holding a block changes the list of held blocks, and the block is in it. -/
theorem holdBlock_only (blk : Nat) (s : State) :
    holdBlock blk s = { s with pe := { s.pe with held := (holdBlock blk s).pe.held } } := by
  unfold holdBlock State.modPe
  dsimp only
  split <;> rfl

theorem holdBlock_held (blk : Nat) (s : State) : (holdBlock blk s).pe.held.contains blk = true := by
  unfold holdBlock
  rw [State.modPe_pe]
  split
  · assumption
  · simp

/-! ### SWITCH (R83) -/

theorem all_held_iff {held : List Nat} {last : Nat} :
    (List.range (last + 1)).all held.contains = true ↔ ∀ n, n ≤ last → held.contains n = true := by
  simp only [List.all_eq_true, List.mem_range, Nat.lt_succ_iff]

theorem deltaSwitch_arms {last : Byte} (hopen : s.pe.staging = true) (hheld : ∀ n, n ≤ last.toNat → s.pe.held.contains n = true)
    (sw : W32) : deltaSwitch sw last s = s.modPe fun p => { p with armed := some sw } := by
  simp only [deltaSwitch, State.modPe, hopen, all_held_iff.2 hheld, Bool.and_self, if_true]

theorem deltaSwitch_ignored {last : Byte} {n : Nat} (hn : n ≤ last.toNat) (hmiss : s.pe.held.contains n = false) (sw : W32) :
    deltaSwitch sw last s = s := by
  have hall : (List.range (last.toNat + 1)).all s.pe.held.contains = false := by
    rw [Bool.eq_false_iff, ne_eq, all_held_iff]
    exact fun h => absurd (h n hn) (by rw [hmiss]; exact Bool.false_ne_true)
  simp [deltaSwitch, State.modPe, hall]

end

/-! ### The swap (R83, R121) -/

/-- The swap exchanges the copies, toggles SETP and closes staging; beside them only the axes, their blanking and the thresholds of
the island change. -/
theorem swap_only (s : State) : swap s = { s with pe := { s.pe with
    active := s.pe.shadow, shadow := s.pe.active, setp := !s.pe.setp, staging := false, armed := none, held := [],
    configured := true, ax := (swap s).pe.ax, an := (swap s).pe.an, isl := (swap s).pe.isl } } := by
  unfold swap islandThresholds
  simp only [axes2, forAll_cons, forAll_nil]
  rw [swapGates_only .b, swapGates_only .a]
  split <;> rfl

theorem swapAt_armed {t : W32} {s : State} (h : s.pe.armed = some t) : swapAt t s = swap s := by
  simp [swapAt, h]

/-! ### The statement on staging -/

/-- A run within the staged area, while staging is open: its bytes in the shadow copy, and its block is held. -/
theorem deltaRun_open {s : State} (h : s.pe.staging = true) (blk : Byte) {addr : BitVec 16} (data : List Byte)
    (haddr : addr.toNat % 4096 + 29 ≤ stagedEnd) : deltaRun blk addr data s =
      holdBlock blk.toNat (s.modPe fun p => { p with shadow := memWrites p.shadow (addr.toNat % 4096) (data.take 29) }) := by
  have hlen : (data.take 29).length ≤ 29 := List.length_take_le 29 data
  simp only [deltaRun, openStaging_of_open h, h, if_true]
  rw [stageEntry_inside (by omega) (by omega)]

/-- Block 0 with one entry while staging is closed: staging opens over a copy of the active area with that entry in it. -/
theorem deltaBlock_first {s : State} (h : s.pe.staging = false) {ents ds : List Byte} {a : Nat}
    (hents : parseEntries 16 (ents.take 31) = [(a, ds)]) (ha : a < stagedEnd) (hend : a + ds.length ≤ stagedEnd) :
    deltaBlock 0 ents s = s.modPe fun p => { p with
      shadow := memWrites p.active a ds, staging := true, rejected := false, armed := none, held := [0] } := by
  have hopen : openStaging (0 : Byte).toNat s = _ := openStaging_first h
  simp only [deltaBlock, hopen, hents, State.modPe_pe, if_true, forAll_cons, forAll_nil]
  rw [stageEntry_inside ha hend]
  rfl

/-- A later block while staging is closed writes nothing (log 26). -/
theorem deltaBlock_closed {s : State} (h : s.pe.staging = false) {blk : Byte} (hblk : blk ≠ 0) (ents : List Byte) :
    deltaBlock blk ents s = s := by
  have hnat : blk.toNat ≠ 0 := fun hz => hblk (BitVec.eq_of_toNat_eq hz)
  simp [deltaBlock, openStaging_of_later hnat, h]

/-- Settles O34: each row of the delta field acts on the state that marks the frame, and the swap by `swap_only`. -/
theorem stagingOnPeony : Obligations.StagingOnPeony := by
  unfold Obligations.StagingOnPeony
  intro s hlive
  refine ⟨?run, ?first, ?closed, ?arms, ?ignored, ?abort, ?swap⟩
  case run =>
    intro blk addr data hopen haddr
    refine ⟨_, downRow_live hlive (deltaRun_open (s := s.framed) hopen blk data haddr), holdBlock_held _ _, ?_⟩
    rw [holdBlock_only]
    rfl
  case first =>
    intro ents a ds hclosed hents hend hne
    have hlen : 0 < ds.length := List.length_pos_iff.2 hne
    have ha : a < stagedEnd := by show a < 0xF00; omega
    exact ⟨_, downRow_live hlive (deltaBlock_first (s := s.framed) hclosed hents ha hend), rfl⟩
  case closed =>
    intro blk ents hblk hclosed
    exact downRow_live hlive (deltaBlock_closed (s := s.framed) hclosed hblk ents)
  case arms =>
    intro sw last hopen hheld
    exact downRow_live hlive (deltaSwitch_arms (s := s.framed) hopen hheld sw)
  case ignored =>
    intro sw last n hn hmiss
    exact downRow_live hlive (deltaSwitch_ignored (s := s.framed) hn hmiss sw)
  case abort => exact downRow_live hlive rfl
  case swap =>
    intro harmed hruns hover
    have hrun : exec .configSwap s = .next (swap s) := by
      show Host.Outcome.next (if s.pe.runs && s.pe.ucOver then swapAt (s.pe.tick + 1) s else s) = _
      rw [if_pos (by rw [hruns, hover]; rfl), swapAt_armed harmed]
    refine ⟨swap s, hrun, ?_⟩
    rw [swap_only]
    exact ⟨rfl, rfl, rfl, rfl, rfl, rfl, rfl, rfl, rfl, rfl⟩

end Sys2Proof.Machine
end

section
/-! SUPPORT. Class E on Peony, the off-state diagnosis and the CONTROL entries of the run-time area (R76, R85, R256, R298, R305, R460, R481,
R538, R668). -/

namespace Sys2Proof.Machine

open Sys2Proof.Safety

theorem otherAxis_ne (x : Axis) : otherAxis x ≠ x := by cases x <;> decide

@[simp] theorem Tri.get_map {α β : Type} (f : α → β) (t : Tri α) (p : Phase) : (t.map f).get p = f (t.get p) := by
  cases p <;> rfl

@[simp] theorem Tri.get_zip {α β γ : Type} (f : α → β → γ) (t : Tri α) (u : Tri β) (p : Phase) :
    (t.zip f u).get p = f (t.get p) (u.get p) := by
  cases p <;> rfl

/-! ### Gates of an axis -/

section
variable (x : Axis) (s : State)

/-- A change of the legs of an axis leaves everything else of it. -/
theorem pax_setLegs (f : Tri Leg → Tri Leg) :
    (setLegs x f s).pe.ax.get x = { s.pe.ax.get x with leg := ((setLegs x f s).pe.ax.get x).leg } := by
  simp [setLegs]

@[simp] theorem latch_setLegs (f : Tri Leg → Tri Leg) : ((setLegs x f s).pe.ax.get x).latch = (s.pe.ax.get x).latch := by
  rw [pax_setLegs]

@[simp] theorem pax_setLegs_other {y : Axis} (h : y ≠ x) (f : Tri Leg → Tri Leg) :
    (setLegs x f s).pe.ax.get y = s.pe.ax.get y := by
  simp [setLegs, Pair.get_mod_other _ _ h]

@[simp] theorem pax_modPax_other {y : Axis} (h : y ≠ x) (f : PAxis → PAxis) : (s.modPax x f).pe.ax.get y = s.pe.ax.get y := by
  simp [Pair.get_mod_other _ _ h]

theorem pax_gatesOff : (gatesOff x s).pe.ax.get x = { s.pe.ax.get x with leg := ((gatesOff x s).pe.ax.get x).leg } :=
  pax_setLegs ..

theorem pax_gatesOff_other {y : Axis} (h : y ≠ x) : (gatesOff x s).pe.ax.get y = s.pe.ax.get y :=
  pax_setLegs_other x s h _

/-- Turned off, every gate of an axis is off (R247). -/
theorem allOff_gatesOff : allOff (gatesOff x s) x := by
  intro p
  simp only [gatesOff, gatesOffAt, setLegs, State.modAn_pe, State.modPax_pe, Pair.get_mod_same, Tri.get_zip, Tri.get_map]
  split <;> simp [Leg.off, Leg.drive]

/-! ### Class E (R298) -/

theorem abandonDiag_only (b : W16) : abandonDiag x b s = { s with pe := { s.pe with ax := (abandonDiag x b s).pe.ax } } := rfl

theorem enterRest_only : enterRest x s = { s with pe := { s.pe with ax := (enterRest x s).pe.ax, an := (enterRest x s).pe.an } } := rfl

@[simp] theorem latch_enterRest : ((enterRest x s).pe.ax.get x).latch = .rest := by
  simp [enterRest, setLatch]

@[simp] theorem pax_enterRest_other {y : Axis} (h : y ≠ x) : (enterRest x s).pe.ax.get y = s.pe.ax.get y := by
  simp [enterRest, setLatch, h, Pair.get_mod_other _ _ h]

@[simp] theorem latch_release (l : PLatch) : ((lowsOn x (startRelease x l s)).pe.ax.get x).latch = l := by
  simp [lowsOn, startRelease, setLatch]

@[simp] theorem pax_release_other {y : Axis} (h : y ≠ x) (l : PLatch) :
    (lowsOn x (startRelease x l s)).pe.ax.get y = s.pe.ax.get y := by
  simp [lowsOn, startRelease, setLatch, h, Pair.get_mod_other _ _ h]

theorem release_only (l : PLatch) : lowsOn x (startRelease x l s) = { s with pe := { s.pe with
    ax := (lowsOn x (startRelease x l s)).pe.ax, an := (lowsOn x (startRelease x l s)).pe.an } } := by
  unfold lowsOn
  dsimp only
  rw [setLegs_only]
  rfl

theorem enterE_only : enterE x s = { s with pe := { s.pe with ax := (enterE x s).pe.ax, an := (enterE x s).pe.an } } := by
  unfold enterE
  split
  · dsimp only
    split
    · rw [enterRest_only, abandonDiag_only]
    · rw [release_only, abandonDiag_only]
  · rfl

/-- An axis that class E has reached is latched. -/
theorem latch_enterE : ((enterE x s).pe.ax.get x).latch ≠ .free := by
  unfold enterE
  split
  · dsimp only
    split <;> simp
  · assumption

theorem pax_enterE_other {y : Axis} (h : y ≠ x) : (enterE x s).pe.ax.get y = s.pe.ax.get y := by
  unfold enterE
  split
  · dsimp only
    split <;> simp [h, abandonDiag, Pair.get_mod_other _ _ h]
  · rfl

end

/-- Class E reaches both axes: they are latched, and beside them only their blanking changes. -/
theorem enterE_both_only (s : State) : forAll axes2 enterE s =
    { s with pe := { s.pe with ax := (forAll axes2 enterE s).pe.ax, an := (forAll axes2 enterE s).pe.an } } := by
  simp only [axes2, forAll_cons, forAll_nil]
  rw [enterE_only .b, enterE_only .a]

theorem latch_enterE_both (s : State) (y : Axis) : ((forAll axes2 enterE s).pe.ax.get y).latch ≠ .free := by
  simp only [axes2, forAll_cons, forAll_nil]
  cases y with
  | a => rw [pax_enterE_other .b _ (by decide)]; exact latch_enterE .a s
  | b => exact latch_enterE .b _

/-! ### Faults of Peony (R21, R76, R294) -/

theorem peonyFault_pe (code mask : Byte) (axes : BitVec 2) (s : State) : (peonyFault code mask axes s).pe =
    { s.pe with tickRecs := (peonyFault code mask axes s).pe.tickRecs, faults := s.pe.faults ++ [(code, axes.zeroExtend 8)], flt := true } := rfl

/-- The gap limit on Peony: it is marked, the fault of both axes is latched, and both are in class E. -/
theorem peonyGap_stops (code : Byte) (s : State) :
    (peonyGap code s).pe.gapFired = true ∧ (peonyGap code s).pe.flt = true ∧ (peonyGap code s).pe.faults = s.pe.faults ++ [(code, 3)] ∧
      ∀ y, ((peonyGap code s).pe.ax.get y).latch ≠ .free := by
  unfold peonyGap
  rw [peonyFault_pe]
  refine ⟨?_, rfl, ?_, latch_enterE_both _⟩
  · rw [enterE_both_only]; rfl
  · rw [enterE_both_only]; rfl

theorem deltaTime_agrees (s : State) : deltaTime ((s.pe.tick + 1).extractLsb' 8 24) s = s :=
  if_pos (by simp)

theorem deltaTime_differs {s : State} {hi : BitVec 24} (h : hi ≠ (s.pe.tick + 1).extractLsb' 8 24) (hfired : s.pe.gapFired = false) :
    deltaTime hi s = peonyGap 0x05 s :=
  if_neg (by simpa [hfired] using Ne.symm h)

/-! ### Band codes and the diagnosis (R256, R305) -/

/-- A band code up to 5 is in force on its axis, whose effective values follow; its gates and the other axis keep as they are. -/
theorem bandCode_acts (x : Axis) {c : Byte} (h : c.toNat ≤ 5) (s : State) :
    ((bandCode x c s).pe.ax.get x).band = c.toNat ∧ (bandCode x c s).pe.runtime = memWrite s.pe.runtime (0xF00 + axIdx x) c ∧
      ((bandCode x c s).pe.ax.get x).leg = (s.pe.ax.get x).leg ∧
      (bandCode x c s).pe.ax.get (otherAxis x) = s.pe.ax.get (otherAxis x) := by
  have hother := otherAxis_ne x
  simp [bandCode, gateEff, Nat.not_lt.2 h, Pair.get_mod_other _ _ hother]

theorem bandCode_illegal (x : Axis) {c : Byte} (h : 5 < c.toNat) (s : State) : bandCode x c s = s := if_pos h

/-- The state in which the entry that starts a diagnosis stands in the run-time area. -/
def State.diagEntered (s : State) (x : Axis) (v : Byte) : State :=
  s.modPe fun p => { p with runtime := memWrite p.runtime (0xF02 + axIdx x) v }

/-- A diagnosis that may start begins with its findings empty and every gate of its axis off. -/
theorem diagStart_starts {x : Axis} {s : State} (hidle : (s.pe.ax.get x).diag.getLsbD 14 = false) (hcmd : (s.pe.ax.get x).cmd = 0)
    (hS : (s.pe.ax.get x).latch ≠ .relS) (hE : (s.pe.ax.get x).latch ≠ .relE) (hvm : s.pe.an.uvlo = false) :
    diagStart x 1 s = gatesOff x ((s.diagEntered x 1).modPax x fun a =>
      { a with diag := 0x4000#16 ||| vmxBit (s.diagEntered x 1), diagClk := 0, diagH := [] }) := by
  show (if _ then _ else _) = _
  rw [if_neg, if_neg, if_neg]
  · rfl
  · simp [hvm]
  · simp [hcmd, hS, hE]
  · simp only [State.modPe_pe, hidle]; decide

/-- A diagnosis that starts runs from 0 with every gate of its axis off, and leaves the other axis as it is. -/
theorem diagStart_runs {x : Axis} {s : State} (hidle : (s.pe.ax.get x).diag.getLsbD 14 = false) (hcmd : (s.pe.ax.get x).cmd = 0)
    (hS : (s.pe.ax.get x).latch ≠ .relS) (hE : (s.pe.ax.get x).latch ≠ .relE) (hvm : s.pe.an.uvlo = false) :
    ((diagStart x 1 s).pe.ax.get x).diag.getLsbD 14 = true ∧ ((diagStart x 1 s).pe.ax.get x).diagClk = 0 ∧
      ((diagStart x 1 s).pe.ax.get x).diagH = [] ∧ allOff (diagStart x 1 s) x ∧
      (diagStart x 1 s).pe.ax.get (otherAxis x) = s.pe.ax.get (otherAxis x) := by
  have hother := otherAxis_ne x
  rw [diagStart_starts hidle hcmd hS hE hvm]
  refine ⟨?_, ?_, ?_, allOff_gatesOff x _, ?_⟩
  · rw [pax_gatesOff]; simp
  · rw [pax_gatesOff]; simp
  · rw [pax_gatesOff]; simp
  · rw [pax_gatesOff_other x _ hother, pax_modPax_other x _ hother]; rfl

/-! ### CONTROL entries (R85) -/

/-- A byte of the run-time area above the band codes and the diagnosis starts: beside the area it can change the analogue side and the
count to the power-down only. -/
theorem runtimeByte_only {a : Nat} (h : 0xF04 ≤ a) (b : Byte) (s : State) : runtimeByte a b s = { s with pe := { s.pe with
    runtime := memWrite s.pe.runtime a b, an := (runtimeByte a b s).pe.an, downIn := (runtimeByte a b s).pe.downIn } } := by
  have hA : a ≠ 0xF00 := by omega
  have hB : a ≠ 0xF01 := by omega
  have hdA : a ≠ 0xF02 := by omega
  have hdB : a ≠ 0xF03 := by omega
  simp only [runtimeByte, hA, hB, hdA, hdB, if_false]
  split
  · rfl
  · split
    · rfl
    · split <;> rfl

theorem runtimeBytes_only (bs : List Byte) : ∀ {a : Nat}, 0xF04 ≤ a → a + bs.length ≤ 0x1000 → ∀ s : State,
    runtimeBytes a bs s = { s with pe := { s.pe with
      runtime := memWrites s.pe.runtime a bs, an := (runtimeBytes a bs s).pe.an, downIn := (runtimeBytes a bs s).pe.downIn } } := by
  induction bs with
  | nil => intro a _ _ s; rfl
  | cons b bs ih =>
    intro a hlo hhi s
    have hin : a < 0x1000 := by simp at hhi; omega
    have hrest : a + 1 + bs.length ≤ 0x1000 := by simp at hhi; omega
    simp only [runtimeBytes, hin, if_true]
    rw [ih (by omega) hrest, runtimeByte_only hlo]
    rfl

theorem syncBuck_only (s : State) : syncBuck s = { s with pe := { s.pe with
    an := { s.pe.an with buck := (syncBuck s).pe.an.buck, iTarget := (syncBuck s).pe.an.iTarget } } } := rfl

/-- An entry within the run-time area acts by its bytes, and the buck follows. -/
theorem controlEntry_inside {a : Nat} (hlo : stagedEnd ≤ a) (hhi : a < 0x1000) (bs : List Byte) (s : State) :
    controlEntry (a, bs) s = syncBuck (runtimeBytes a bs s) := if_pos ⟨hlo, hhi⟩

/-- An entry above the band codes and the diagnosis starts reaches the run-time area; beside it only the analogue side and the count
to the power-down can change. -/
theorem controlEntry_only {a : Nat} {bs : List Byte} (hlo : 0xF04 ≤ a) (hin : a < 0x1000) (hhi : a + bs.length ≤ 0x1000) (s : State) :
    controlEntry (a, bs) s = { s with pe := { s.pe with
      runtime := memWrites s.pe.runtime a bs, an := (controlEntry (a, bs) s).pe.an, downIn := (controlEntry (a, bs) s).pe.downIn } } := by
  rw [controlEntry_inside (by unfold stagedEnd; omega) hin, syncBuck_only, runtimeBytes_only bs hlo hhi]

theorem runtimeBytes_tmuxA (v : Byte) (s : State) : runtimeBytes 0xF30 [v] s =
    (s.modPe fun p => { p with runtime := memWrite p.runtime 0xF30 v }).modAn fun n => { n with tmuxA := v &&& 0x9F } := by
  simp [runtimeBytes, runtimeByte]

/-- The TMUX_A entry: its byte in the run-time area, and on the output without its reserved bits (R668). -/
theorem controlEntry_tmuxA (v : Byte) (s : State) : controlEntry (0xF30, [v]) s = { s with pe := { s.pe with
    runtime := memWrite s.pe.runtime 0xF30 v, an := { s.pe.an with
      tmuxA := v &&& 0x9F, buck := (controlEntry (0xF30, [v]) s).pe.an.buck, iTarget := (controlEntry (0xF30, [v]) s).pe.an.iTarget } } } := by
  rw [controlEntry_inside (by decide) (by decide), runtimeBytes_tmuxA, syncBuck_only]
  rfl

/-- 0x5A at 0xF10 starts the power-down: the core goes down at the end of the tick that the next reload begins (Table 15-3). -/
theorem controlEntry_powerDown (s : State) : (controlEntry (0xF10, [0x5A]) s).pe.downIn = 2 := rfl

/-- Settles O35: TIME by its comparison with TICK, and each entry by what its bytes do in the run-time area. -/
theorem controlEntriesAct : Obligations.ControlEntriesAct := by
  unfold Obligations.ControlEntriesAct
  intro s hlive
  have live_next (f : State → State) : (.next (if s.pe.live then f s else s) : Out) = .next (f s) := by rw [if_pos hlive]
  refine ⟨?agrees, ?differs, ?control, ?tmux, ?band, ?illegal, ?diag, ?charger, ?down, ?trim⟩
  case agrees => exact downRow_live hlive (deltaTime_agrees s.framed)
  case differs =>
    intro hi hne hfired
    exact ⟨_, downRow_live hlive (deltaTime_differs (s := s.framed) hne hfired), peonyGap_stops 0x05 s.framed⟩
  case control =>
    intro ents v hents
    refine ⟨controlEntry (0xF30, [v]) s.framed, downRow_live hlive (by rw [hents]; rfl), ?_⟩
    rw [controlEntry_tmuxA]
    exact ⟨rfl, rfl, rfl, rfl⟩
  case tmux =>
    intro v
    refine ⟨_, live_next (controlEntry (0xF30, [v])), ?_⟩
    rw [controlEntry_tmuxA]
    exact ⟨rfl, rfl, rfl⟩
  case band => exact fun ax c hc => ⟨_, live_next (bandCode ax c), bandCode_acts ax hc s⟩
  case illegal => exact fun ax c hc => (live_next (bandCode ax c)).trans (congrArg _ (bandCode_illegal ax hc s))
  case diag =>
    intro ax hidle hcmd hS hE hvm
    exact ⟨_, live_next (diagStart ax 1), diagStart_runs hidle hcmd hS hE hvm⟩
  case charger =>
    intro addr data hlo hhi
    refine ⟨controlEntry (addr.toNat, data) s, congrArg _ (if_pos ?_), ?_⟩
    · simp [hlive, hlo, hhi]; omega
    · rw [controlEntry_only (by omega) (by omega) (by omega)]
      exact ⟨rfl, rfl, rfl⟩
  case down =>
    refine ⟨_, live_next (controlEntry (0xF10, [0x5A])), controlEntry_powerDown s, ?_⟩
    rw [controlEntry_only (by decide) (by decide) (by decide)]
    exact ⟨(Bool.and_eq_true_iff.1 hlive).1, rfl, rfl⟩
  case trim =>
    intro v
    refine ⟨_, live_next (controlEntry (0xF20, leBytes 2 v.toNat)), ?_⟩
    rw [controlEntry_only (by decide) (by decide) (by simp [leBytes])]
    exact ⟨rfl, rfl, rfl⟩

end Sys2Proof.Machine
end

section
/-! SUPPORT. Segments and their verdicts (R61-R64, R69, R70, R72-R74, R80) and the end of a `clear` on Aster (R302). -/

namespace Sys2Proof.Machine

/-! ### Repeated updates -/

/-- What every update of a list of them keeps, all of them keep. -/
theorem keeps_forAll {α β : Type} {g : State → β} {f : α → State → State} (h : ∀ a s, g (f a s) = g s) (l : List α) :
    ∀ s, g (forAll l f s) = g s := by
  induction l with
  | nil => exact fun _ => rfl
  | cons a l ih => exact fun s => (ih (f a s)).trans (h a s)

/-! ### Segments (R61-R63) -/

theorem ofLe_leBytes (n : Nat) : ∀ x : Nat, ofLe (leBytes n x) = x % 256 ^ n := by
  induction n with
  | zero => intro x; simp [leBytes, ofLe, Nat.mod_one]
  | succ n ih =>
    intro x
    rw [leBytes, ofLe, ih, BitVec.toNat_ofNat, Nat.pow_succ' (n := n), Nat.mod_mul (b := 256 ^ n)]

@[simp] theorem length_leBytes (n : Nat) : ∀ x : Nat, (leBytes n x).length = n := by
  induction n with
  | zero => exact fun _ => rfl
  | succ n ih => exact fun x => congrArg Nat.succ (ih _)

@[simp] theorem onLane_quiet (bs : List Byte) : onLane bs [] = bs := by cases bs <;> rfl

theorem headerByte_kind {kind : Nat} (h : kind < 16) (q : BitVec 4) : (headerByte kind q).toNat / 16 = kind := by
  have hq := q.isLt
  rw [headerByte, BitVec.toNat_ofNat]
  omega

theorem headerByte_seq (kind : Nat) (q : BitVec 4) : (headerByte kind q).extractLsb' 0 4 = q := by
  have hq := q.isLt
  apply BitVec.eq_of_toNat_eq
  rw [BitVec.extractLsb'_toNat, headerByte, BitVec.toNat_ofNat, Nat.shiftRight_zero]
  omega

@[simp] theorem length_segment (body : List Byte) : (segment body).length = body.length + 3 := by
  simp [segment, crcBytes]

/-- A segment of a kind passes the checks of its length and kind (R62). -/
theorem segmentOk_segment {kind : Nat} (hkind : kind < 16) (q : BitVec 4) {r : List Byte} {len : Nat} (hlen : r.length + 4 = len) :
    segmentOk len kind (segment (headerByte kind q :: r)) = true := by
  subst hlen
  have hdrop : (segment (headerByte kind q :: r)).drop (r.length + 2) = crcBytes (headerByte kind q :: r) := by
    simp [segment]
  have htake : ((segment (headerByte kind q :: r)).drop 1).take (r.length + 1) = headerByte kind q :: r := by
    simp [segment]
  have hfirst : nth (segment (headerByte kind q :: r)) 0 0 = syncByte := rfl
  have hhead : nth (segment (headerByte kind q :: r)) 1 0 = headerByte kind q := rfl
  simp only [segmentOk, length_segment, List.length_cons, hfirst, hhead, headerByte_kind hkind, beq_self_eq_true, Bool.true_and]
  rw [show r.length + 4 - 2 = r.length + 2 by omega, show r.length + 4 - 3 = r.length + 1 by omega, hdrop, htake]
  exact beq_self_eq_true _

theorem seqDist_segment (last : BitVec 4) (kind : Nat) (q : BitVec 4) (r : List Byte) :
    seqDist last (segment (headerByte kind q :: r)) = (q - last).toNat :=
  congrArg (fun c : BitVec 4 => (c - last).toNat) (headerByte_seq kind q)

/-- A segment with the sequence number after the last accepted one is acknowledged and taken, and no other is missing (R73). -/
theorem judgeSeq_next {last : BitVec 4} {take : List Byte → State → State} {kind : Nat} {q : BitVec 4} (hq : q = last + 1)
    (r : List Byte) (s : State) :
    judgeSeq last take (segment (headerByte kind q :: r)) s = (ackByte, take (segment (headerByte kind q :: r)) s) := by
  have hone : seqDist last (segment (headerByte kind q :: r)) = 1 := by
    rw [seqDist_segment, hq, BitVec.add_comm, BitVec.add_sub_cancel]; rfl
  simp [judgeSeq, hone]

/-- A segment with the sequence number of the last accepted one is acknowledged and changes nothing (R73). -/
theorem judgeSeq_again {last : BitVec 4} {take : List Byte → State → State} {kind : Nat} (r : List Byte) (s : State) :
    judgeSeq last take (segment (headerByte kind last :: r)) s = (ackByte, s) := by
  have hzero : seqDist last (segment (headerByte kind last :: r)) = 0 := by
    rw [seqDist_segment, BitVec.sub_self]; rfl
  simp [judgeSeq, hzero]

/-! ### The DOWN frame (R69, R70) -/

/-- The delta field of a frame, filled to its 32 bytes (Table 3-7). -/
def DownFrame.filled (f : DownFrame) : List Byte := f.delta ++ List.replicate (32 - f.delta.length) 0

/-- The bytes of a frame after its header byte. -/
def DownFrame.rest (f : DownFrame) : List Byte :=
  f.tickl :: f.ga.bytes ++ f.gb.bytes ++ [BitVec.ofNat 8 (16 * f.dtype.toNat)] ++ f.delta ++ List.replicate (32 - f.delta.length) 0

theorem DownFrame.bytes_eq (f : DownFrame) : f.bytes = segment (headerByte 8 f.seq :: f.rest) := rfl

theorem DownFrame.length_filled {f : DownFrame} (h : f.delta.length ≤ 32) : f.filled.length = 32 := by
  simp [DownFrame.filled]; omega

theorem DownFrame.length_rest {f : DownFrame} (h : f.delta.length ≤ 32) : f.rest.length = 44 := by
  simp [DownFrame.rest, GateWord.bytes]; omega

/-- The 40 bits of a gate command word are its fields (R70). -/
theorem gateWord_fields (c : BitVec 4) (w v u : BitVec 12) :
    (c ++ w ++ v ++ u).extractLsb' 36 4 = c ∧ (c ++ w ++ v ++ u).extractLsb' 0 12 = u ∧
      (c ++ w ++ v ++ u).extractLsb' 12 12 = v ∧ (c ++ w ++ v ++ u).extractLsb' 24 12 = w := by
  refine ⟨?_, ?_, ?_, ?_⟩ <;> (ext i hi; simp; grind)

/-- The word that five bytes of a frame spell. -/
def wordOf (bs : List Byte) : GateWord :=
  let w : BitVec 40 := BitVec.ofNat 40 (ofLe bs)
  { cmd := w.extractLsb' 36 4, du := w.extractLsb' 0 12, dv := w.extractLsb' 12 12, dw := w.extractLsb' 24 12 }

theorem wordOf_bytes (w : GateWord) : wordOf w.bytes = w := by
  have hbits : BitVec.ofNat 40 (ofLe w.bytes) = w.cmd ++ w.dw ++ w.dv ++ w.du := by
    apply BitVec.eq_of_toNat_eq
    rw [BitVec.toNat_ofNat, GateWord.bytes, ofLe_leBytes]
    have := (w.cmd ++ w.dw ++ w.dv ++ w.du).isLt
    omega
  obtain ⟨hcmd, hdu, hdv, hdw⟩ := gateWord_fields w.cmd w.dw w.dv w.du
  simp only [wordOf, hbits, hcmd, hdu, hdv, hdw]

theorem dtypeByte_dtype (d : BitVec 4) : (BitVec.ofNat 8 (16 * d.toNat)).extractLsb' 4 4 = d := by
  have hd := d.isLt
  apply BitVec.eq_of_toNat_eq
  rw [BitVec.extractLsb'_toNat, BitVec.toNat_ofNat, Nat.shiftRight_eq_div_pow]
  omega

/-- A frame reads as it was sent, with its delta field filled (R69-R71). -/
theorem downOf_bytes {f : DownFrame} (hlen : f.delta.length ≤ 32) : downOf f.bytes = { f with delta := f.filled } := by
  have hseq : (nth f.bytes 1 0).extractLsb' 0 4 = f.seq := headerByte_seq 8 f.seq
  have hga : ((f.bytes.drop 3).take 5) = f.ga.bytes := rfl
  have hgb : ((f.bytes.drop 8).take 5) = f.gb.bytes := rfl
  have htick : nth f.bytes 2 0 = f.tickl := rfl
  have hdtype : (nth f.bytes 13 0).extractLsb' 4 4 = f.dtype := dtypeByte_dtype f.dtype
  have hdelta : (f.bytes.drop 14).take 32 = f.filled := by
    show (f.delta ++ List.replicate (32 - f.delta.length) 0 ++ crcBytes _).take 32 = f.filled
    exact List.take_left' (DownFrame.length_filled hlen)
  show ({ seq := (nth f.bytes 1 0).extractLsb' 0 4, tickl := nth f.bytes 2 0, ga := wordOf ((f.bytes.drop 3).take 5),
          gb := wordOf ((f.bytes.drop 8).take 5), dtype := (nth f.bytes 13 0).extractLsb' 4 4,
          delta := (f.bytes.drop 14).take 32 } : DownFrame) = _
  rw [hseq, hga, hgb, htick, hdtype, hdelta, wordOf_bytes, wordOf_bytes]

/-! ### Peony judges a DOWN frame (R72, R73, R80) -/

section
variable {s : State} {f : DownFrame}

theorem judgeDown_dead (h : s.pe.live = false) (bs : List Byte) : judgeDown bs s = (none, s) := by
  simp [judgeDown, h]

/-- A frame of the coming tick that arrives as it was sent is judged by its sequence number. -/
theorem judgeDown_live (hlive : s.pe.live = true) (htick : f.tickl = (s.pe.tick + 1).extractLsb' 0 8) (hlen : f.delta.length ≤ 32) :
    judgeDown f.bytes s = (some (judgeSeq s.pe.downSeq takeDown f.bytes s).1, (judgeSeq s.pe.downSeq takeDown f.bytes s).2) := by
  have hok : segmentOk 48 8 f.bytes = true :=
    segmentOk_segment (r := f.rest) (by decide) f.seq (by rw [DownFrame.length_rest hlen])
  have hnamed : (nth f.bytes 2 0 == (s.pe.tick + 1).extractLsb' 0 8) = true := beq_iff_eq.2 htick
  simp only [judgeDown, hlive, hok, hnamed, Bool.not_true, Bool.false_eq_true, if_false, Bool.and_self, if_true]

/-- Peony with a new frame: it is marked, and its words wait for the reload. -/
def State.downTaken (s : State) (f : DownFrame) : State :=
  s.modPe fun p => { p with gotDown := true, downSeq := f.seq, rx := some { f with delta := f.filled } }

theorem judgeDown_next (hlive : s.pe.live = true) (htick : f.tickl = (s.pe.tick + 1).extractLsb' 0 8) (hlen : f.delta.length ≤ 32)
    (htype : f.dtype = 0) (hseq : f.seq = s.pe.downSeq + 1) : judgeDown f.bytes s = (some ackByte, s.downTaken f) := by
  rw [judgeDown_live hlive htick hlen, DownFrame.bytes_eq, judgeSeq_next hseq, ← DownFrame.bytes_eq]
  have hdelta : takeDelta { f with delta := f.filled } (s.downTaken f) = s.downTaken f := by
    simp [takeDelta, htype]
  simp only [takeDown, downOf_bytes hlen]
  exact congrArg _ hdelta

theorem judgeDown_again (hlive : s.pe.live = true) (htick : f.tickl = (s.pe.tick + 1).extractLsb' 0 8) (hlen : f.delta.length ≤ 32)
    (hseq : f.seq = s.pe.downSeq) : judgeDown f.bytes s = (some ackByte, s) := by
  rw [judgeDown_live hlive htick hlen, DownFrame.bytes_eq, hseq, judgeSeq_again]

/-! ### Verdicts at their sender (R72, R74) -/

theorem tokenAck_some {tok hit : Byte} (h : tok ^^^ hit = ackByte) : tokenAck (some tok) hit = true := by
  simp [tokenAck, h]

theorem tokenAck_other {tok hit : Byte} (h : tok ^^^ hit ≠ ackByte) : tokenAck (some tok) hit = false := by
  simp [tokenAck, h]

theorem verdict_ut_ack {bs : List Byte} {tok : Byte} (h : s.pe.ut = .out bs tok ∨ s.pe.ut = .retried bs tok) {lane : Lane}
    (hack : tok ^^^ lane.hit = ackByte) : exec (.verdictToken .ut lane) s = .next (s.modPe (utAcked bs)) := by
  show execVerdictToken .ut lane s = _
  rcases h with h | h <;> simp [execVerdictToken, State.modPe, h, tokenAck_some hack]

theorem verdict_ut_nak {bs : List Byte} {tok : Byte} (h : s.pe.ut = .out bs tok ∨ s.pe.ut = .retried bs tok) {lane : Lane}
    (hnak : tok ^^^ lane.hit ≠ ackByte) :
    exec (.verdictToken .ut lane) s = .next (s.modPe fun p => { p with ut := p.ut.verdict lane.hit }) := by
  show execVerdictToken .ut lane s = _
  rcases h with h | h <;> simp [execVerdictToken, State.modPe, h, tokenAck_other hnak]

theorem SegState.verdict_ack {q : SegState} {bs : List Byte} {tok hit : Byte} (h : q = .out bs tok ∨ q = .retried bs tok)
    (hack : tok ^^^ hit = ackByte) : q.verdict hit = .acked := by
  rcases h with h | h <;> simp [h, SegState.verdict, tokenAck_some hack]

theorem SegState.verdict_first {bs : List Byte} {tok hit : Byte} (hnak : tok ^^^ hit ≠ ackByte) :
    (SegState.out bs tok).verdict hit = .again bs := by
  simp [SegState.verdict, tokenAck_other hnak]

theorem SegState.verdict_second {bs : List Byte} {tok hit : Byte} (hnak : tok ^^^ hit ≠ ackByte) :
    (SegState.retried bs tok).verdict hit = .lost := by
  simp [SegState.verdict, tokenAck_other hnak]

/-- The axes whose CLEAR a frame carries. -/
def DownFrame.clears (f : DownFrame) : BitVec 2 := (if f.ga.cmd = 6 then 1 else 0) ||| (if f.gb.cmd = 6 then 2 else 0)

theorem DownFrame.clears_none (ha : f.ga.cmd ≠ 6) (hb : f.gb.cmd ≠ 6) : f.clears = 0 := by
  rw [DownFrame.clears, if_neg ha, if_neg hb]; rfl

/-- Aster with a frame that Peony has acknowledged. -/
def State.downSent (s : State) (f : DownFrame) : State :=
  s.modLink fun l => { l with down := none, downRetry := false, wordsTo := { a := f.ga, b := f.gb } }

/-- An acknowledged frame without a delta field: its words count as received, and its CLEAR has gone out. -/
theorem downAcked_plain (htype : f.dtype = 0) (s : State) :
    downAcked f s = clearSent (f.clears &&& s.link.clear) (s.tick + 1) (s.downSent f) := by
  simp only [downAcked, htype]
  rfl

/-- A frame that Peony acknowledges over quiet lanes. -/
theorem verdict_down_ack {t : State} (hdown : s.link.down = some f) (hjudge : judgeDown f.bytes s = (some ackByte, t)) :
    exec (.verdictToken .down ⟨[], 0⟩) s = .next (downAcked f t) := by
  show execVerdictToken .down ⟨[], 0⟩ s = _
  have hack : tokenAck (some ackByte) 0 = true := by decide
  simp only [execVerdictToken, hdown, onLane_quiet, hjudge, hack, if_true]

/-- Without a training Peony answers nothing, which is one retry and then a lost frame (R74, R80). -/
theorem verdict_down_dead (hdown : s.link.down = some f) (hdead : s.pe.live = false) (lane : Lane) :
    exec (.verdictToken .down lane) s = .next (if s.link.downRetry
      then s.modLink fun l => { l with down := none, downRetry := false, downLost := true }
      else bump 0x7821 (s.modLink fun l => { l with downRetry := true })) := by
  show execVerdictToken .down lane s = _
  have hnone : tokenAck none lane.hit = false := rfl
  simp [execVerdictToken, hdown, judgeDown_dead hdead, hnone]

end

end Sys2Proof.Machine
end

section
/-! SUPPORT. What a message leaves as it is, and the end of a `clear` on Aster (R302). Replies, notices, entries of the log, counters and
requests to FRAM change neither Peony nor the link, the loop engine, the set or the faults. -/

namespace Sys2Proof.Machine

/-! ### The parts that no message changes -/

/-- The parts of a state that replies, notices, log entries and counters leave as they are. -/
structure Standing where
  pe : Peony
  link : ALink
  loop : Pair AxLoop
  prm : Params
  faults : List AFault

/-- These parts of a state. -/
def State.standing (s : State) : Standing := { pe := s.pe, link := s.link, loop := s.loop, prm := s.prm, faults := s.faults }

section
variable (s : State)

@[simp] theorem standing_modSes (x : Sess) (f : Session → Session) : (s.modSes x f).standing = s.standing := rfl
@[simp] theorem standing_modHost (f : HostCore → HostCore) : (s.modHost f).standing = s.standing := rfl
@[simp] theorem standing_modFram (f : Fram → Fram) : (s.modFram f).standing = s.standing := rfl
@[simp] theorem standing_modLog (f : LogState → LogState) : (s.modLog f).standing = s.standing := rfl
@[simp] theorem standing_bumpBy (id n : Nat) : (bumpBy id n s).standing = s.standing := rfl
@[simp] theorem standing_bump (id : Nat) : (bump id s).standing = s.standing := rfl
@[simp] theorem standing_waitFor (k : Call) (w : Wait) : (waitFor k w s).standing = s.standing := rfl
@[simp] theorem standing_closeWindows (m : BitVec 2) : (closeWindows m s).standing = s.standing := rfl

@[simp] theorem standing_ite (c : Prop) [Decidable c] (a b : State) :
    (if c then a else b).standing = if c then a.standing else b.standing := apply_ite State.standing c a b

@[simp] theorem standing_when (c : Bool) (f : State → State) :
    (when_ c f s).standing = if c then (f s).standing else s.standing := standing_ite _ (f s) s

theorem standing_forAll {α : Type} {f : α → State → State} (h : ∀ a s, (f a s).standing = s.standing) (l : List α) :
    (forAll l f s).standing = s.standing := keeps_forAll h l s

@[simp] theorem standing_answer (k : Call) (t : Text) : (answer k t s).standing = s.standing := by
  have h : answer k t s = { s with sess := (answer k t s).sess } := (answer_only k t s).1
  rw [h]; rfl

@[simp] theorem standing_violate (k : Call) (n : Nat) (lv : Level) (c : Nat) (a : Option (Bool × Nat)) :
    (violate k n lv c a s).standing = s.standing := by rw [violate_only]; rfl

@[simp] theorem standing_fail (k : Call) (n : Nat) : (fail k n s).standing = s.standing := by
  simp [fail]

@[simp] theorem standing_noticeTo (x : Sess) (c : Nat) (t : Text) : (noticeTo x c t s).standing = s.standing := by
  unfold noticeTo
  split
  · simp
  · rfl

@[simp] theorem standing_notice (c : Nat) (t : Text) : (notice c t s).standing = s.standing :=
  standing_forAll s (by simp) _

@[simp] theorem standing_latchOrder (t : Text) (n : W32) : (latchOrder t n s).standing = s.standing := rfl

@[simp] theorem standing_faultNotice (w : String) (n : Text) (m : BitVec 2) (t : W32) : (faultNotice w n m t s).standing = s.standing := by
  simp [faultNotice]

@[simp] theorem standing_logStamped (t : W32) (at_ : W48) (k : Nat) (axes : BitVec 2) (a b : Nat) :
    (logStamped t at_ k axes a b s).standing = s.standing := by rw [logStamped_only]; rfl

@[simp] theorem standing_logAster (k : Nat) (axes : BitVec 2) (a b : Nat) : (logAster k axes a b s).standing = s.standing :=
  standing_logStamped ..

/-! ### The reply of a `clear` -/

@[simp] theorem standing_clearReply (k : Call) (sel : AxisSel) : (clearReply k sel s).standing = s.standing := by
  simp [clearReply, ok, okValue]

end

/-! ### The end of a `clear` (R302) -/

/-- The CLEAR entries and the notices of the faults that leave the axes. -/
def clearEntries (m : BitVec 2) (t : W32) (gone : List AFault) (s : State) : State :=
  forAll gone (fun f s => logAster 0x20 (f.axes &&& m) f.kind 0 (faultNotice "cleared" (kindText f.kind) (f.axes &&& m) t s)) s

/-- A cleared axis: it is disarmed, and a fault of its index ends with the offset that it had found. -/
def clearAxis (m : BitVec 2) (gone late : List AFault) (x : Axis) (s : State) : State :=
  if hasAxis m x && !(late.any fun f => hasAxis f.axes x) then
    let s := s.modLoop x fun l =>
      { l with st := if l.st == .latched then .disarmed else l.st, failed := .none, openPh := none, word := .off, relAt := none }
    when_ (gone.any fun f => f.kind == 0x0B && hasAxis f.axes x)
      (fun s => s.modPos x fun p => { p with phi := none, idxRun := 0, idxErr := none, idxBad := false }) s
  else s

/-- An axis that no fault holds any more. -/
def freeAxis (x : Axis) (s : State) : State :=
  s.modLoop x fun l => { l with st := if l.st == .latched then .disarmed else l.st, word := .off, relAt := none }

/-- The drivers of FLT_L after a clear: released when no fault is left. -/
def clearDrivers (left : List AFault) (s : State) : State :=
  if left.isEmpty then
    forAll axes2 freeAxis (s.modLink fun l =>
      { l with off := false, mark := none, flt := l.flt && s.dev == .safe, outside := false, rests := 0 })
  else s.modLink fun l => { l with flt := left.any fun f => f.die == .aster }

/-- The steps of a clear of axes, with the faults that a fault since the CLEAR has added set apart. -/
theorem clearAxes_eq (m : BitVec 2) (t : W32) (s : State) : clearAxes m t s =
    let n := s.link.clearN.getD s.faults.length
    let late := s.faults.drop n
    let gone := (s.faults.take n).filter (inClear m)
    let left := faultsAfter m (s.faults.take n) ++ late
    let u := clearEntries m t gone { s.modLink (fun l => { l with clearN := none }) with faults := left, free := s.free + 1 }
    let v := forAll axes2 (clearAxis m gone late) u
    fltSync (clearDrivers left (closeWindows m (v.modLink fun l =>
      { l with rests := if late.isEmpty then l.rests &&& ~~~m else l.rests }))) := rfl

/-- What a clear of axes leaves as it is once its faults are out of the list. -/
def State.clearKept (s : State) : List AFault × BitVec 2 × Params := (s.faults, s.link.clear, s.prm)

/-- An axis that is not LATCHED. -/
def Unlatched (y : Axis) (s : State) : Prop := (s.loop.get y).st ≠ .latched

theorem clearKept_of_standing {s t : State} (h : t.standing = s.standing) : t.clearKept = s.clearKept :=
  congrArg (fun q : Standing => (q.faults, q.link.clear, q.prm)) h

section
variable (s : State)

theorem standing_clearEntries (m : BitVec 2) (t : W32) (gone : List AFault) : (clearEntries m t gone s).standing = s.standing :=
  standing_forAll s (by simp) _

theorem clearKept_clearAxis (m : BitVec 2) (gone late : List AFault) (x : Axis) : (clearAxis m gone late x s).clearKept = s.clearKept := by
  unfold clearAxis when_
  split
  · dsimp only
    split <;> rfl
  · rfl

theorem clearKept_clearDrivers (left : List AFault) : (clearDrivers left s).clearKept = s.clearKept := by
  unfold clearDrivers
  split <;> rfl

theorem loop_clearAxis {m : BitVec 2} {x : Axis} (h : hasAxis m x = true) (gone : List AFault) :
    (clearAxis m gone [] x s).loop = s.loop.mod x fun l =>
      { l with st := if l.st == .latched then .disarmed else l.st, failed := .none, openPh := none, word := .off, relAt := none } := by
  simp only [clearAxis, h, List.any_nil, Bool.not_false, Bool.and_self, if_true, when_]
  split <;> rfl

/-- A change that disarms an axis where it is LATCHED leaves no other axis LATCHED that was not. -/
theorem unlatched_of_disarms {f : AxLoop → AxLoop} (hf : ∀ l, (f l).st ≠ .latched) {x y : Axis} {s t : State}
    (ht : t.loop = s.loop.mod x f) (h : y = x ∨ Unlatched y s) : Unlatched y t := by
  unfold Unlatched
  rw [ht]
  by_cases hyx : y = x
  · subst hyx
    rw [Pair.get_mod_same]
    exact hf _
  · rw [Pair.get_mod_other _ _ hyx]
    exact h.resolve_left hyx

theorem disarmed_of_latched (st : AxState) : (if st == .latched then AxState.disarmed else st) ≠ .latched := by
  cases st <;> decide

theorem unlatched_clearAxis {m : BitVec 2} {x y : Axis} (gone : List AFault) (h : hasAxis m x = true → y = x ∨ Unlatched y s)
    (hkept : hasAxis m x = false → Unlatched y s) : Unlatched y (clearAxis m gone [] x s) := by
  cases hm : hasAxis m x with
  | true => exact unlatched_of_disarms (fun l => disarmed_of_latched l.st) (loop_clearAxis s hm gone) (h hm)
  | false =>
    have hsame : clearAxis m gone [] x s = s := by simp [clearAxis, hm]
    rw [hsame]
    exact hkept hm

/-- With no fault since the CLEAR, every axis that it names is left DISARMED or where it was, and none LATCHED. -/
theorem unlatched_clearBoth {m : BitVec 2} {y : Axis} (h : hasAxis m y = true) (gone : List AFault) :
    Unlatched y (forAll axes2 (clearAxis m gone []) s) := by
  simp only [axes2, forAll_cons, forAll_nil]
  cases y with
  | a =>
    have ha : Unlatched .a (clearAxis m gone [] .a s) :=
      unlatched_clearAxis s gone (fun _ => .inl rfl) fun hno => absurd h (by simp [hno])
    exact unlatched_clearAxis _ gone (fun _ => .inr ha) fun _ => ha
  | b => exact unlatched_clearAxis _ gone (fun _ => .inl rfl) fun hno => absurd h (by simp [hno])

theorem unlatched_freeAxis (x : Axis) {y : Axis} (h : Unlatched y s) : Unlatched y (freeAxis x s) :=
  unlatched_of_disarms (f := fun l => { l with st := if l.st == .latched then .disarmed else l.st, word := .off, relAt := none })
    (fun l => disarmed_of_latched l.st) (State.modLoop_loop ..) (.inr h)

theorem unlatched_clearDrivers (left : List AFault) {y : Axis} (h : Unlatched y s) : Unlatched y (clearDrivers left s) := by
  unfold clearDrivers
  split
  · exact unlatched_freeAxis _ .b (unlatched_freeAxis _ .a h)
  · exact h

theorem clearKept_fltSync : (fltSync s).clearKept = s.clearKept := rfl

theorem unlatched_fltSync {y : Axis} (h : Unlatched y s) : Unlatched y (fltSync s) := h

theorem clearKept_closeWindows (m : BitVec 2) : (closeWindows m s).clearKept = s.clearKept := rfl

theorem unlatched_closeWindows (m : BitVec 2) {y : Axis} (h : Unlatched y s) : Unlatched y (closeWindows m s) := h

theorem unlatched_modLink (f : ALink → ALink) {y : Axis} (h : Unlatched y s) : Unlatched y (s.modLink f) := h

/-- A clear of axes for faults that all stood when the CLEAR left: they leave the axes, which are no longer LATCHED, and the set
and the CLEARs that are still to go out stay (R302). -/
theorem clearAxes_acts (m : BitVec 2) (t : W32) (hold : ∀ n, s.link.clearN = some n → s.faults.length ≤ n) :
    (clearAxes m t s).clearKept = (faultsAfter m s.faults, s.link.clear, s.prm) ∧
      ∀ y, hasAxis m y = true → Unlatched y (clearAxes m t s) := by
  have hlen : s.faults.length ≤ s.link.clearN.getD s.faults.length := by
    cases hn : s.link.clearN with
    | none => exact Nat.le_refl _
    | some n => exact hold n hn
  have htake : s.faults.take (s.link.clearN.getD s.faults.length) = s.faults := List.take_of_length_le hlen
  have hdrop : s.faults.drop (s.link.clearN.getD s.faults.length) = [] := List.drop_of_length_le hlen
  rw [clearAxes_eq]
  dsimp only
  rw [htake, hdrop, List.append_nil]
  refine ⟨?_, fun y hy => ?free⟩
  case free =>
    exact unlatched_fltSync _ (unlatched_clearDrivers _ _ (unlatched_closeWindows _ _ (unlatched_modLink _ _ (unlatched_clearBoth _ hy _))))
  generalize hu : clearEntries m t _ _ = u
  have hkept : u.clearKept = (faultsAfter m s.faults, s.link.clear, s.prm) := by
    rw [← hu]
    exact clearKept_of_standing (standing_clearEntries _ m t _)
  have haxes := keeps_forAll (fun x v => clearKept_clearAxis v m (s.faults.filter (inClear m)) [] x) axes2 u
  rw [clearKept_fltSync, clearKept_clearDrivers, clearKept_closeWindows, ← hkept, ← haxes]
  rfl

/-- A CLEAR that has gone out for faults that all stood when it left (R302): beside the clear of the axes only lines are answered. -/
theorem clearSent_acts {m : BitVec 2} (hm : m ≠ 0) (t : W32) (hold : ∀ n, s.link.clearN = some n → s.faults.length ≤ n) :
    (clearSent m t s).clearKept = (faultsAfter m s.faults, s.link.clear &&& ~~~m, s.prm) ∧
      ∀ y, hasAxis m y = true → Unlatched y (clearSent m t s) := by
  obtain ⟨hkept, hfree⟩ := clearAxes_acts (s.modLink fun l => { l with clear := l.clear &&& ~~~m }) m t hold
  have hreplies : (clearSent m t s).standing = (clearAxes m t (s.modLink fun l => { l with clear := l.clear &&& ~~~m })).standing := by
    rw [clearSent, if_neg hm]
    refine standing_forAll _ (fun k u => ?_) _
    split
    · exact standing_clearReply _ _ _
    · rfl
  refine ⟨(clearKept_of_standing hreplies).trans hkept, fun y hy => ?_⟩
  have hloop : (clearSent m t s).loop = _ := congrArg Standing.loop hreplies
  unfold Unlatched
  rw [hloop]
  exact hfree y hy

end

/-- An acknowledged frame without a delta field and without a CLEAR. -/
theorem downAcked_noClear {f : DownFrame} (htype : f.dtype = 0) (ha : f.ga.cmd ≠ 6) (hb : f.gb.cmd ≠ 6) (s : State) :
    downAcked f s = s.downSent f := by
  have hnone : f.clears &&& s.link.clear = 0 := by
    rw [DownFrame.clears_none ha hb]
    exact BitVec.zero_and
  rw [downAcked_plain htype, hnone]
  rfl

/-! ### The statement -/

/-- Settles O27: tokens by the verdict of their segment, DOWN frames by how Peony judges them, and a CLEAR by the clear of its axes. -/
theorem verdictsAct : Obligations.VerdictsAct := by
  unfold Obligations.VerdictsAct
  intro hit s
  refine ⟨?utAck, ?utNak, ?utLost, ?ucAck, ?ucNak, ?ucLost, ?down, ?dead⟩
  case utAck => exact fun noise bs tok hut hack => verdict_ut_ack hut hack
  case utNak =>
    intro noise bs tok hut hnak
    rw [verdict_ut_nak (.inl hut) hnak, State.modPe, hut, SegState.verdict_first hnak]
  case utLost =>
    intro noise bs tok hut hnak
    rw [verdict_ut_nak (.inr hut) hnak, State.modPe, hut, SegState.verdict_second hnak]
  case ucAck =>
    intro noise bs tok huc hack
    exact congrArg (fun q => Host.Outcome.next { s with pe := { s.pe with uc := q } }) (SegState.verdict_ack huc hack)
  case ucNak =>
    intro noise bs tok huc hnak
    exact congrArg (fun q => Host.Outcome.next { s with pe := { s.pe with uc := q } })
      ((congrArg (SegState.verdict hit) huc).trans (SegState.verdict_first hnak))
  case ucLost =>
    intro noise bs tok huc hnak
    exact congrArg (fun q => Host.Outcome.next { s with pe := { s.pe with uc := q } })
      ((congrArg (SegState.verdict hit) huc).trans (SegState.verdict_second hnak))
  case down =>
    rintro f hdown hlive htick hlen htype rfl
    refine ⟨fun hseq ha hb => ?_, fun hseq ha hb => ?_, fun hseq m hm hne hold => ?_⟩
    · rw [verdict_down_ack hdown (judgeDown_next hlive htick hlen htype hseq), downAcked_noClear htype ha hb]
      rfl
    · rw [verdict_down_ack hdown (judgeDown_again hlive htick hlen hseq), downAcked_noClear htype ha hb]
      rfl
    · obtain ⟨hkept, hfree⟩ := clearSent_acts ((s.downTaken f).downSent f) hne (s.tick + 1) hold
      refine ⟨_, verdict_down_ack hdown (judgeDown_next hlive htick hlen htype hseq), ?_⟩
      rw [downAcked_plain htype, show f.clears &&& (s.downTaken f).link.clear = m from hm.symm]
      exact ⟨congrArg Prod.fst hkept, congrArg (·.2.1) hkept, hfree, congrArg (·.2.2) hkept⟩
  case dead =>
    intro f noise hdown hdead
    refine ⟨fun hfirst => ⟨_, verdict_down_dead hdown hdead _, ?_⟩, fun hsecond => ?_⟩
    · rw [if_neg (by simp [hfirst])]
      refine ⟨rfl, ?_, rfl⟩
      rw [count_bump_same, show cntTop 0x7821 = 65535 by decide, Nat.min_comm]
      rfl
    · rw [verdict_down_dead hdown hdead, if_pos hsecond]
      rfl

end Sys2Proof.Machine
end

section
/-! SUPPORT. What Aster takes from a UT and a UC (R65-R68, R72, R73, R91). A segment that Aster takes sets what it has received; all that
follows in the same step — a record and its stop, a diagnosis that ends, a commit that goes on — leaves that, and Peony, as it is. -/

namespace Sys2Proof.Machine

/-! ### Peony and what has been received from it -/

/-- What Aster holds of the last UT and the last UC. -/
structure Arrived where
  gotUt : Bool
  utSeq : BitVec 4
  utAt : W48
  aux : List (BitVec 12)
  bst : Byte
  gotUc : Bool
  ucSeq : BitVec 4
  conv : List (BitVec 12)
  cmps : Byte
  setp : Bool

/-- The part of the link that a UT or a UC fills. -/
def ALink.arrived (l : ALink) : Arrived :=
  { gotUt := l.gotUt, utSeq := l.utSeq, utAt := l.utAt, aux := l.aux, bst := l.bst, gotUc := l.gotUc, ucSeq := l.ucSeq,
    conv := l.conv, cmps := l.cmps, setp := l.setp }

/-- Peony, and what Aster has received from it. -/
def State.received (s : State) : Peony × Arrived := (s.pe, s.link.arrived)

theorem received_of_standing {s t : State} (h : t.standing = s.standing) : t.received = s.received :=
  congrArg (fun q : Standing => (q.pe, q.link.arrived)) h

theorem received_modLink {f : ALink → ALink} (h : ∀ l, (f l).arrived = l.arrived) (s : State) : (s.modLink f).received = s.received :=
  congrArg (Prod.mk s.pe) (h s.link)

section
variable (s : State)

/-! ### Updates of the other parts -/

@[simp] theorem received_modSes (x : Sess) (f : Session → Session) : (s.modSes x f).received = s.received := rfl
@[simp] theorem received_modHost (f : HostCore → HostCore) : (s.modHost f).received = s.received := rfl
@[simp] theorem received_modLoop (x : Axis) (f : AxLoop → AxLoop) : (s.modLoop x f).received = s.received := rfl
@[simp] theorem received_modMot (x : Axis) (f : AxMot → AxMot) : (s.modMot x f).received = s.received := rfl
@[simp] theorem received_modPos (x : Axis) (f : AxPos → AxPos) : (s.modPos x f).received = s.received := rfl
@[simp] theorem received_modFram (f : Fram → Fram) : (s.modFram f).received = s.received := rfl
@[simp] theorem received_modLog (f : LogState → LogState) : (s.modLog f).received = s.received := rfl
@[simp] theorem received_modOtp (f : Otp → Otp) : (s.modOtp f).received = s.received := rfl
@[simp] theorem received_modBus (f : Bus → Bus) : (s.modBus f).received = s.received := rfl
@[simp] theorem received_modPwr (f : Power → Power) : (s.modPwr f).received = s.received := rfl
@[simp] theorem received_modChg (f : Charger → Charger) : (s.modChg f).received = s.received := rfl
@[simp] theorem received_commit (c : Option Commit) : ({ s with commit := c } : State).received = s.received := rfl
@[simp] theorem received_prm (p : Params) : ({ s with prm := p } : State).received = s.received := rfl
@[simp] theorem received_bundleTick (t : Option W32) : ({ s with bundleTick := t } : State).received = s.received := rfl

@[simp] theorem received_ite (c : Prop) [Decidable c] (a b : State) :
    (if c then a else b).received = if c then a.received else b.received := apply_ite State.received c a b

@[simp] theorem received_when (c : Bool) (f : State → State) :
    (when_ c f s).received = if c then (f s).received else s.received := received_ite _ (f s) s

theorem received_forAll {α : Type} {f : α → State → State} (h : ∀ a s, (f a s).received = s.received) (l : List α) :
    (forAll l f s).received = s.received := keeps_forAll h l s

/-! ### Messages -/

@[simp] theorem received_bumpBy (id n : Nat) : (bumpBy id n s).received = s.received := rfl
@[simp] theorem received_bump (id : Nat) : (bump id s).received = s.received := rfl
@[simp] theorem received_waitFor (k : Call) (w : Wait) : (waitFor k w s).received = s.received := rfl
@[simp] theorem received_closeWindows (m : BitVec 2) : (closeWindows m s).received = s.received := rfl
@[simp] theorem received_answer (k : Call) (t : Text) : (answer k t s).received = s.received := received_of_standing (by simp)
@[simp] theorem received_fail (k : Call) (n : Nat) : (fail k n s).received = s.received := received_of_standing (by simp)
@[simp] theorem received_notice (c : Nat) (t : Text) : (notice c t s).received = s.received := received_of_standing (by simp)
@[simp] theorem received_logStamped (t : W32) (at_ : W48) (k : Nat) (axes : BitVec 2) (a b : Nat) :
    (logStamped t at_ k axes a b s).received = s.received := received_of_standing (by simp)
@[simp] theorem received_logAster (k : Nat) (axes : BitVec 2) (a b : Nat) : (logAster k axes a b s).received = s.received :=
  received_of_standing (by simp)
@[simp] theorem received_faultNotice (w : String) (n : Text) (m : BitVec 2) (t : W32) : (faultNotice w n m t s).received = s.received :=
  received_of_standing (by simp)
@[simp] theorem received_clearReply (k : Call) (sel : AxisSel) : (clearReply k sel s).received = s.received :=
  received_of_standing (by simp)

@[simp] theorem received_framAsk (p : Nat) (op : FramOp) (n : Nat) : (framAsk p op n s).received = s.received := by
  rw [framAsk_only]; rfl

@[simp] theorem received_releaseHold : (releaseHold s).received = s.received := by rw [releaseHold_only]; rfl

@[simp] theorem received_bumpKind (k : Nat) (axes : BitVec 2) : (bumpKind k axes s).received = s.received := by
  rw [bumpKind_only]; rfl

@[simp] theorem received_releaseHeld : (releaseHeld s).received = s.received :=
  received_forAll s (by simp) _

/-! ### The stop of an axis (R294, R397) -/

@[simp] theorem received_endAxisWait (x : Axis) (p : AxCmd → Bool) (t : Text) : (endAxisWait x p t s).received = s.received :=
  received_forAll s (by simp) _

@[simp] theorem received_ungroup (x : Axis) : (ungroup x s).received = s.received := by
  unfold ungroup
  split
  · rfl
  · simp [grpFail]

@[simp] theorem received_leaveMotion (x : Axis) (r : MotResult) : (leaveMotion x r s).received = s.received := by
  simp [leaveMotion, endMotion]

@[simp] theorem received_endCal (x : Axis) (t : Text) : (endCal x t s).received = s.received := by
  have h := received_forAll (f := fun (k : Call × Wait) s => answer k.1 t s) s (by simp)
  simp [endCal, h]

@[simp] theorem received_stopAxis (x : Axis) (c : BitVec 4) : (stopAxis x c s).received = s.received := by
  simp [stopAxis]

@[simp] theorem received_haltBoth (c : BitVec 4) : (haltBoth c s).received = s.received := by
  simp [haltBoth]

@[simp] theorem received_noteRelease : (noteRelease s).received = s.received :=
  received_forAll s (by simp) _

/-! ### Faults that Aster latches (R22, R25, R301) -/

@[simp] theorem received_fltSync : (fltSync s).received = s.received := rfl

@[simp] theorem received_asterFlt : (asterFlt s).received = s.received := rfl

@[simp] theorem received_refuseClears (m : BitVec 2) : (refuseClears m s).received = s.received := by
  unfold refuseClears
  refine (received_modLink (fun _ => rfl) _).trans ?_
  exact received_forAll s (by simp) _

@[simp] theorem received_latchFault (f : AFault) : (latchFault f s).received = s.received := by
  simp only [latchFault, received_faultNotice, received_refuseClears, received_closeWindows]
  rfl

@[simp] theorem received_oneFault (k : Nat) (axes : BitVec 2) (a b i : Nat) : (oneFault k axes a b i s).received = s.received := by
  simp [oneFault]

@[simp] theorem received_heldFaults : (heldFaults s).received = s.received := by
  refine received_forAll s (fun x u => ?_) _
  split
  · simp
  · rfl

@[simp] theorem received_stopBoth (c : BitVec 4) : (stopBoth c s).received = s.received := by
  simp [stopBoth]

/-! ### A record of Peony (R67, R223) -/

@[simp] theorem received_noteHeld (k : Nat) (axes : BitVec 2) (t : W32) : (noteHeld k axes t s).received = s.received := by
  have hrests : (s.modLink fun l => { l with rests := l.rests ||| axes }).received = s.received := received_modLink (fun _ => rfl) s
  have hstart := fun b u => received_forAll (f := fun x s => when_ (hasAxis axes x) (fun s => s.modLoop x fun l =>
    { l with relAt := l.relAt.map fun _ => b }) s) u (by simp)
  simp [noteHeld, hrests, hstart]

@[simp] theorem received_recordEffect (k : Nat) (axes : BitVec 2) (mask : Byte) (t : W32) :
    (recordEffect k axes mask t s).received = s.received := by
  simp [recordEffect]

@[simp] theorem received_mergeRecord (d c m : Byte) (t : W32) : (mergeRecord d c m t s).received = s.received := by
  unfold mergeRecord
  dsimp only
  split
  · rfl
  · split
    · rfl
    · simp [logMerged]

/-! ### A diagnosis that ends (R303, R306) -/

@[simp] theorem received_clearEntries (m : BitVec 2) (t : W32) (gone : List AFault) : (clearEntries m t gone s).received = s.received :=
  received_of_standing (standing_clearEntries ..)

@[simp] theorem received_clearAxis (m : BitVec 2) (gone late : List AFault) (x : Axis) :
    (clearAxis m gone late x s).received = s.received := by
  simp [clearAxis]

@[simp] theorem received_clearDrivers (left : List AFault) : (clearDrivers left s).received = s.received := by
  unfold clearDrivers
  split <;> rfl

@[simp] theorem received_clearAxes (m : BitVec 2) (t : W32) : (clearAxes m t s).received = s.received := by
  rw [clearAxes_eq]
  dsimp only
  rw [received_fltSync, received_clearDrivers, received_closeWindows]
  refine (received_modLink (fun _ => rfl) _).trans ((received_forAll _ (by simp) _).trans ?_)
  rw [received_clearEntries]
  rfl

@[simp] theorem received_clearGo (k : Call) (sel : AxisSel) : (clearGo k sel s).received = s.received := by
  unfold clearGo
  dsimp only
  split
  · simp
  · split
    · exact (received_waitFor _ _ _).trans (received_modLink (fun _ => rfl) s)
    · rw [received_clearReply, received_clearAxes]; rfl

@[simp] theorem received_clearDiagDone : (clearDiagDone s).received = s.received := by
  refine received_forAll s (fun k u => ?_) _
  split
  · simp
  · rfl

@[simp] theorem received_diagArrived (x : Axis) (w : W16) : (diagArrived x w s).received = s.received := by
  refine (received_clearDiagDone _).trans ?_
  exact received_forAll _ (by simp [okValue]) _

@[simp] theorem received_takeTel (n : Nat) (v : W16) : (takeTel n v s).received = s.received := by
  have htel : (s.modLink fun l => { l with tel := l.tel.set n (some v) }).received = s.received := received_modLink (fun _ => rfl) s
  simp [takeTel, htel]

/-! ### The blocks that BACK covers (R102) -/

@[simp] theorem received_armReady : (armReady s).received = s.received := by
  unfold armReady
  split
  · rfl
  · split <;> rfl

@[simp] theorem received_commitBack : (commitBack s).received = s.received := by
  unfold commitBack
  split
  · rfl
  · split
    · rfl
    · exact received_armReady _

@[simp] theorem received_modTs (n : Nat) (f : Sensor → Sensor) : (modTs n f s).received = s.received := rfl

@[simp] theorem received_raiseUpTo (t : W32) : (raiseUpTo t s).received = s.received := rfl

/-! ### A commit that ends (Table 6-4) -/

@[simp] theorem received_leaveRecord : (leaveRecord s).received = s.received := by
  unfold leaveRecord; split <;> rfl

@[simp] theorem received_syncBias : (syncBias s).received = s.received := rfl

@[simp] theorem received_syncClk : (syncClk s).received = s.received := rfl

@[simp] theorem received_commitReply (c : Commit) (t : Text) : (commitReply c t s).received = s.received :=
  received_forAll s (by simp) _

theorem received_unlearn (l : List Axis) : (forAll l (fun y s => s.modMot y fun m => { m with learn := none }) s).received = s.received :=
  received_forAll s (by simp) l

@[simp] theorem received_abortCommit (code : Nat) : (abortCommit code s).received = s.received := by
  have habort : ∀ u : State, (u.modLink fun l => { l with abort := true }).received = u.received := received_modLink fun _ => rfl
  unfold abortCommit
  dsimp only
  split
  · simp
  · rw [received_commitReply]
    split <;> simp [received_unlearn, habort]

/-! ### A commit in force (R194, R199) -/

@[simp] theorem received_posInvalid (x : Axis) : (posInvalid x s).received = s.received := rfl
@[simp] theorem received_newWindow (x : Axis) : (newWindow x s).received = s.received := rfl
@[simp] theorem received_closeWindow (w clocks : Nat) (x : Axis) : (closeWindow w clocks x s).received = s.received := rfl
@[simp] theorem received_armLatch (x : Axis) (n : Nat) : (armLatch x n s).received = s.received := rfl
@[simp] theorem received_stickySet (m : BitVec 6) : (stickySet m s).received = s.received := rfl
@[simp] theorem received_useCopy (x : Axis) (p : Nat) : (useCopy x p s).received = s.received := rfl

@[simp] theorem received_posLoadAxis (x : Axis) : (posLoadAxis x s).received = s.received := by
  simp [posLoadAxis, motAbort, posLoad, reframe]

@[simp] theorem received_applyAxis (x : Axis) (old : PSet) (ents : Store) : (applyAxis x old ents s).received = s.received := by
  unfold applyAxis
  dsimp only
  split <;> split <;> simp

@[simp] theorem received_countCuts (ents : Store) : (countCuts ents s).received = s.received :=
  received_forAll s (by simp) _

@[simp] theorem received_pinRelease (n : Nat) : (pinRelease n s).received = s.received := by
  simp [pinRelease, pinsReleased]

@[simp] theorem received_chgGo (st : ChgState) (r : ChgReason) : (chgGo st r s).received = s.received := by
  simp [chgGo]

@[simp] theorem received_chgPause : (chgPause s).received = s.received := by
  unfold chgPause
  dsimp only
  split <;> simp

@[simp] theorem received_qualify : (qualify s).received = s.received := by
  unfold qualify
  split
  · rfl
  · simp [chgEnter]

@[simp] theorem received_requalify : (requalify s).received = s.received := by
  simp [requalify]

@[simp] theorem received_applyEntries (ents : Store) : (applyEntries ents s).received = s.received := by
  have haxes := fun old u => received_forAll (f := fun x s => applyAxis x old ents s) u (by simp) axes2
  have hcopies := fun u => received_forAll (f := fun (q : Axis × Nat) s => useCopy q.1 q.2 s) u (by simp)
  unfold applyEntries
  dsimp only
  split <;> split <;> simp [haxes, hcopies, chgChanged, chgRetry]

@[simp] theorem received_txWrite (ents : Store) : (txWrite ents s).received = s.received :=
  received_forAll s (by simp [txPut]) _

@[simp] theorem received_finishCommit : (finishCommit s).received = s.received := by
  unfold finishCommit
  split
  · rfl
  · split
    · rfl
    · rw [received_commitReply]
      split <;> simp [received_unlearn]

@[simp] theorem received_markDone : (markDone s).received = s.received := by
  unfold markDone
  split <;> simp

@[simp] theorem received_applyCommit (t : W32) : (applyCommit t s).received = s.received := by
  unfold applyCommit
  split
  · rfl
  · split
    · rfl
    · simp

@[simp] theorem received_commitSetp (setp trained : Bool) : (commitSetp setp trained s).received = s.received := by
  unfold commitSetp
  split
  · rfl
  · split
    · rfl
    · split <;> simp

end

/-! ### What Aster takes from a UT and a UC (R65-R68) -/

/-- The link after a UT has been taken, before what follows from it. -/
def utArrived (bs : List Byte) (now : W48) (a : Arrived) : Arrived :=
  { a with gotUt := true, utSeq := (nth bs 1 0).extractLsb' 0 4, utAt := now, aux := unpack12 ((bs.drop 3).take 12), bst := nth bs 26 0 }

theorem received_takeUt (bs : List Byte) (s : State) : (takeUt bs s).received = (s.pe, utArrived bs s.etime s.link.arrived) := by
  unfold takeUt
  dsimp only
  rw [received_commitBack, received_releaseHold, received_raiseUpTo]
  split
  · rw [received_mergeRecord, received_takeTel, received_ite, received_modTs, ite_self]
    rfl
  · rw [received_takeTel, received_ite, received_modTs, ite_self]
    rfl

/-- The link after a UC has been taken, before what follows from it. -/
def ucArrived (bs : List Byte) (a : Arrived) : Arrived :=
  { a with gotUc := true, ucSeq := (nth bs 1 0).extractLsb' 0 4, conv := unpack12 ((bs.drop 3).take 24), cmps := nth bs 27 0,
           setp := (nth bs 27 0).getLsbD 7 }

theorem received_takeUc (bs : List Byte) (s : State) : (takeUc bs s).received = (s.pe, ucArrived bs s.link.arrived) := by
  unfold takeUc
  dsimp only
  rw [received_commitSetp]
  rfl

end Sys2Proof.Machine
end

section
/-! SUPPORT. A UT and a UC from Peony to Aster (R62-R68, R72, R73, R91): their bytes, Aster's judgement, and what arrives. -/

namespace Sys2Proof.Machine

/-! ### Packed results (R65) -/

theorem length_pack12 : ∀ l : List (BitVec 12), (pack12 l).length = 3 * (l.length / 2)
  | [] => rfl
  | [_] => by simp [pack12]
  | a :: b :: r => by
    have ih := length_pack12 r
    simp only [pack12, List.length_cons, ih]
    omega

theorem unpack12_pair (a b : BitVec 12) (r : List Byte) :
    unpack12 (a.extractLsb' 0 8 :: (b.extractLsb' 0 4 ++ a.extractLsb' 8 4) :: b.extractLsb' 4 8 :: r) = a :: b :: unpack12 r := by
  have ha : (b.extractLsb' 0 4 ++ a.extractLsb' 8 4).extractLsb' 0 4 ++ a.extractLsb' 0 8 = a := by
    ext i hi
    simp
    grind
  have hb : b.extractLsb' 4 8 ++ (b.extractLsb' 0 4 ++ a.extractLsb' 8 4).extractLsb' 4 4 = b := by
    ext i hi
    simp
    grind
  rw [unpack12, ha, hb]

/-- An even number of results arrive as they were packed. -/
theorem unpack12_pack12 : ∀ l : List (BitVec 12), l.length % 2 = 0 → unpack12 (pack12 l) = l
  | [], _ => rfl
  | [_], h => absurd h (by simp)
  | a :: b :: r, h => by
    rw [pack12, unpack12_pair, unpack12_pack12 r (by simp only [List.length_cons] at h; omega)]

/-! ### The bytes of a UT and a UC (Tables 3-3, 3-6) -/

theorem nth_append {α : Type} {l r : List α} {n : Nat} (h : l.length = n) (i : Nat) (d : α) : nth (l ++ r) (n + i) d = nth r i d := by
  subst h
  simp only [nth, List.getD_eq_getElem?_getD, List.getElem?_append_right (Nat.le_add_right _ _), Nat.add_sub_cancel_left]

/-- The bytes of a UT from the temperature count to the item of the rotation. -/
def utItems (p : Peony) : List Byte :=
  let n := p.tick.toNat
  BitVec.ofNat 8 (n % 6) :: leBytes 2 (nth p.an.ts (n % 6) 0).toNat ++ (BitVec.ofNat 8 (n % 8) :: leBytes 2 (telItem p (n % 8)).toNat)

/-- The bytes of a UT after its AUX results. -/
def utTail (p : Peony) : List Byte := utItems p ++ (frecBytes p ++ [BitVec.ofNat 8 (p.back.getD 0), bstByte p, 0])

theorem utBody_eq (p : Peony) (q : BitVec 4) :
    utBody p q = headerByte 1 q :: (p.tick.extractLsb' 0 8 :: (pack12 p.an.aux ++ utTail p)) := by
  simp [utBody, utTail, utItems]

theorem length_frecBytes (p : Peony) : (frecBytes p).length = 4 := by
  unfold frecBytes
  split <;> rfl

theorem length_utTail (p : Peony) : (utTail p).length = 13 := by
  simp [utTail, utItems, length_frecBytes]

theorem nth_utTail_bst (p : Peony) (l : List Byte) : nth (utTail p ++ l) 11 0 = bstByte p := by
  rw [utTail, List.append_assoc]
  refine (nth_append (n := 6) (i := 5) (by simp [utItems]) 0).trans ?_
  rw [List.append_assoc]
  exact nth_append (n := 4) (i := 1) (length_frecBytes p) 0

/-- What a UT brings: its sequence number, the AUX results and BST as Peony holds them. -/
theorem utArrived_segment {p : Peony} (haux : p.an.aux.length = 8) (q : BitVec 4) (now : W48) (a : Arrived) :
    utArrived (segment (utBody p q)) now a = { a with gotUt := true, utSeq := q, utAt := now, aux := p.an.aux, bst := bstByte p } := by
  have hlen : (pack12 p.an.aux).length = 12 := by rw [length_pack12, haux]
  have hresults : (((segment (utBody p q)).drop 3).take 12) = pack12 p.an.aux := by
    rw [utBody_eq, segment]
    show ((pack12 p.an.aux ++ utTail p) ++ crcBytes _).take 12 = _
    rw [List.append_assoc]
    exact List.take_left' hlen
  have hbst : nth (segment (utBody p q)) 26 0 = bstByte p := by
    rw [utBody_eq, segment]
    show nth ((pack12 p.an.aux ++ utTail p) ++ crcBytes _) 23 0 = _
    rw [List.append_assoc]
    exact (nth_append (i := 11) hlen 0).trans (nth_utTail_bst p _)
  have hseq : (nth (segment (utBody p q)) 1 0).extractLsb' 0 4 = q := headerByte_seq 1 q
  simp only [utArrived, hresults, hbst, hseq, unpack12_pack12 _ (by rw [haux])]

theorem ucBody_eq (p : Peony) (q : BitVec 4) :
    ucBody p q = headerByte 2 q :: (p.tick.extractLsb' 0 8 :: (pack12 p.an.conv ++ [cmpsByte p])) := rfl

theorem cmpsByte_setp (p : Peony) : (cmpsByte p).getLsbD 7 = p.setp := by
  rw [cmpsByte, BitVec.getLsbD_append]
  cases p.setp <;> rfl

/-- What a UC brings: its sequence number, the centre results, CMPS and SETP as Peony holds them. -/
theorem ucArrived_segment {p : Peony} (hconv : p.an.conv.length = 16) (q : BitVec 4) (a : Arrived) :
    ucArrived (segment (ucBody p q)) a = { a with gotUc := true, ucSeq := q, conv := p.an.conv, cmps := cmpsByte p, setp := p.setp } := by
  have hlen : (pack12 p.an.conv).length = 24 := by rw [length_pack12, hconv]
  have hresults : (((segment (ucBody p q)).drop 3).take 24) = pack12 p.an.conv := by
    rw [ucBody_eq, segment]
    show ((pack12 p.an.conv ++ [cmpsByte p]) ++ crcBytes _).take 24 = _
    rw [List.append_assoc]
    exact List.take_left' hlen
  have hcmps : nth (segment (ucBody p q)) 27 0 = cmpsByte p := by
    rw [ucBody_eq, segment]
    show nth ((pack12 p.an.conv ++ [cmpsByte p]) ++ crcBytes _) 24 0 = _
    rw [List.append_assoc]
    exact nth_append (i := 0) hlen 0
  have hseq : (nth (segment (ucBody p q)) 1 0).extractLsb' 0 4 = q := headerByte_seq 2 q
  simp only [ucArrived, hresults, hcmps, hseq, cmpsByte_setp, unpack12_pack12 _ (by rw [hconv])]

/-! ### Aster's judgement (R72, R73) -/

theorem judge_pe {take : List Byte → State → State} (h : ∀ bs s, (take bs s).pe = s.pe) (kind : Nat) (last : BitVec 4) (bs : List Byte)
    (s : State) : (judge kind last take bs s).2.pe = s.pe := by
  unfold judge judgeSeq
  split
  · dsimp only
    split
    · rfl
    · split
      · rfl
      · dsimp only
        rw [h]
        split <;> rfl
  · rfl

theorem judge_next {take : List Byte → State → State} {kind : Nat} (hkind : kind < 16) {last q : BitVec 4} (hq : q = last + 1)
    {r : List Byte} (hlen : r.length = 26) (s : State) :
    judge kind last take (segment (headerByte kind q :: r)) s = (ackByte, take (segment (headerByte kind q :: r)) s) := by
  rw [judge, if_pos (segmentOk_segment hkind q (by rw [hlen])), judgeSeq_next hq]

theorem pe_takeUt (bs : List Byte) (s : State) : (takeUt bs s).pe = s.pe := congrArg Prod.fst (received_takeUt bs s)

theorem arrived_takeUt (bs : List Byte) (s : State) : (takeUt bs s).link.arrived = utArrived bs s.etime s.link.arrived :=
  congrArg Prod.snd (received_takeUt bs s)

theorem arrived_takeUc (bs : List Byte) (s : State) : (takeUc bs s).link.arrived = ucArrived bs s.link.arrived :=
  congrArg Prod.snd (received_takeUc bs s)

theorem pe_takeUc (bs : List Byte) (s : State) : (takeUc bs s).pe = s.pe := congrArg Prod.fst (received_takeUc bs s)

/-- What Aster answers to a segment on the lanes, and its state after it: the steps of `upSend` before its token goes out. -/
def upVerdict (kind : Nat) (last : BitVec 4) (take : List Byte → State → State) (fails : Bool) (bs noise : List Byte) (s : State) :
    Byte × State :=
  if fails then (nakByte, s) else judge kind last take (onLane bs noise) s

theorem upSend_eq (kind : Nat) (last : BitVec 4) (take : List Byte → State → State) (fails : Bool) (bs noise : List Byte)
    (put : Byte → Peony → Peony) (s : State) : upSend kind last take fails bs noise put s =
      (upVerdict kind last take fails bs noise s).2.modPe (put (upVerdict kind last take fails bs noise s).1) := rfl

theorem upVerdict_pe {take : List Byte → State → State} (h : ∀ bs s, (take bs s).pe = s.pe) (kind : Nat) (last : BitVec 4) (fails : Bool)
    (bs noise : List Byte) (s : State) : (upVerdict kind last take fails bs noise s).2.pe = s.pe := by
  unfold upVerdict
  split
  · rfl
  · exact judge_pe h kind last _ s

/-- A segment with the next sequence number over quiet lanes, of a tick that the dies began with one period: it is acknowledged and
taken. -/
theorem upVerdict_next {take : List Byte → State → State} {kind : Nat} (hkind : kind < 16) {last q : BitVec 4} (hq : q = last + 1)
    {r : List Byte} (hlen : r.length = 26) (s : State) :
    upVerdict kind last take false (segment (headerByte kind q :: r)) [] s =
      (ackByte, take (segment (headerByte kind q :: r)) s) := by
  rw [upVerdict, if_neg Bool.false_ne_true, onLane_quiet, judge_next hkind hq hlen]

/-! ### The rows UT_SEGMENT and UC_SEGMENT -/

section
variable {s : State}

/-- The UT of a tick, as Peony sends it. -/
def State.utBytes (s : State) : List Byte := segment (utBody s.pe (s.pe.utSeq + 1))

/-- Aster's answer to the UT of a tick, and its state after it. -/
def State.utVerdict (s : State) (noise : List Byte) : Byte × State :=
  upVerdict 1 s.link.utSeq takeUt false s.utBytes noise (s.modPe fun p => { p with utSeq := p.utSeq + 1 })

theorem utVerdict_pe (noise : List Byte) : (s.utVerdict noise).2.pe = { s.pe with utSeq := s.pe.utSeq + 1 } :=
  upVerdict_pe pe_takeUt ..

/-- The first UT of a tick: Peony waits for its verdict, and Aster holds what it has taken of it. -/
theorem utSegment_first (hlive : s.pe.live = true) (hticking : s.ticking = true) (hidle : s.pe.ut = .idle) (noise : List Byte) :
    ∃ t, exec (.utSegment noise) s = .next t ∧
      t.received = ({ s.pe with utSeq := s.pe.utSeq + 1, ut := .out s.utBytes (s.utVerdict noise).1 }, (s.utVerdict noise).2.link.arrived) := by
  have hon : (!(s.pe.live && s.ticking)) = false := by rw [hlive, hticking]; rfl
  refine ⟨(((s.utVerdict noise).2.modPe fun p => { p with ut := .out s.utBytes (s.utVerdict noise).1 }).modLink fun l =>
    { l with utBad := l.utBad || (s.utVerdict noise).1 != ackByte }), ?_, ?_⟩
  · show execUtSegment noise s = _
    simp only [execUtSegment, hon, Bool.false_eq_true, if_false, hidle, upSend_eq]
    rfl
  · refine (received_modLink (fun _ => rfl) _).trans ?_
    rw [State.received, State.modPe_pe, utVerdict_pe]
    rfl

/-- Over quiet lanes the UT arrives as Peony sent it (R65, R66). -/
theorem utVerdict_quiet (haux : s.pe.an.aux.length = 8) (hseq : s.link.utSeq = s.pe.utSeq) :
    (s.utVerdict []).1 = ackByte ∧ (s.utVerdict []).2.link.arrived = { s.link.arrived with
      gotUt := true, utSeq := s.pe.utSeq + 1, utAt := s.etime, aux := s.pe.an.aux, bst := bstByte s.pe } := by
  have hlen : (s.pe.tick.extractLsb' 0 8 :: (pack12 s.pe.an.aux ++ utTail s.pe)).length = 26 := by
    simp [length_pack12, haux, length_utTail]
  have hjudge : s.utVerdict [] = (ackByte, takeUt s.utBytes (s.modPe fun p => { p with utSeq := p.utSeq + 1 })) := by
    rw [State.utVerdict, State.utBytes, utBody_eq]
    exact upVerdict_next (by decide) (by rw [hseq]) hlen _
  rw [hjudge]
  refine ⟨rfl, ?_⟩
  rw [arrived_takeUt, State.utBytes, utArrived_segment haux]
  rfl

/-- The UC of a tick, as Peony sends it. -/
def State.ucBytes (s : State) : List Byte := segment (ucBody s.pe (s.pe.ucSeq + 1))

/-- Aster's answer to the UC of a tick, and its state after it. One of a tick that the dies began with different periods fails (R91). -/
def State.ucVerdict (s : State) (noise : List Byte) : Byte × State :=
  upVerdict 2 s.link.ucSeq takeUc (s.pe.baseP != s.tickP) s.ucBytes noise (s.modPe fun p => { p with ucSeq := p.ucSeq + 1 })

/-- The first UC of a tick. -/
theorem ucSegment_first (hlive : s.pe.live = true) (hticking : s.ticking = true) (hidle : s.pe.uc = .idle) (noise : List Byte) :
    exec (.ucSegment noise) s =
      .next ((s.ucVerdict noise).2.modPe fun p => { p with uc := .out s.ucBytes (s.ucVerdict noise).1 }) := by
  have hon : (!(s.pe.live && s.ticking)) = false := by rw [hlive, hticking]; rfl
  show execUcSegment noise s = _
  simp only [execUcSegment, hon, Bool.false_eq_true, if_false, hidle, upSend_eq]
  rfl

theorem ucVerdict_pe (noise : List Byte) : (s.ucVerdict noise).2.pe = { s.pe with ucSeq := s.pe.ucSeq + 1 } :=
  upVerdict_pe pe_takeUc ..

/-- Over quiet lanes the UC of a tick of one period arrives as Peony sent it (R68). -/
theorem ucVerdict_quiet (hconv : s.pe.an.conv.length = 16) (hseq : s.link.ucSeq = s.pe.ucSeq) (hperiod : s.pe.baseP = s.tickP) :
    (s.ucVerdict []).1 = ackByte ∧ (s.ucVerdict []).2.link.arrived = { s.link.arrived with
      gotUc := true, ucSeq := s.pe.ucSeq + 1, conv := s.pe.an.conv, cmps := cmpsByte s.pe, setp := s.pe.setp } := by
  have hlen : (s.pe.tick.extractLsb' 0 8 :: (pack12 s.pe.an.conv ++ [cmpsByte s.pe])).length = 26 := by
    simp [length_pack12, hconv]
  have hsame : (s.pe.baseP != s.tickP) = false := by simp [hperiod]
  have hjudge : s.ucVerdict [] = (ackByte, takeUc s.ucBytes (s.modPe fun p => { p with ucSeq := p.ucSeq + 1 })) := by
    rw [State.ucVerdict, State.ucBytes, ucBody_eq, hsame]
    exact upVerdict_next (by decide) (by rw [hseq]) hlen _
  rw [hjudge]
  refine ⟨rfl, ?_⟩
  rw [arrived_takeUc, State.ucBytes, ucArrived_segment hconv]
  rfl

/-- A UC of a tick that the dies began with different periods is refused and brings nothing (R91). -/
theorem ucVerdict_fails (hperiod : s.pe.baseP ≠ s.tickP) (noise : List Byte) :
    s.ucVerdict noise = (nakByte, s.modPe fun p => { p with ucSeq := p.ucSeq + 1 }) :=
  if_pos (by simpa using hperiod)

end

/-- Settles O26: Peony sends once with the next sequence number, and Aster's judgement decides what arrives. -/
theorem segmentsArrive : Obligations.SegmentsArrive := by
  unfold Obligations.SegmentsArrive
  intro s hlive hticking
  refine ⟨fun hidle haux noise => ?_, fun hidle hconv noise => ?_⟩
  · obtain ⟨t, hrun, hreceived⟩ := utSegment_first hlive hticking hidle noise
    obtain ⟨hpe, hlink⟩ := Prod.mk.inj hreceived
    refine ⟨t, (s.utVerdict noise).1, hrun, hpe, ?_⟩
    rintro rfl hseq
    obtain ⟨hack, harrived⟩ := utVerdict_quiet haux hseq
    have h := hlink.trans harrived
    exact ⟨hack, congrArg Arrived.gotUt h, congrArg Arrived.utSeq h, congrArg Arrived.utAt h, congrArg Arrived.aux h,
      congrArg Arrived.bst h⟩
  · refine ⟨_, (s.ucVerdict noise).1, ucSegment_first hlive hticking hidle noise, ?_, ?_, fun hperiod => ?_⟩
    · rw [State.modPe_pe, ucVerdict_pe]
      rfl
    · rintro rfl hseq hperiod
      obtain ⟨hack, h⟩ := ucVerdict_quiet hconv hseq hperiod
      exact ⟨hack, congrArg Arrived.gotUc h, congrArg Arrived.ucSeq h, congrArg Arrived.conv h, congrArg Arrived.cmps h,
        congrArg Arrived.setp h⟩
    · rw [ucVerdict_fails hperiod]
      exact ⟨rfl, rfl⟩

end Sys2Proof.Machine
end

section
/-! SUPPORT. Lines that change one setting of their session (R132, R133, R137, R153, R157). -/

namespace Sys2Proof.Machine

open Sys2Proof.Safety

/-! ### The settings of a session -/

/-- What the lines `mode`, `echo`, `sub`, `unsub` and `auto` set in their session. -/
structure Settings where
  machine : Bool
  echo : Bool
  auto : Bool
  subs : BitVec 5

/-- The settings of a session. -/
def Session.settings (se : Session) : Settings := { machine := se.machine, echo := se.echo, auto := se.auto, subs := se.subs }

/-- A session with other settings. -/
def Session.withSettings (se : Session) (q : Settings) : Session :=
  { se with machine := q.machine, echo := q.echo, auto := q.auto, subs := q.subs }

/-- A session whose settings have changed. -/
def Session.resets (g : Settings → Settings) (se : Session) : Session := se.withSettings (g se.settings)

/-- What a line does to its session beside its own effect, it does with any settings. -/
theorem lineOnly_resets (g : Settings → Settings) {a b : Session} (h : LineOnly a b) : LineOnly (a.resets g) (b.resets g) := by
  unfold LineOnly at *
  rw [h]
  rfl

/-- Beside one change of its own session, what follows in it leaves everything else. -/
theorem onlySession_modSes {x : Sess} {s t : State} (h : OnlySession x s t) (f : Session → Session) :
    OnlySession x s (t.modSes x f) :=
  onlySession_trans h (modSes_only x f t)

/-! ### Lines that answer at once -/

section
variable {x : Sess} {s : State} (h : Ready x s) (w : String)
include h

/-- A line that sets settings of its session answers `ok` under the framing that the session had (R132). -/
theorem direct_sets (g : Settings → Settings) {f : Call → State → State}
    (hf : ∀ k : Call, k.x = x → f k (lineHeard x s) = okThen k (Session.resets g) (lineHeard x s)) :
    ∃ t, direct x w f s = .next t ∧ Answered x (txt "ok") ((s.ses x).resets g) s t := by
  obtain ⟨l, hframe, henter, hrun⟩ := direct_ready h w f
  obtain ⟨hrunning, hlast, hline, honly⟩ := answered_of (txt w) h hframe henter (txt "ok")
  refine ⟨_, hrun, ?_⟩
  rw [hf _ rfl, okThen]
  refine ⟨?_, ?_, ?_, onlySession_modSes honly _⟩
  · rw [State.ses_modSes]; exact hrunning
  · rw [State.ses_modSes]; exact hlast
  · rw [State.ses_modSes]; exact lineOnly_resets g hline

/-- A line that is refused for what no violation records changes nothing (R168). -/
theorem direct_fails {c : Nat} (hc : c < 20 ∨ 23 < c) {f : Call → State → State}
    (hf : ∀ k : Call, k.x = x → f k (lineHeard x s) = fail k c (lineHeard x s)) :
    ∃ t, direct x w f s = .next t ∧ Answered x (errText c none) (s.ses x) s t := by
  obtain ⟨l, hframe, henter, hrun⟩ := direct_ready h w f
  refine ⟨_, hrun, ?_⟩
  rw [hf _ rfl, fail, if_neg (by omega)]
  exact answered_of (txt w) h hframe henter _

end

/-! ### The lines -/

theorem cmdModeTyped_h {k : Call} (h : k.x = .h) (s : State) :
    cmdModeTyped k s = okThen k (Session.resets fun q => { q with machine := false }) s :=
  if_neg (by simp [h])

theorem cmdModeTyped_tunnel {k : Call} (h : k.x ≠ .h) (s : State) : cmdModeTyped k s = fail k 30 s :=
  if_pos (bne_iff_ne.2 h)

theorem cmdEcho_h (on : Bool) {k : Call} (h : k.x = .h) (s : State) :
    cmdEcho on k s = okThen k (Session.resets fun q => { q with echo := on }) s :=
  if_neg (by simp [h])

theorem cmdEcho_tunnel (on : Bool) {k : Call} (h : k.x ≠ .h) (s : State) : cmdEcho on k s = fail k 30 s :=
  if_pos (bne_iff_ne.2 h)

/-- `sub` and `unsub` of known classes change the subscriptions by their mask (R157). -/
theorem cmdSubs_known (add : Bool) {cs : List Text} {m : BitVec 5} (hne : cs ≠ []) (hm : classMask cs = some m) (k : Call) (s : State) :
    cmdSubs add cs k s =
      okThen k (Session.resets fun q => { q with subs := if add then q.subs ||| m else q.subs &&& ~~~m }) s := by
  simp only [cmdSubs, hm, List.isEmpty_iff, hne, if_false]
  rfl

/-- Settles O2: each line is one change of the settings of its session after its `ok`, or `err 30`. -/
theorem sessionSettingsAct : Obligations.SessionSettingsAct := by
  unfold Obligations.SessionSettingsAct
  intro x s hready
  refine ⟨?typed, ?typedTunnel, ?machine, ?echo, ?echoTunnel, ?sub, ?unsub, ?auto⟩
  case typed =>
    intro hx
    exact direct_sets hready "mode" (fun q => { q with machine := false }) fun k hk => cmdModeTyped_h (hk.trans hx) _
  case typedTunnel =>
    intro hx
    exact direct_fails hready "mode" (by decide) fun k hk => cmdModeTyped_tunnel (hk ▸ hx) _
  case machine => exact direct_sets hready "mode" (fun q => { q with machine := true }) fun _ _ => rfl
  case echo =>
    intro on hx
    exact direct_sets hready "echo" (fun q => { q with echo := on }) fun k hk => cmdEcho_h on (hk.trans hx) _
  case echoTunnel =>
    intro on hx
    exact direct_fails hready "echo" (by decide) fun k hk => cmdEcho_tunnel on (hk ▸ hx) _
  case sub =>
    intro cs m hne hm
    exact direct_sets hready "sub" (fun q => { q with subs := q.subs ||| m }) fun k _ => cmdSubs_known true hne hm k _
  case unsub =>
    intro cs m hne hm
    exact direct_sets hready "unsub" (fun q => { q with subs := q.subs &&& ~~~m }) fun k _ => cmdSubs_known false hne hm k _
  case auto => exact fun on => direct_sets hready "auto" (fun q => { q with auto := on }) fun _ _ => rfl

end Sys2Proof.Machine
end

section
/-! SUPPORT. What a `get` reads (R150, R183, R184, R340, R534, R731): the receipt of its line changes no reading, and stands apart from the
snapshot that it takes. -/

namespace Sys2Proof.Machine

open Sys2Proof.Safety

/-! ### Readings and the receipt of a line -/

section
variable (y : Sess) (s : State)

/-- The receipt of a line changes the time of a line and nothing else in any session. -/
theorem ses_lineHeard (x : Sess) : (lineHeard y s).ses x = { s.ses x with lineAt := ((lineHeard y s).ses x).lineAt } := by
  by_cases h : x = y
  · subst h
    rw [lineHeard, State.ses_modSes]
  · rw [lineHeard, State.ses_modSes_other _ _ h]

theorem latSeen_lineHeard (x : Sess) (ax : Axis) (n : Nat) : latSeen (lineHeard y s) x ax n = latSeen s x ax n := by
  unfold latSeen
  rw [ses_lineHeard]
  rfl

theorem recsSeen_lineHeard (x : Sess) (ax : Axis) : recsSeen (lineHeard y s) x ax = recsSeen s x ax := by
  unfold recsSeen
  rw [ses_lineHeard]
  rfl

theorem rxField_lineHeard (x : Sess) (k o : Nat) : rxField (lineHeard y s) x k o = rxField s x k o := by
  unfold rxField
  rw [ses_lineHeard]
  rfl

theorem sessStatus_lineHeard (x : Sess) (o : Nat) : sessStatus ((lineHeard y s).ses x) o = sessStatus (s.ses x) o := by
  rw [ses_lineHeard]
  rfl

theorem level_lineHeard (x : Sess) : ((lineHeard y s).ses x).level = (s.ses x).level := by
  rw [ses_lineHeard]

theorem axisStatus_lineHeard (x : Sess) (ax : Axis) (o : Nat) : axisStatus (lineHeard y s) x ax o = axisStatus s x ax o := by
  unfold axisStatus
  rw [latSeen_lineHeard, latSeen_lineHeard, recsSeen_lineHeard]
  rfl

theorem statStatus_lineHeard (id : Nat) : statStatus (lineHeard y s) id = statStatus s id := by
  unfold statStatus
  rw [sessStatus_lineHeard]
  rfl

theorem statusValue_lineHeard (x : Sess) (id : Nat) : statusValue (lineHeard y s) x id = statusValue s x id := by
  unfold statusValue
  rw [axisStatus_lineHeard, rxField_lineHeard, statStatus_lineHeard, level_lineHeard]
  rfl

/-- No reading tells when a line has been received. -/
theorem getValue_lineHeard (x : Sess) (p : Par) (e : Bool) : getValue (lineHeard y s) x p e = getValue s x p e := by
  unfold getValue
  rw [statusValue_lineHeard]
  rfl

end

/-! ### Snapshots -/

section
variable (x : Sess) (s : State)

/-- The snapshot of a read and the receipt of its line do not depend on one another. -/
theorem readSnapshot_lineHeard (id : Nat) : readSnapshot x id (lineHeard x s) = lineHeard x (readSnapshot x id s) := by
  have hrx : ∀ k, rxSnapshot x k (lineHeard x s) = lineHeard x (rxSnapshot x k s) := by
    intro k
    have hbus : (lineHeard x s).bus = s.bus := rfl
    unfold rxSnapshot
    rw [hbus]
    split
    · cases x <;> rfl
    · rfl
  unfold readSnapshot
  dsimp only
  split
  · split
    · cases x <;> rfl
    · split
      · cases x <;> rfl
      · split
        · cases x <;> rfl
        · rfl
  · split
    · exact hrx _
    · rfl

/-- Two states differ in the snapshots of one session at most. -/
def SnapsOnly (x : Sess) (s u : State) : Prop :=
  OnlySessions s u ∧ u.ses x = { s.ses x with
    latSnap := (u.ses x).latSnap, rxSnap := (u.ses x).rxSnap, recSnap := (u.ses x).recSnap }

theorem snapsOnly_readSnapshot (id : Nat) : SnapsOnly x s (readSnapshot x id s) := by
  have hrx : ∀ k, SnapsOnly x s (rxSnapshot x k s) := by
    intro k
    unfold rxSnapshot
    split
    · exact ⟨rfl, by rw [State.ses_modSes]⟩
    · exact ⟨rfl, rfl⟩
  have hlat : ∀ ax n, SnapsOnly x s (latSnapshot x ax n s) := fun ax n =>
    ⟨rfl, by rw [latSnapshot, State.ses_modSes]⟩
  have hrec : ∀ ax, SnapsOnly x s (recSnapshot x ax s) := fun ax => ⟨rfl, by rw [recSnapshot, State.ses_modSes]⟩
  unfold readSnapshot
  dsimp only
  split
  · split
    · exact hlat _ 0
    · split
      · exact hlat _ 1
      · split
        · exact hrec _
        · exact ⟨rfl, rfl⟩
  · split
    · exact hrx _
    · exact ⟨rfl, rfl⟩

end

/-- Snapshots leave the turn of a session, the framing of its replies and the tick. -/
theorem turn_of_snapsOnly {x : Sess} {s u : State} (h : SnapsOnly x s u) (hready : Ready x s) :
    Ready x u ∧ directFrame (u.ses x) = directFrame (s.ses x) ∧ u.tick = s.tick := by
  obtain ⟨hsess, hses⟩ := h
  obtain ⟨hstarts, hopen, hrunning⟩ := hready
  unfold OnlySessions at hsess
  refine ⟨⟨?_, ?_, ?_⟩, ?_, ?_⟩
  · rw [hsess]; exact hstarts
  · rw [hses]; exact hopen
  · rw [hses]; exact hrunning
  · rw [hses]; rfl
  · rw [hsess]

/-! ### The line -/

/-- `get` of a parameter that its session may read. -/
theorem cmdGet_readable {r : ParRef} {p : Par} {e : Bool} {k : Call} {s : State} (hr : findRef r = some (p, e))
    (hlevel : reaches (s.ses k.x).level (readLevel p) = true) :
    cmdGet r k s = okValue k (showOpt (if e then twinPar p else p) (getValue (readSnapshot k.x p.id s) k.x p e))
      (readSnapshot k.x p.id s) := by
  simp only [cmdGet, withRead, hr, hlevel, Bool.not_true, Bool.false_eq_true, if_false]

/-- `get` answers the reading of the state after its snapshot. -/
theorem get_answers {x : Sess} {r : ParRef} {p : Par} {e : Bool} {s : State} (hready : Ready x s) (hr : findRef r = some (p, e))
    (hlevel : reaches (s.ses x).level (readLevel p) = true) :
    ∃ t, exec (.get x r) s = .next t ∧
      Answered x (txt "= " ++ showOpt (if e then twinPar p else p) (getValue (readSnapshot x p.id s) x p e))
        ((readSnapshot x p.id s).ses x) (readSnapshot x p.id s) t := by
  obtain ⟨hturn, hframes, htick⟩ := turn_of_snapsOnly (snapsOnly_readSnapshot x s p.id) hready
  obtain ⟨l, hframe, henter, hrun⟩ := direct_ready hready "get" (cmdGet r)
  refine ⟨_, hrun, ?_⟩
  rw [cmdGet_readable hr (by rw [level_lineHeard]; exact hlevel), readSnapshot_lineHeard, getValue_lineHeard, okValue, ← htick]
  exact answered_of (txt "get") hturn (hframe.trans hframes.symm) henter _

/-- A parameter that can be written reads as the set in force holds it, where nothing else holds it (R183). -/
theorem getValue_written {p : Par} (hwrite : p.write.isSome = true) (hsticky : p.id ≠ 0x6000) (hselA : p.id ≠ 0x7000)
    (hselD : p.id ≠ 0x7001) (s : State) (x : Sess) : getValue s x p false = some (s.par p.id) := by
  simp only [getValue, Bool.false_eq_true, if_false, hsticky, hselA, hselD, hwrite, if_true]

/-- Settles O4: `get` reads the state after its snapshot, and what can be written reads as the set in force holds it. -/
theorem getReadsSetInForce : Obligations.GetReadsSetInForce := by
  unfold Obligations.GetReadsSetInForce
  constructor
  · intro x r p s hready hr hwrite hsticky hselA hselD hsnap hlevel
    have h := get_answers hready hr hlevel
    rwa [hsnap, getValue_written hwrite hsticky hselA hselD] at h
  · rintro x r p e s u hready hr hlevel rfl
    exact get_answers hready hr hlevel

end Sys2Proof.Machine
end

section
/-! SUPPORT. Requests at the FRAM port one after another (R103-R106), and the start of a commit (R153, R189, R190, R196, R198). -/

namespace Sys2Proof.Machine

open Sys2Proof.Safety

/-! ### The port -/

/-- Two states differ in the requests at the FRAM port and in counters at most. -/
def PortOnly (s u : State) : Prop :=
  u = { s with cnt := u.cnt, fram := { s.fram with queue := u.fram.queue, cur := u.fram.cur } }

theorem portOnly_refl (s : State) : PortOnly s s := rfl

theorem portOnly_trans {s t u : State} (h : PortOnly s t) (g : PortOnly t u) : PortOnly s u := by
  unfold PortOnly at *
  rw [g, h]

theorem portOnly_framPick (s : State) : PortOnly s (framPick s) := by
  unfold framPick
  split
  · rfl
  · split
    · rfl
    · split
      · rw [peak_only]; rfl
      · rfl

/-- A request changes nothing but the requests at the port. -/
theorem portOnly_framAsk (p : Nat) (op : FramOp) (n : Nat) (s : State) : PortOnly s (framAsk p op n s) := by
  unfold framAsk
  exact portOnly_trans (t := s.modFram fun f => { f with queue := f.queue ++ [_] }) rfl (portOnly_framPick _)

theorem portOnly_forAll {α : Type} {f : α → State → State} (h : ∀ a t, PortOnly t (f a t)) (l : List α) :
    ∀ s, PortOnly s (forAll l f s) := by
  induction l with
  | nil => exact portOnly_refl
  | cons a l ih => exact fun s => portOnly_trans (h a s) (ih _)

theorem peak_fram (id n : Nat) (s : State) : (peak id n s).fram = s.fram := by rw [peak_only]

/-- A request that the port takes from its queue is at the port as before. -/
theorem framBusy_framPick {op : FramOp} {s : State} (h : framBusy s op = true) : framBusy (framPick s) op = true := by
  unfold framPick
  split
  · exact h
  · rename_i hcur
    split
    · exact h
    · rename_i r rest hbest
      have hqueue : ∃ q ∈ s.fram.queue, (q.op == op) = true := by
        simpa [framBusy, hcur] using h
      obtain ⟨q, hq, hop⟩ := hqueue
      have hpicked : framBusy (s.modFram fun f => { f with cur := some r, queue := rest }) op = true := by
        simp only [framBusy, State.modFram_fram, Bool.or_eq_true, List.any_eq_true]
        rcases (framBest_mem hbest q).1 hq with rfl | hrest
        · exact .inr hop
        · exact .inl ⟨q, hrest, hop⟩
      dsimp only
      split
      · unfold framBusy
        rw [peak_fram]
        exact hpicked
      · exact hpicked

/-- A further request leaves those that are at the port there. -/
theorem framBusy_framAsk {op : FramOp} {s : State} (h : framBusy s op = true) (p : Nat) (o : FramOp) (n : Nat) :
    framBusy (framAsk p o n s) op = true := by
  refine framBusy_framPick ?_
  simp only [framBusy, State.modFram_fram, List.any_append, Bool.or_eq_true] at h ⊢
  exact h.imp .inl id

theorem framBusy_forAll {α : Type} {op : FramOp} {f : α → State → State}
    (hf : ∀ a t, framBusy t op = true → framBusy (f a t) op = true) (l : List α) :
    ∀ s, framBusy s op = true → framBusy (forAll l f s) op = true := by
  induction l with
  | nil => exact fun _ h => h
  | cons a l ih => exact fun s h => ih _ (hf a s h)

/-! ### CHECK passes and BUILD begins (R190) -/

/-- A commit as it begins: in BUILD, over a window that opens at this ms tick. -/
def State.newCommit (s : State) (by_ : CommitBy) (ents : Store) : Commit :=
  { load := false, by_ := by_, ents := ents, phase := .build, blocks := [], made := 0, queue := [], opened := false,
    start := s.mtick, window := s.parN 0x0020, sw := none, swAck := false, setp0 := s.link.setp,
    recOk := (recEntries ents).isEmpty, gen := 0, applied := none, err := 0, piece := s.etime }

/-- The state in which a commit has begun, before its requests to FRAM. -/
def State.committed (s : State) (by_ : CommitBy) (ents : Store) : State :=
  { s with
    commit := some (s.newCommit by_ ents)
    pwr := { s.pwr with bias := s.pwr.bias || 32000 * setP (s.setWith ents) < 80000000 }
    host := { s.host with crossed := none } }

/-- A commit that begins asks FRAM for its record, if it has one, and for the copies of its profiles. -/
theorem openCommit_eq (by_ : CommitBy) (ents : Store) (s : State) : openCommit by_ ents s =
    forAll (changedProfiles ents) (fun q s => framAsk 3 (.profile q.1 q.2) 2 s)
      (if (recEntries ents).isEmpty then s.committed by_ ents
       else framAsk 3 .record (framParts (recBytes (recEntries ents))) (s.committed by_ ents)) := rfl

theorem openCommit_port (by_ : CommitBy) (ents : Store) (s : State) :
    PortOnly (s.committed by_ ents) (openCommit by_ ents s) := by
  rw [openCommit_eq]
  refine portOnly_trans ?_ (portOnly_forAll (fun (q : Axis × Nat) t => portOnly_framAsk 3 (.profile q.1 q.2) 2 t) _ _)
  split
  · exact portOnly_refl _
  · exact portOnly_framAsk ..

/-- The record of a commit that persists something is at the port (R198). -/
theorem openCommit_record (by_ : CommitBy) {ents : Store} (h : recEntries ents ≠ []) (s : State) :
    framBusy (openCommit by_ ents s) .record = true := by
  rw [openCommit_eq, if_neg (by simpa using h)]
  exact framBusy_forAll (fun (q : Axis × Nat) t ht => framBusy_framAsk ht 3 (.profile q.1 q.2) 2) _ _ (framAsk_busy ..)

/-- While the journal has room, a commit begins (R202). -/
theorem startCommit_of_room (by_ : CommitBy) (ents : Store) {s : State} (h : s.fram.journal.length < 64) :
    startCommit by_ ents s = openCommit by_ ents s := by
  simp [startCommit, Nat.not_le.2 h]

/-- A line that starts now and whose checks pass starts its commit. -/
theorem direct_commits {x : Sess} {s : State} (hready : Ready x s) (hroom : s.fram.journal.length < 64) (w : String)
    {f : Call → State → State} {by_ : CommitBy} {ents : Store}
    (hf : ∀ k : Call, k.x = x → f k (lineHeard x s) = startCommit by_ ents (waitFor k .commit (lineHeard x s))) :
    ∃ t, direct x w f s = .next t ∧ StartsCommit x ents s t := by
  obtain ⟨l, -, -, hrun⟩ := direct_ready hready w f
  refine ⟨_, hrun, ?_⟩
  rw [hf _ rfl]
  generalize hk : ({ x := x, line := l, word := txt w, tick := s.tick } : Call) = k
  have hstart : startCommit by_ ents (waitFor k .commit (lineHeard x s)) = openCommit by_ ents (waitFor k .commit (lineHeard x s)) :=
    startCommit_of_room by_ ents hroom
  rw [hstart]
  have hx : k.x = x := by rw [← hk]
  obtain ⟨hwait, hline, honly⟩ := waitFor_spec k .commit (lineHeard x s)
  rw [hx] at hwait hline honly
  obtain ⟨hsess, hothers⟩ := onlySession_trans (lineHeard_only x s) honly
  have hport := openCommit_port by_ ents (waitFor k .commit (lineHeard x s))
  have hrecord := fun h => openCommit_record by_ (ents := ents) h (waitFor k .commit (lineHeard x s))
  generalize openCommit by_ ents (waitFor k .commit (lineHeard x s)) = u at hport hrecord
  unfold PortOnly at hport
  have hses : ∀ y, u.ses y = (waitFor k .commit (lineHeard x s)).ses y := fun y => by rw [hport]; rfl
  have hcommit : u.commit = some (s.newCommit by_ ents) := by rw [hport]; rfl
  refine ⟨⟨_, hcommit, rfl, rfl, rfl, rfl, rfl, rfl, rfl, rfl, rfl⟩, ?_, ?_, fun y hy => ?_, hrecord, ?_⟩
  · rw [hses]; exact hwait
  · rw [hses]; exact lineOnly_trans (lineHeard_line x s) hline
  · rw [hses]; exact hothers y hy
  · rw [hport]; rfl

/-! ### The checks of the lines (Table 6-3) -/

theorem commitCheck_lineHeard (x : Sess) (s : State) (ents : Store) : commitCheck (lineHeard x s) ents = commitCheck s ents := rfl

theorem valueCheck_lineHeard (x : Sess) (s : State) (id : Nat) (v : Int) : valueCheck (lineHeard x s) id v = valueCheck s id v := rfl

/-- `commit` whose checks pass starts the commit of its staging set. -/
theorem cmdCommit_starts {k : Call} {s : State} (hfree : s.commit = none) (hne : (s.ses k.x).staging ≠ [])
    (hlevel : ∀ e ∈ (s.ses k.x).staging, ∃ p l, parById e.1 = some p ∧ p.write = some l ∧ reaches (s.ses k.x).level l = true)
    (hlocked : ∀ e ∈ (s.ses k.x).staging, lockedFor s (s.ses k.x).level e.1 = false)
    (hcheck : commitCheck s (s.ses k.x).staging = none) :
    cmdCommit k s = startCommit (.line k.x) (s.ses k.x).staging (waitFor k .commit s) := by
  simp only [cmdCommit, List.isEmpty_iff, hne, if_false, hfree, Option.isSome_none, Bool.false_eq_true, hcheck]
  split
  · rename_i e he
    obtain ⟨p, l, hp, hw, hreach⟩ := hlevel e (List.mem_of_find?_eq_some he)
    have habove := List.find?_some he
    simp [hp, hw, hreach] at habove
  · split
    · rename_i e he
      exact absurd (List.find?_some he) (by simp [hlocked e (List.mem_of_find?_eq_some he)])
    · rfl

/-- `set` under `auto on` whose checks pass starts a commit of its entry. -/
theorem cmdSet_commits {k : Call} {s : State} {r : ParRef} {v : Text} {p : Par} {n : Int} (hfree : s.commit = none)
    (hr : findRef r = some (p, false)) (hwrite : writeCheck s (s.ses k.x).level false p false = none) (hline : p.eff ≠ .line)
    (htmux : p.eff ≠ .tmux) (hvalue : readValue p v = .ok n) (hok : valueCheck s p.id n = none) (hauto : (s.ses k.x).auto = true)
    (hcheck : commitCheck s [(p.id, n)] = none) (lent : Bool) :
    cmdSet lent r v k s =
      startCommit (.set k.x (p.eff == .now || p.eff == .reset)) [(p.id, n)] (waitFor k .commit s) := by
  have hline' : (p.eff == Eff.line) = false := beq_eq_false_iff_ne.2 hline
  have htmux' : (p.eff == Eff.tmux) = false := beq_eq_false_iff_ne.2 htmux
  simp only [cmdSet, withWrite, hr, hwrite, htmux', hvalue, hok, hline', hauto, setCommit, hfree, hcheck, Option.isSome_none,
    Bool.false_eq_true, if_false, if_true]

/-- Settles O7: both lines reach `startCommit` once their checks pass, and a commit that begins is in BUILD. -/
theorem commitStartsInBuild : Obligations.CommitStartsInBuild := by
  unfold Obligations.CommitStartsInBuild
  intro x s hready hfree hroom
  have hses : ((lineHeard x s).ses x).staging = (s.ses x).staging ∧ ((lineHeard x s).ses x).level = (s.ses x).level ∧
      ((lineHeard x s).ses x).auto = (s.ses x).auto := by
    rw [lineHeard, State.ses_modSes]
    exact ⟨rfl, rfl, rfl⟩
  obtain ⟨hstaging, hlevel, hauto⟩ := hses
  refine ⟨fun hne hreach hpar hlock hcheck => ?_, fun r v p n hr hwrite hline htmux hvalue hok hon hcheck => ?_⟩
  · refine direct_commits hready hroom "commit" (by_ := .line x) ?_
    rintro k rfl
    have h := cmdCommit_starts (k := k) (s := lineHeard k.x s) hfree
    rw [hstaging, hlevel] at h
    refine h hne (fun e he => ?_) hlock hcheck
    obtain ⟨p, l, hp, hw⟩ := hpar e he
    exact ⟨p, l, hp, hw, hreach e he p hp l hw⟩
  · refine direct_commits hready hroom "set" (by_ := .set x (p.eff == .now || p.eff == .reset)) ?_
    rintro k rfl
    exact cmdSet_commits (s := lineHeard k.x s) hfree hr ((writeCheck_lineHeard k.x s p false).trans hwrite) hline htmux hvalue
      ((valueCheck_lineHeard k.x s p.id n).trans hok) (hauto.trans hon) ((commitCheck_lineHeard k.x s _).trans hcheck) false

end Sys2Proof.Machine
end

section
/-! SUPPORT. The entry into a sleep (R480, R482, R493, R514) and `reset` (R156). -/

namespace Sys2Proof.Machine

open Sys2Proof.Safety

/-! ### E0: the values of the entry and the images -/

/-- The banks that an entry retains: those of its arguments, or of the parameter of the state that it enters (Table 15-2). -/
def sleepBanks (watch : Bool) (args : List Text) (s : State) : BitVec 4 :=
  if watch then BitVec.ofNat 4 (s.parN 0x4001)
  else if args.isEmpty then BitVec.ofNat 4 (s.parN 0x4000)
  else args.foldl (fun m t => m ||| (bankBit t).getD 0) 0

/-- The power state of an entry into a sleep, with the values that it takes (Table 15-3, R493, R514). -/
def sleepPower (watch : Bool) (args : List Text) (s : State) : Power :=
  { s.pwr with
    step := .flush, watch := watch, banks := sleepBanks watch args s, mask := BitVec.ofNat 8 (s.parN 0x4008),
    period := s.parN 0x4010, timer := if s.par 0x4002 == 1 then s.parN 0x4003 else 0, edge := BitVec.ofNat 2 (s.parN 0x4009),
    lpoOn := watch || s.par 0x4002 == 1, confirm := s.parN 0x4013, src := BitVec.ofNat 6 (s.parN 0x4012), hdr := false, iso := false,
    abort := none, woken := 0, refHall := { a := s.pos.a.hall, b := s.pos.b.hall },
    refQuad := { a := BitVec.ofNat 2 (flagBits [s.pos.a.qa, s.pos.a.qb]), b := BitVec.ofNat 2 (flagBits [s.pos.b.qa, s.pos.b.qb]) },
    fails := List.replicate 6 0, noRsp := 0, images := 0, vcoreFail := none }

/-- The image of a bank that is not retained goes to FRAM. -/
def askImage (banks : BitVec 4) (b : Nat) (s : State) : State := if banks.getLsbD b then s else framAsk 4 (.image b) 512 s

/-- An entry takes its values, asks for the images of the banks 0 and 1, and its line waits. -/
theorem sleepStart_eq (watch : Bool) (args : List Text) (k : Call) (s : State) : sleepStart watch args k s =
    waitFor k .sleep (askImage (sleepBanks watch args s) 1 (askImage (sleepBanks watch args s) 0
      { s with pwr := sleepPower watch args s })) := rfl

theorem sleepPower_timer (watch : Bool) (args : List Text) (s : State) :
    (sleepPower watch args s).timer = if s.par 0x4002 = 1 then s.parN 0x4003 else 0 := by
  simp [sleepPower]

theorem portOnly_askImage (banks : BitVec 4) (b : Nat) (s : State) : PortOnly s (askImage banks b s) := by
  unfold askImage
  split
  · exact portOnly_refl s
  · exact portOnly_framAsk ..

theorem framBusy_askImage_self {banks : BitVec 4} {b : Nat} (h : banks.getLsbD b = false) (s : State) :
    framBusy (askImage banks b s) (.image b) = true := by
  rw [askImage, if_neg (by simp [h])]
  exact framAsk_busy ..

theorem framBusy_askImage {op : FramOp} {s : State} (h : framBusy s op = true) (banks : BitVec 4) (b : Nat) :
    framBusy (askImage banks b s) op = true := by
  unfold askImage
  split
  · exact h
  · exact framBusy_framAsk h ..

/-- The image of a bank 0 or 1 that is not retained is at the port. -/
theorem framBusy_images {banks : BitVec 4} {b : Nat} (hb : b < 2) (h : banks.getLsbD b = false) (s : State) :
    framBusy (askImage banks 1 (askImage banks 0 s)) (.image b) = true := by
  match b, hb with
  | 0, _ => exact framBusy_askImage (framBusy_askImage_self h s) banks 1
  | 1, _ => exact framBusy_askImage_self h _

/-! ### The line `sleep` -/

theorem sleepCheck_lineHeard (watch : Bool) (args : List Text) (s : State) :
    sleepCheck (lineHeard .h s) .h watch args = sleepCheck s .h watch args := rfl

/-- A line whose conditions hold starts the entry (Table 15-2). -/
theorem cmdSleep_starts {watch : Bool} {args : List Text} {k : Call} {s : State} (hlen : args.length ≤ 4)
    (hwatch : watch = true → args = []) (hcheck : sleepCheck s k.x watch args = none) :
    cmdSleep watch args k s = sleepStart watch args k s := by
  have hargs : (if watch then !args.isEmpty else 4 < args.length) = false := by
    cases watch with
    | true => simp [hwatch rfl]
    | false => simpa using hlen
  simp [cmdSleep, hargs, hcheck]

/-- `sleep` of a session that can take it: its line waits, and the entry is in its flush. -/
theorem direct_sleeps {s : State} {watch : Bool} {args : List Text} (hready : Ready .h s) (hcheck : sleepCheck s .h watch args = none)
    (hlen : args.length ≤ 4) (hwatch : watch = true → args = []) :
    ∃ t, direct .h "sleep" (cmdSleep watch args) s = .next t ∧ (t.ses .h).running.map (·.wait) = some .sleep ∧
      LineOnly (s.ses .h) (t.ses .h) ∧ OthersKept .h s t ∧ t.pwr = sleepPower watch args s ∧
      (∀ b, b < 2 → t.pwr.banks.getLsbD b = false → framBusy t (.image b) = true) ∧
      t = { s with sess := t.sess, cnt := t.cnt, pwr := t.pwr, fram := { s.fram with queue := t.fram.queue, cur := t.fram.cur } } := by
  obtain ⟨l, -, -, hrun⟩ := direct_ready hready "sleep" (cmdSleep watch args)
  generalize hk : ({ x := .h, line := l, word := txt "sleep", tick := s.tick } : Call) = k at hrun
  have hx : k.x = .h := by rw [← hk]
  rw [cmdSleep_starts hlen hwatch (by rw [hx, sleepCheck_lineHeard]; exact hcheck)] at hrun
  rw [sleepStart_eq] at hrun
  generalize he : ({ lineHeard .h s with pwr := sleepPower watch args (lineHeard .h s) } : State) = e at hrun
  generalize hbanks : sleepBanks watch args (lineHeard .h s) = banks at hrun
  have hport := portOnly_trans (portOnly_askImage banks 0 e) (portOnly_askImage banks 1 _)
  have hbusy := fun b hb h => framBusy_images (banks := banks) (b := b) hb h e
  generalize askImage banks 1 (askImage banks 0 e) = u at hport hbusy hrun
  obtain ⟨hwait, hline, -, hothers⟩ := waitFor_spec k .sleep u
  rw [hx] at hwait hline hothers
  unfold PortOnly at hport
  have hpwr : u.pwr = sleepPower watch args s := by rw [hport, ← he]; rfl
  have hses : ∀ y, u.ses y = (lineHeard .h s).ses y := fun y => by rw [hport, ← he]; rfl
  refine ⟨_, hrun, hwait, ?_, fun y hy => ?_, ?_, fun b hb h => ?_, ?_⟩
  · rw [hses] at hline
    exact lineOnly_trans (lineHeard_line .h s) hline
  · rw [hothers y hy, hses]
    exact (lineHeard_only .h s).2 y hy
  · exact hpwr
  · have hretained : u.pwr.banks = banks := by rw [hpwr, ← hbanks]; rfl
    exact hbusy b hb (hretained ▸ h)
  · rw [hport, ← he]; rfl

/-! ### The line `reset` (R156) -/

/-- A line that is answered, and leaves a mark on the host core. -/
theorem answered_modHost {x : Sess} {t : Text} {se : Session} {s u : State} (h : Answered x t se s u) (f : HostCore → HostCore) :
    Answered x t se (s.modHost f) (u.modHost f) := by
  obtain ⟨hrunning, hlast, hline, hsess, hothers⟩ := h
  refine ⟨hrunning, hlast, hline, ?_, hothers⟩
  unfold OnlySessions at *
  rw [hsess]
  rfl

theorem cmdReset_reaches {k : Call} {s : State} (h : reaches (s.ses k.x).level .installer = true) :
    cmdReset k s = (ok k s).modHost fun h => { h with resetting := true } := if_pos h

theorem reaches_installer {l : Level} (h : l ≠ .user) : reaches l .installer = true := by
  cases l with
  | user => exact absurd rfl h
  | installer => rfl
  | factory => rfl

/-- Settles O15: the entry by `direct_sleeps`, and `reset` is an `ok` with a mark on the host core. -/
theorem sleepAndResetStart : Obligations.SleepAndResetStart := by
  unfold Obligations.SleepAndResetStart
  constructor
  · intro s watch banks hready hcheck hlen hwatch
    obtain ⟨t, hrun, hwait, hline, hothers, hpwr, hbusy, hframe⟩ := direct_sleeps hready hcheck hlen hwatch
    refine ⟨t, by cases watch <;> exact hrun, hwait, hline, hothers, ?_⟩
    rw [hpwr] at hbusy ⊢
    refine ⟨rfl, rfl, rfl, rfl, rfl, rfl, rfl, rfl, sleepPower_timer .., rfl, ?_, ?_, hbusy, rfl, rfl, hpwr ▸ hframe⟩
    · rintro rfl; rfl
    · rintro rfl rfl; rfl
  · intro x s hready hlevel
    obtain ⟨l, hframe, henter, hrun⟩ := direct_ready hready "reset" cmdReset
    refine ⟨_, hrun, ?_⟩
    rw [cmdReset_reaches (by rw [level_lineHeard]; exact reaches_installer hlevel)]
    exact answered_modHost (answered_of (txt "reset") hready hframe henter (txt "ok")) _

end Sys2Proof.Machine
end

section
/-! SUPPORT. Reception on a session (R128, R133, R137, R142, R166, R232, R627): every part of it is one change of the session that
receives, and then RTS_N follows. -/

namespace Sys2Proof.Machine

open Sys2Proof.Safety

/-! ### Changes of one session -/

/-- Two changes of a session are one. -/
theorem modSes_modSes (s : State) (x : Sess) (f g : Session → Session) :
    (s.modSes x f).modSes x g = s.modSes x fun se => g (f se) := by cases x <;> rfl

/-- Changes that agree on a session are the same change of it. -/
theorem modSes_congr {s : State} {x : Sess} {f g : Session → Session} (h : f (s.ses x) = g (s.ses x)) :
    s.modSes x f = s.modSes x g := by
  have hvalue : ∀ f, s.modSes x f = s.modSes x fun _ => f (s.ses x) := fun f => by cases x <;> rfl
  rw [hvalue f, hvalue g, h]

/-- A change that leaves a session as it is changes nothing. -/
theorem modSes_self {s : State} {x : Sess} {f : Session → Session} (h : f (s.ses x) = s.ses x) : s.modSes x f = s :=
  (modSes_congr (g := id) h).trans (by cases x <;> rfl)

/-- After one change of a session RTS_N follows: the other sessions, and everything but the sessions and RTS_N, stay. -/
theorem syncRts_modSes (s : State) (x : Sess) (f : Session → Session) :
    (syncRts (s.modSes x f)).ses x = f (s.ses x) ∧ OthersKept x s (syncRts (s.modSes x f)) ∧
      syncRts (s.modSes x f) =
        { s with sess := (syncRts (s.modSes x f)).sess, host := { s.host with rts := (syncRts (s.modSes x f)).host.rts } } :=
  ⟨State.ses_modSes s x f, fun _ hy => State.ses_modSes_other s f hy, rfl⟩

/-! ### Characters of a line (R128, R133) -/

/-- The echo of characters where a session echoes (R133). -/
def echoLines (on : Bool) (t : Text) : List OutLine := if on then [{ notice := false, chars := t, rate := none }] else []

theorem when_echoOut (on : Bool) (x : Sess) (t : Text) (s : State) :
    when_ on (echoOut x t) s = s.modSes x fun se => { se with out := se.out ++ echoLines on t } := by
  cases on with
  | true => rfl
  | false => exact (modSes_self (by simp [echoLines])).symm

/-- A session that has taken a character into its partial line. -/
def Session.addChar (c : Char) (se : Session) : Session :=
  { se with part := se.part ++ [c], out := se.out ++ echoLines { se with part := se.part ++ [c] }.echoes [c] }

/-- A character for which the line and the receive buffer have room joins the partial line, with its echo. -/
theorem storeChar_joins {x : Sess} {s : State} (hskip : (s.ses x).skip = none) (hlen : (s.ses x).part.length < 160)
    (hroom : (s.ses x).rxFree ≠ 0) (c : Char) : storeChar x c s = s.modSes x (Session.addChar c) := by
  have hlen' : ¬ 160 ≤ (s.ses x).part.length := Nat.not_le.2 hlen
  simp only [storeChar, hskip, Option.isSome_none, Bool.false_eq_true, if_false, hlen', hroom, when_echoOut, modSes_modSes,
    State.ses_modSes]
  exact modSes_congr rfl

/-- A printable character in typed mode, outside an ignored sequence, is one of the line (Table 5-1). -/
theorem typedChar_printable {x : Sess} {s : State} {b : Nat} (hesc : (s.ses x).esc = 0) (hlo : 0x20 ≤ b) (hhi : b ≤ 0x7E) :
    typedChar x b s = storeChar x (Char.ofNat b) s := by
  have hid : (s.modSes x fun se => { se with esc := 0 }) = s := modSes_self (by rw [← hesc])
  have hbs : ¬ (b = 0x08 ∨ b = 0x7F) := by omega
  have hctl : ¬ (b = 0x15 ∨ b = 0x03) := by omega
  have htab : b ≠ 0x09 := by omega
  have hescape : b ≠ 0x1B := by omega
  simp [typedChar, hesc, hid, hbs, hctl, htab, hescape, hlo, hhi]

/-- A printable character in machine mode is one of the line (R137). -/
theorem rawChar_printable {x : Sess} {s : State} {b : Nat} (hlo : 0x20 ≤ b) (hhi : b ≤ 0x7E) :
    rawChar x b s = storeChar x (Char.ofNat b) s := by
  have hgood : (decide (b < 0x20) || decide (0x7F ≤ b)) = false := by simp; omega
  rw [rawChar, hgood, when_false]

/-- A session that has received a character at a time. -/
def Session.heardChar (b : Nat) (at_ : W48) (se : Session) : Session := { se with charAt := at_, lastCr := b = 13 }

/-- A printable character that a session accepts (R128). -/
theorem takeChar_printable {x : Sess} {c : Byte} {s : State} (hskip : (s.ses x).skip = none) (hlen : (s.ses x).part.length < 160)
    (hroom : (s.ses x).rxFree ≠ 0) (hesc : (s.ses x).esc = 0) (hlo : 0x20 ≤ c.toNat) (hhi : c.toNat ≤ 0x7E) :
    takeChar x c s = s.modSes x fun se => (se.heardChar c.toNat s.etime).addChar (Char.ofNat c.toNat) := by
  have hlf : c.toNat ≠ 10 := by omega
  have hcr : c.toNat ≠ 13 := by omega
  rw [← modSes_modSes]
  have hstore := storeChar_joins (x := x) (s := s.modSes x (Session.heardChar c.toNat s.etime)) (by rw [State.ses_modSes]; exact hskip)
    (by rw [State.ses_modSes]; exact hlen) (by rw [State.ses_modSes]; exact hroom) (Char.ofNat c.toNat)
  rw [← hstore]
  show (if _ then _ else if _ then _ else if _ then _ else _) = _
  rw [if_neg (by simp [hlf]), if_neg (by simp [hlf, hcr])]
  split
  · exact rawChar_printable hlo hhi
  · exact typedChar_printable (by rw [State.ses_modSes]; exact hesc) hlo hhi

/-! ### The end of a line (R128) -/

/-- A typed line as it waits to start. -/
def typedLine (part : Text) (s : State) : RxLine :=
  { len := part.length, body := part, frame := .plain, err := none, tick := s.tick, at_ := s.etime, enter := false, cut := false }

/-- A session whose partial line has become a waiting line. -/
def Session.endTyped (s : State) (se : Session) : Session :=
  { se.clearPart with
    out := se.out ++ echoLines se.echoes crlf, waiting := se.waiting ++ [typedLine se.part s], lineAt := s.etime }

/-- The terminator of a typed line that is not blank (R128). -/
theorem endLine_typed {x : Sess} {s : State} (hskip : (s.ses x).skip = none) (htyped : (s.ses x).machine = false)
    (hplain : startsWith (trim (s.ses x).part) ['#'] = false) (hne : trim (s.ses x).part ≠ []) :
    endLine x s = s.modSes x (Session.endTyped s) := by
  have hblank : (trim (s.ses x).part).isEmpty = false := by simpa using hne
  have hnone : ((none : Option Nat) == some 12) = false := rfl
  simp only [endLine, hskip, htyped, hplain, hblank, Bool.or_self, Option.isNone_none, Bool.and_false, Bool.false_eq_true, if_false,
    hnone, when_false, when_echoOut, modSes_modSes]
  exact modSes_congr rfl

/-- CR on a session in typed mode (Table 5-1). -/
theorem takeChar_cr {x : Sess} {s : State} (hskip : (s.ses x).skip = none) (htyped : (s.ses x).machine = false)
    (hplain : startsWith (trim (s.ses x).part) ['#'] = false) (hne : trim (s.ses x).part ≠ []) :
    takeChar x 0x0D s = s.modSes x fun se => (se.heardChar 13 s.etime).endTyped s := by
  have hend := endLine_typed (x := x) (s := s.modSes x (Session.heardChar 13 s.etime)) (by rw [State.ses_modSes]; exact hskip)
    (by rw [State.ses_modSes]; exact htyped) (by rw [State.ses_modSes]; exact hplain) (by rw [State.ses_modSes]; exact hne)
  rw [modSes_modSes] at hend
  exact hend

/-! ### The rows -/

section
variable {s : State}

theorem rxCharacter_received {x : Sess} (h : s.receives = true) (hopen : (s.ses x).isOpen = true) (c : Byte) :
    exec (.rxCharacter x c) s = .next (syncRts (takeChar x c s)) := by
  show execRxCharacter x c s = _
  simp only [execRxCharacter, h, hopen, if_true]

/-- Before B3 nothing is received (R627). -/
theorem rxCharacter_deaf (h : s.host.deaf = true) (c : Byte) : exec (.rxCharacter .h c) s = .next s := by
  show execRxCharacter .h c s = _
  simp [execRxCharacter, State.receives, h]

/-- During a restart what is received is counted only (R232). -/
theorem rxCharacter_restart (h : s.host.deaf = false) (hdev : s.dev ≠ .off) (hrestart : s.host.restart.isSome = true) (c : Byte) :
    exec (.rxCharacter .h c) s = .next (bump 0x7855 s) := by
  show execRxCharacter .h c s = _
  have hdeaf : s.receives = false := by simp [State.receives, Option.isNone_eq_false_iff.2 hrestart]
  simp [execRxCharacter, hdeaf, h, hdev, hrestart]

theorem timeUp_passed {t : W48} {us : Nat} (h : us ≤ s.since t) (f : State → State) : timeUp t us f s = f s := if_pos h

theorem partialLineTimeout_acts (hmachine : s.sess.h.machine = true) (hpart : s.sess.h.part ≠ [])
    (htime : s.parN 0x5805 * 1000 ≤ s.since s.sess.h.charAt) :
    exec .partialLineTimeout s = .next (syncRts (bump 0x783D (s.modSes .h Session.clearPart))) := by
  show execPartialLineTimeout s = _
  have hm : (s.ses .h).machine = true := hmachine
  have hp : (s.ses .h).part.isEmpty = false := List.isEmpty_eq_false_iff.2 hpart
  simp only [execPartialLineTimeout, hm, hp, Bool.not_true, Bool.false_and, Bool.or_self, Bool.false_eq_true, if_false]
  exact congrArg _ (timeUp_passed htime _)

end

/-- Settles O19: each row is one change of the session that receives, with its count, and RTS_N follows. -/
theorem receptionActs : Obligations.ReceptionActs := by
  unfold Obligations.ReceptionActs
  refine ⟨?character, ?line, fun c s => (rxCharacter_deaf · c), ?restart, ?timeout, ?brk⟩
  case character =>
    intro x c s hreceives hopen hskip hlen hroom hesc hlo hhi
    have hcr : c.toNat ≠ 13 := by omega
    refine ⟨_, rxCharacter_received hreceives hopen c, ?_⟩
    rw [takeChar_printable hskip hlen hroom hesc hlo hhi]
    obtain ⟨hses, hothers, honly⟩ :=
      syncRts_modSes s x fun se => (se.heardChar c.toNat s.etime).addChar (Char.ofNat c.toNat)
    refine ⟨hothers, honly, ?_, ?_⟩
    · rw [hses]
      simp [Session.addChar, Session.heardChar, hcr]
    · rw [hses]
      rfl
  case line =>
    intro x s hreceives hopen hskip htyped hplain hne
    refine ⟨_, rxCharacter_received hreceives hopen 0x0D, ?_⟩
    rw [takeChar_cr hskip htyped hplain hne]
    obtain ⟨hses, hothers, -⟩ := syncRts_modSes s x fun se => (se.heardChar 13 s.etime).endTyped s
    refine ⟨hothers, ⟨typedLine (s.ses x).part s, ?_, rfl, rfl, rfl, rfl, rfl, rfl⟩, ?_, ?_, ?_⟩
    all_goals rw [hses]; rfl
  case restart =>
    intro c s hdeaf hdev hrestart
    refine ⟨_, rxCharacter_restart hdeaf hdev hrestart c, ?_, rfl⟩
    rw [count_bump_same, show cntTop 0x7855 = 65535 by decide, Nat.min_comm]
  case timeout =>
    intro s hmachine hpart htime
    refine ⟨_, partialLineTimeout_acts hmachine hpart htime, rfl, fun y hy => ?_, ?_, rfl⟩
    · exact State.ses_modSes_other s Session.clearPart hy
    · show (bump 0x783D (s.modSes .h Session.clearPart)).count 0x783D = _
      rw [count_bump_same, show cntTop 0x783D = 65535 by decide, Nat.min_comm]
      rfl
  case brk =>
    intro s hreceives
    have hrun : exec .brk s = .next (syncRts (s.modSes .h fun se =>
        { se.clearPart with machine := false, echo := s.par 0x5803 == 1, lastCr := false })) := congrArg _ (if_pos hreceives)
    exact ⟨_, hrun, fun y hy => State.ses_modSes_other s _ hy, rfl, rfl⟩

end Sys2Proof.Machine
end

section
/-! SUPPORT. What messages, log entries and stopped axes leave as it is, for the host-core restart (R230, R239): Peony, the sets, the
faults, OTP, the host core, the link, the commit, and the count of restarts. -/

namespace Sys2Proof.Machine

/-! ### Counters -/

/-- Another key reads as before a write. -/
theorem storeGet_storePut_other {i j : Nat} (h : j ≠ i) (m : Store) (v : Int) : storeGet (storePut m i v) j = storeGet m j := by
  induction m with
  | nil => simp [storePut, storeGet, h.symm]
  | cons e r ih =>
    obtain ⟨k, w⟩ := e
    unfold storePut
    split
    · simp [storeGet, h.symm]
    · split
      · rename_i hik
        simp [storeGet, h.symm, ← hik]
      · simp [storeGet, ih]

/-- A count leaves every other counter. -/
theorem count_bumpBy_other {i j : Nat} (h : j ≠ i) (n : Nat) (s : State) : (bumpBy i n s).count j = s.count j := by
  simp only [State.count, bumpBy, storeGet_storePut_other h]

theorem count_peak_other {i j : Nat} (h : j ≠ i) (n : Nat) (s : State) : (peak i n s).count j = s.count j := by
  unfold peak
  split
  · simp only [State.count, storeGet_storePut_other h]
  · rfl

/-! ### The parts that stay -/

/-- The parts of a state that messages, log entries and stopped axes leave as they are, with the count of restarts. -/
structure Spared where
  pe : Peony
  prm : Params
  faults : List AFault
  otp : Otp
  host : HostCore
  link : ALink
  commit : Option Commit
  restarts : Nat

/-- These parts of a state. -/
def State.spared (s : State) : Spared :=
  { pe := s.pe, prm := s.prm, faults := s.faults, otp := s.otp, host := s.host, link := s.link, commit := s.commit,
    restarts := s.count 0x7850 }

section
variable (s : State)

@[simp] theorem spared_modSes (x : Sess) (f : Session → Session) : (s.modSes x f).spared = s.spared := rfl
@[simp] theorem spared_modLoop (x : Axis) (f : AxLoop → AxLoop) : (s.modLoop x f).spared = s.spared := rfl
@[simp] theorem spared_modMot (x : Axis) (f : AxMot → AxMot) : (s.modMot x f).spared = s.spared := rfl
@[simp] theorem spared_modFram (f : Fram → Fram) : (s.modFram f).spared = s.spared := rfl
@[simp] theorem spared_modLog (f : LogState → LogState) : (s.modLog f).spared = s.spared := rfl

@[simp] theorem spared_ite (c : Prop) [Decidable c] (a b : State) : (if c then a else b).spared = if c then a.spared else b.spared :=
  apply_ite State.spared c a b

@[simp] theorem spared_when (c : Bool) (f : State → State) : (when_ c f s).spared = if c then (f s).spared else s.spared :=
  spared_ite _ (f s) s

theorem spared_forAll {α : Type} {f : α → State → State} (h : ∀ a s, (f a s).spared = s.spared) (l : List α) :
    (forAll l f s).spared = s.spared := keeps_forAll h l s

/-! ### Counters and the FRAM port -/

@[simp] theorem spared_bumpBy {id : Nat} (h : 0x7850 ≠ id) (n : Nat) : (bumpBy id n s).spared = s.spared := by
  unfold State.spared
  rw [count_bumpBy_other h]
  rfl

@[simp] theorem spared_bump {id : Nat} (h : 0x7850 ≠ id) : (bump id s).spared = s.spared := spared_bumpBy s h 1

@[simp] theorem spared_peak {id : Nat} (h : 0x7850 ≠ id) (n : Nat) : (peak id n s).spared = s.spared := by
  unfold State.spared
  rw [count_peak_other h, peak_only]

@[simp] theorem spared_framPick : (framPick s).spared = s.spared := by
  unfold framPick
  split
  · rfl
  · split
    · rfl
    · simp

@[simp] theorem spared_framAsk (p : Nat) (op : FramOp) (n : Nat) : (framAsk p op n s).spared = s.spared := by
  simp [framAsk]

/-! ### The log -/

@[simp] theorem spared_bumpKind {k : Nat} (h : k < 0x100) (axes : BitVec 2) : (bumpKind k axes s).spared = s.spared := by
  have hdevice : 0x7850 ≠ 0x7A00 + k := by omega
  have ha : 0x7850 ≠ 0x1F00 + k := by omega
  have hb : 0x7850 ≠ 0x2F00 + k := by omega
  simp [bumpKind, hdevice, ha, hb]

@[simp] theorem spared_syncLogReq : (syncLogReq s).spared = s.spared := by
  simp [syncLogReq]

@[simp] theorem spared_logEnter (e : LogEntry) : (logEnter e s).spared = s.spared := by
  unfold logEnter
  split
  · simp
  · dsimp only
    split
    · simp
    · split
      · simp
      · split
        · simp
        · split
          · simp
          · split <;> simp

@[simp] theorem spared_releaseHold : (releaseHold s).spared = s.spared := by
  unfold releaseHold
  exact (spared_forAll _ (fun (e : LogEntry × W48) t => spared_logEnter t e.1) _).trans (spared_modLog _ _)

@[simp] theorem spared_logAster {k : Nat} (h : k < 0x100) (axes : BitVec 2) (a b : Nat) :
    (logAster k axes a b s).spared = s.spared := by
  simp [logAster, logStamped, h]

/-! ### Replies and notices -/

@[simp] theorem spared_answer (k : Call) (t : Text) : (answer k t s).spared = s.spared := by
  have h : answer k t s = { s with sess := (answer k t s).sess } := (answer_only k t s).1
  rw [h]; rfl

@[simp] theorem spared_noticeTo (x : Sess) (c : Nat) (t : Text) : (noticeTo x c t s).spared = s.spared := by
  simp [noticeTo]

@[simp] theorem spared_notice (c : Nat) (t : Text) : (notice c t s).spared = s.spared :=
  spared_forAll s (by simp) _

@[simp] theorem spared_faultNotice (w : String) (n : Text) (m : BitVec 2) (t : W32) : (faultNotice w n m t s).spared = s.spared := by
  simp [faultNotice, latchOrder]

/-! ### Commands at their hand-over -/

@[simp] theorem spared_endAxisWait (x : Axis) (p : AxCmd → Bool) (t : Text) : (endAxisWait x p t s).spared = s.spared :=
  spared_forAll s (by simp) _

@[simp] theorem spared_ungroup (x : Axis) : (ungroup x s).spared = s.spared := by
  unfold ungroup
  split
  · rfl
  · simp [grpFail]

@[simp] theorem spared_dropHand (x : Axis) : (dropHand x s).spared = s.spared := by
  unfold dropHand
  split <;> simp

@[simp] theorem spared_handStop (x : Axis) : (handStop x s).spared = s.spared := by
  simp [handStop, handOver]

/-! ### The stop of an axis -/

@[simp] theorem spared_leaveMotion (x : Axis) (r : MotResult) : (leaveMotion x r s).spared = s.spared := by
  simp [leaveMotion, endMotion]

@[simp] theorem spared_endCal (x : Axis) (t : Text) : (endCal x t s).spared = s.spared := by
  have h := spared_forAll (f := fun (k : Call × Wait) s => answer k.1 t s) s (by simp)
  simp [endCal, h]

@[simp] theorem spared_stopAxis (x : Axis) (c : BitVec 4) : (stopAxis x c s).spared = s.spared := by
  simp [stopAxis]

@[simp] theorem spared_haltBoth (c : BitVec 4) : (haltBoth c s).spared = s.spared := by
  simp [haltBoth]

@[simp] theorem spared_noteRelease : (noteRelease s).spared = s.spared :=
  spared_forAll s (by simp) _

end

end Sys2Proof.Machine
end

section
/-! SUPPORT. The trigger of a host-core restart (R173, R186, R229, R230, R232): what the restart controller ends, and what it leaves. -/

namespace Sys2Proof.Machine

/-! ### The end of what runs (R230, R233) -/

section
variable (s : State)

@[simp] theorem spared_dropRequests (p : FramOp → Bool) : (dropRequests p s).spared = s.spared := rfl

@[simp] theorem spared_haltBase : (haltBase s).spared = s.spared := by
  unfold haltBase
  dsimp only
  split <;> rfl

@[simp] theorem spared_haltReads : (haltReads s).spared = s.spared := rfl

@[simp] theorem spared_haltCals : (haltCals s).spared = s.spared :=
  spared_forAll s (by simp) _

end

/-- Two commits are of the same entries and the same line, and the blocks of both or of neither have opened staging. -/
def SameCommit (k c : Commit) : Prop := c.ents = k.ents ∧ c.by_ = k.by_ ∧ c.opened = k.opened

/-- The record that a commit leaves behind changes its generation and its end, and nothing else but FRAM. -/
theorem leaveRecord_spared {s : State} {k : Commit} (h : s.commit = some k) :
    ∃ c, SameCommit k c ∧ (leaveRecord s).spared = { s.spared with commit := some c } := by
  refine ⟨{ k with gen := nextGen s, recOk := true }, ⟨rfl, rfl, rfl⟩, ?_⟩
  simp only [leaveRecord, h]
  rfl

/-- ABORT goes out to Peony where staging has opened. -/
def ALink.aborting (l : ALink) (opened : Bool) : ALink := if opened then { l with abort := true } else l

theorem spared_abortOut (u : State) (opened : Bool) : (if opened then u.modLink fun l => { l with abort := true } else u).spared =
    { u.spared with link := u.spared.link.aborting opened } := by
  cases opened <;> rfl

/-- A commit in BUILD or STREAM goes to ABORT with its queue empty; beside it only the ABORT to Peony is new (R230). -/
theorem haltCommit_streaming {s : State} {k : Commit} (h : s.commit = some k) (hload : k.load = false)
    (hphase : k.phase = .build ∨ k.phase = .stream) :
    ∃ c, SameCommit k c ∧ c.phase = .abort ∧ c.queue = [] ∧
      (haltCommit s).spared = { s.spared with commit := some c, link := s.link.aborting k.opened } := by
  have hstreams : (s.commit.any fun c => !c.load && (c.phase == .build || c.phase == .stream)) = true := by
    rcases hphase with hp | hp <;> simp [h, hload, hp]
  obtain ⟨c, hsame, hc⟩ : ∃ c, SameCommit k c ∧
      (if s.commit.any (recBegun s) then leaveRecord s else s).spared = { s.spared with commit := some c } := by
    split
    · exact leaveRecord_spared h
    · exact ⟨k, ⟨rfl, rfl, rfl⟩, by rw [← h]; rfl⟩
  refine ⟨{ c with phase := .abort, queue := [] }, hsame, rfl, rfl, ?_⟩
  simp only [haltCommit, hstreams, Bool.not_true, Bool.false_eq_true, if_false]
  generalize (if s.commit.any (recBegun s) then leaveRecord s else s) = u at hc
  have hcommit : u.commit = some c := congrArg Spared.commit hc
  have hopened : u.commit.any (·.opened) = k.opened := by rw [hcommit]; exact hsame.2.2
  rw [hopened]
  have hout := spared_abortOut u k.opened
  rw [hc] at hout
  generalize (if k.opened then u.modLink fun l => { l with abort := true } else u) = v at hout
  have habort := congrArg (fun q : Spared =>
    ({ q with commit := q.commit.map fun c => { c with phase := .abort, queue := [] } } : Spared)) hout
  exact habort

/-! ### The trigger (R229, R232) -/

/-- The state in which the restart controller has logged the restart and ended what runs. -/
def State.halted (s : State) (c : RestartCause) : State :=
  haltCals (haltReads (haltBase (haltCommit (logAster 0x29 0 c.ctorIdx 0 (bump 0x7850 s)))))

/-- The restart as it is logged: beside the messages it is counted. -/
theorem spared_logged (c : RestartCause) (s : State) : (logAster 0x29 0 c.ctorIdx 0 (bump 0x7850 s)).spared =
    { s.spared with restarts := min 65535 (s.count 0x7850 + 1) } := by
  have hcount : (bump 0x7850 s).count 0x7850 = min 65535 (s.count 0x7850 + 1) := by
    rw [count_bump_same, show cntTop 0x7850 = 65535 by decide, Nat.min_comm]
  rw [spared_logAster _ (by decide), ← hcount]
  rfl

/-- The end of a commit changes the commit, the link and FRAM. -/
theorem haltCommit_only (s : State) : haltCommit s =
    { s with commit := (haltCommit s).commit, link := (haltCommit s).link, fram := (haltCommit s).fram } := by
  have hrecord : ∀ u : State, leaveRecord u = { u with commit := (leaveRecord u).commit, fram := (leaveRecord u).fram } := by
    intro u
    unfold leaveRecord
    split <;> rfl
  unfold haltCommit
  split
  · rfl
  · dsimp only
    split
    · rw [hrecord]
      split <;> rfl
    · split <;> rfl

/-- The state in which the restart controller has logged the restart, which is counted, and has ended what runs: Peony, the sets, the
faults, OTP and the host core are as before. -/
theorem halted_spared (c : RestartCause) (s : State) : (s.halted c).spared =
    { s.spared with commit := (s.halted c).commit, link := (s.halted c).link, restarts := min 65535 (s.count 0x7850 + 1) } := by
  have hended : (s.halted c).spared = (haltCommit (logAster 0x29 0 c.ctorIdx 0 (bump 0x7850 s))).spared := by
    simp [State.halted]
  have hcommit : (s.halted c).commit = _ := congrArg Spared.commit hended
  have hlink : (s.halted c).link = _ := congrArg Spared.link hended
  have hlogged := spared_logged c s
  rw [hended, hcommit, hlink]
  generalize logAster 0x29 0 c.ctorIdx 0 (bump 0x7850 s) = u at hlogged
  rw [haltCommit_only u]
  exact congrArg (fun q : Spared => ({ q with commit := (haltCommit u).commit, link := (haltCommit u).link } : Spared)) hlogged

/-- A commit in BUILD or STREAM when the restart is triggered. -/
theorem halted_streaming (c : RestartCause) {s : State} {k : Commit} (h : s.commit = some k) (hload : k.load = false)
    (hphase : k.phase = .build ∨ k.phase = .stream) :
    ∃ d, SameCommit k d ∧ d.phase = .abort ∧ d.queue = [] ∧ (s.halted c).commit = some d ∧
      (s.halted c).link = s.link.aborting k.opened := by
  have hended : (s.halted c).spared = (haltCommit (logAster 0x29 0 c.ctorIdx 0 (bump 0x7850 s))).spared := by
    simp [State.halted]
  have hlogged := spared_logged c s
  generalize logAster 0x29 0 c.ctorIdx 0 (bump 0x7850 s) = u at hended hlogged
  have hcommit : u.commit = some k := (congrArg Spared.commit hlogged).trans h
  obtain ⟨d, hsame, habort, hqueue, hd⟩ := haltCommit_streaming hcommit hload hphase
  rw [hd, hlogged] at hended
  refine ⟨d, hsame, habort, hqueue, congrArg Spared.commit hended, (congrArg Spared.link hended).trans ?_⟩
  exact congrArg (ALink.aborting · k.opened) (congrArg Spared.link hlogged)

/-! ### Sessions at the trigger (R173, R186, R340, R534) -/

@[simp] theorem Five.get_map {α : Type} (g : α → α) (v : Five α) (x : Sess) : (v.map g).get x = g (v.get x) := by
  cases x <;> rfl

/-- A session at the trigger has no staging set, no partial line and no snapshot. -/
theorem haltSession_empties (se : Session) : (haltSession se).staging = [] ∧ (haltSession se).part = [] ∧ (haltSession se).rxSnap = [] ∧
    ∀ y, (haltSession se).latSnap.get y = (none, none) ∧ (haltSession se).recSnap.get y = none := by
  have hpart : (unsayRestart se.clearPart).part = [] := by
    unfold unsayRestart
    dsimp only
    split <;> rfl
  exact ⟨rfl, hpart, rfl, fun y => by cases y <;> exact ⟨rfl, rfl⟩⟩

/-- ETIME from which the 50 ms of a restart run: its first trigger (R239). -/
def State.restartFrom (s : State) : W48 := match s.host.restart with
  | some r => r.2
  | none => s.etime

/-- A state in which the host core starts again, once what ran has ended. -/
def State.restarting (u : State) (c : RestartCause) (first : W48) (fresh : Bool) : State :=
  syncRts (({ u.modHost (fun h => { h with restart := some (c, first), cause := some c, stopped := h.stopped && !fresh, waiters := [] }) with
      sess := u.sess.map haltSession } : State).modPwr fun p =>
    if (p.step == .flush || p.step == .isolate) && !p.watch && p.abort.isNone then { p with abort := some .restart } else p)

/-- The row of a restart: the host core starts again over the state in which everything has ended (R229). -/
theorem hostCoreRestart_runs (c : RestartCause) {s : State} (h : hostRuns s = true) :
    exec (.hostCoreRestart c) s = .next ((s.halted c).restarting c s.restartFrom s.host.restart.isNone) :=
  congrArg Host.Outcome.next (if_neg (by simp [h]))

theorem ses_restarting (u : State) (c : RestartCause) (a : W48) (fresh : Bool) (x : Sess) :
    (u.restarting c a fresh).ses x = haltSession (u.ses x) := Five.get_map haltSession u.sess x

/-- Beside the host core these parts stay. -/
theorem spared_restarting (u : State) (c : RestartCause) (a : W48) (fresh : Bool) :
    (u.restarting c a fresh).spared = { u.spared with host := (u.restarting c a fresh).host } := rfl

/-- The first statement of O22: what the trigger of a restart ends and what it leaves. -/
theorem restart_trigger (c : RestartCause) {s : State} (hruns : hostRuns s = true) : ∃ t, exec (.hostCoreRestart c) s = .next t ∧
    (∃ a, t.host.restart = some (c, a) ∧ (s.host.restart = none → a = s.etime)) ∧ t.host.cause = some c ∧
    t.host.waiters = [] ∧ t.host.resetting = s.host.resetting ∧ (∀ x, (t.ses x).staging = [] ∧ (t.ses x).part = [] ∧
      (t.ses x).rxSnap = [] ∧ (∀ y, (t.ses x).latSnap.get y = (none, none) ∧ (t.ses x).recSnap.get y = none)) ∧
    (∀ k, s.commit = some k → k.load = false → k.phase = .build ∨ k.phase = .stream →
      (∃ k', t.commit = some k' ∧ k'.phase = .abort ∧ k'.queue = [] ∧ k'.ents = k.ents ∧ k'.by_ = k.by_) ∧
      (k.opened = true → t.link.abort = true)) ∧
    t.count 0x7850 = min 65535 (s.count 0x7850 + 1) ∧ t.pe = s.pe ∧ t.prm = s.prm ∧ t.faults = s.faults ∧ t.otp = s.otp := by
  have hhalted := halted_spared c s
  have hhost : (s.halted c).host = s.host := congrArg Spared.host hhalted
  have hstreaming := fun k (hk : s.commit = some k) hload hphase => halted_streaming c hk hload hphase
  have hexec := hostCoreRestart_runs c hruns
  generalize s.halted c = u at hhalted hhost hstreaming hexec
  have hspared := spared_restarting u c s.restartFrom s.host.restart.isNone
  refine ⟨_, hexec, ⟨s.restartFrom, rfl, fun hfresh => by rw [State.restartFrom, hfresh]⟩, rfl, rfl,
    ?resetting, fun x => ?sessions, ?commit, ?_⟩
  case resetting =>
    show u.host.resetting = s.host.resetting
    rw [hhost]
  case sessions =>
    rw [ses_restarting]
    exact haltSession_empties _
  case commit =>
    intro k hk hload hphase
    obtain ⟨d, ⟨hents, hby, -⟩, habort, hqueue, hd, hlink⟩ := hstreaming k hk hload hphase
    refine ⟨⟨d, (congrArg Spared.commit hspared).trans hd, habort, hqueue, hents, hby⟩, fun hopened => ?_⟩
    rw [hopened] at hlink
    exact congrArg ALink.abort ((congrArg Spared.link hspared).trans hlink)
  rw [hhalted] at hspared
  exact ⟨congrArg Spared.restarts hspared, congrArg Spared.pe hspared, congrArg Spared.prm hspared, congrArg Spared.faults hspared,
    congrArg Spared.otp hspared⟩

end Sys2Proof.Machine
end

section
/-! SUPPORT. A fault that Aster decides (R22, R79, R294), and the stop of both axes that a long host-core restart brings (R31, R239). -/

namespace Sys2Proof.Machine

/-! ### The state of an axis -/

/-- The loop engine's state of an axis (Table 11-3). -/
def State.axState (s : State) (y : Axis) : AxState := (s.loop.get y).st

theorem axState_of_standing {s t : State} (h : t.standing = s.standing) (y : Axis) : t.axState y = s.axState y :=
  congrArg (fun q : Standing => (q.loop.get y).st) h

/-- A change of an axis that leaves its state. -/
theorem axState_modLoop {f : AxLoop → AxLoop} (hf : ∀ l, (f l).st = l.st) (x y : Axis) (s : State) :
    (s.modLoop x f).axState y = s.axState y := by
  unfold State.axState
  by_cases h : y = x
  · subst h
    rw [State.modLoop_loop, Pair.get_mod_same, hf]
  · rw [State.modLoop_loop, Pair.get_mod_other _ _ h]

theorem latchedOn_of_spared {s t : State} (h : t.spared = s.spared) (y : Axis) : t.latchedOn y = s.latchedOn y :=
  congrArg (fun q : Spared => q.faults.any fun f => hasAxis f.axes y) h

section
variable (x y : Axis) (s : State)

theorem axState_ungroup : (ungroup x s).axState y = s.axState y := by
  unfold ungroup
  split
  · rfl
  · rename_i g hg
    have hfail : (grpFail g (axBit x) (posArg s x) (s.modLoop x fun l => { l with grpHand := none })).standing =
        (s.modLoop x fun l => { l with grpHand := none }).standing := by simp [grpFail]
    exact (axState_of_standing hfail y).trans (axState_modLoop (by simp) x y s)

theorem axState_leaveMotion (r : MotResult) : (leaveMotion x r s).axState y = s.axState y := by
  unfold leaveMotion
  split <;> rfl

theorem axState_endAxisWait (p : AxCmd → Bool) (t : Text) : (endAxisWait x p t s).axState y = s.axState y :=
  axState_of_standing (standing_forAll s (by simp) _) y

theorem axState_endCal (t : Text) : (endCal x t s).axState y = s.axState y := by
  unfold endCal
  dsimp only
  generalize hanswered : forAll _ (fun (k : Call × Wait) s => answer k.1 t s) s = u
  have hu : u.axState y = s.axState y := by
    rw [← hanswered]
    exact axState_of_standing (standing_forAll s (by simp) _) y
  exact (axState_modLoop (by simp) x y u).trans hu

/-- An axis that stops is LATCHED where a fault is latched on it, and DISARMED otherwise; the other axis stays (R294). -/
theorem axState_stopAxis (c : BitVec 4) : (stopAxis x c s).axState y =
    if y = x then (if s.latchedOn x then .latched else .disarmed) else s.axState y := by
  unfold stopAxis
  rw [axState_endCal, axState_endAxisWait, axState_endAxisWait, axState_modLoop (by simp), axState_modLoop (by simp)]
  generalize hleft : when_ (s.armed x) _ s = u
  have hu : u.spared = s.spared ∧ u.axState y = s.axState y := by
    rw [← hleft]
    refine ⟨by simp, ?_⟩
    unfold when_
    split
    · exact axState_leaveMotion ..
    · rfl
  generalize hgroup : when_ ((u.loop.get x).hand != some .stop) (ungroup x) u = v
  have hv : v.spared = u.spared ∧ v.axState y = u.axState y := by
    rw [← hgroup]
    refine ⟨by simp, ?_⟩
    unfold when_
    split
    · exact axState_ungroup ..
    · rfl
  unfold State.axState at *
  rw [State.modLoop_loop]
  by_cases hyx : y = x
  · subst hyx
    rw [if_pos rfl, Pair.get_mod_same, latchedOn_of_spared (hv.1.trans hu.1)]
    rfl
  · rw [if_neg hyx, Pair.get_mod_other _ _ hyx, hv.2, hu.2]

/-- Both axes stop. -/
theorem axState_haltBoth (c : BitVec 4) : (haltBoth c s).axState y = if s.latchedOn y then .latched else .disarmed := by
  unfold haltBoth
  rw [axState_stopAxis, latchedOn_of_spared (spared_stopAxis s .a c)]
  cases y with
  | a => rw [if_neg (by decide), axState_stopAxis, if_pos rfl]
  | b => rw [if_pos rfl]

end

/-! ### The latch of a fault (R22, R25, R301) -/

/-- FLT_L is asserted; beside the link nothing of these parts changes. -/
theorem asterFlt_spared (s : State) : (asterFlt s).spared = { s.spared with link := (asterFlt s).link } := rfl

/-- A fault refuses lines and takes back their CLEARs: beside these nothing of the parts changes, and FLT_L stays driven. -/
theorem refuseClears_spared (m : BitVec 2) (s : State) :
    (refuseClears m s).spared = { s.spared with link := (refuseClears m s).link } ∧ (refuseClears m s).link.flt = s.link.flt := by
  unfold refuseClears
  dsimp only
  generalize hanswered : forAll _ (fun (k : Call × Wait) s => answer k.1 (errText 36 none) s) s = u
  have hu : u.spared = s.spared := by
    rw [← hanswered]
    exact spared_forAll s (by simp) _
  rw [← hu]
  exact ⟨rfl, congrArg (fun q : Spared => q.link.flt) hu⟩

/-- A fault joins the list of latched faults. -/
theorem latchFault_spared (f : AFault) (s : State) :
    (latchFault f s).spared = { s.spared with faults := s.faults ++ [f], link := (latchFault f s).link } ∧
      (latchFault f s).link.flt = s.link.flt := by
  have hnotice : (latchFault f s).spared =
      (refuseClears f.axes (closeWindows f.axes (fltPin { s with faults := s.faults ++ [f], fltN := true }))).spared :=
    spared_faultNotice ..
  have hlink := congrArg Spared.link hnotice
  obtain ⟨hrefused, hflt⟩ := refuseClears_spared f.axes (closeWindows f.axes (fltPin { s with faults := s.faults ++ [f], fltN := true }))
  generalize refuseClears f.axes _ = u at hnotice hlink hrefused hflt
  generalize latchFault f s = t at hnotice hlink
  have ht : t.link = u.link := hlink
  rw [hnotice, ht, hrefused]
  exact ⟨rfl, hflt⟩

/-- A fault of Aster as it is latched. -/
def ownFault (kind : Nat) (axes : BitVec 2) (tick : W32) (info : Nat) : AFault :=
  { kind := kind, die := .aster, axes := axes, tick := tick, info := info }

/-- The steps of one fault: its entry, FLT_L, its latch, and the stop of both axes. -/
theorem oneFault_eq (kind : Nat) (axes : BitVec 2) (a b info : Nat) (s : State) : oneFault kind axes a b info s =
    let u := asterFlt (logAster kind axes a b s)
    haltBoth 4 (noteRelease (latchFault (ownFault kind axes u.tick info) u)) := rfl

/-- One fault that Aster decides: it joins the list, FLT_L is driven, and each axis has stopped. -/
theorem oneFault_acts {kind : Nat} (hkind : kind < 0x100) (axes : BitVec 2) (a b info : Nat) (s : State) :
    ∃ tick l, l.flt = true ∧ (oneFault kind axes a b info s).spared =
        { s.spared with faults := s.faults ++ [ownFault kind axes tick info], link := l } ∧
      ∀ y, (oneFault kind axes a b info s).axState y =
        if (oneFault kind axes a b info s).latchedOn y then .latched else .disarmed := by
  rw [oneFault_eq]
  dsimp only
  have hlogged := spared_logAster s hkind axes a b
  generalize logAster kind axes a b s = u at hlogged
  have hfaults : (asterFlt u).faults = s.faults := congrArg Spared.faults hlogged
  obtain ⟨hlatched, hflt⟩ := latchFault_spared (ownFault kind axes (asterFlt u).tick info) (asterFlt u)
  rw [asterFlt_spared, hlogged, hfaults] at hlatched
  have hstop : ∀ v : State, (haltBoth 4 (noteRelease v)).spared = v.spared := fun v => by simp
  refine ⟨_, _, hflt, (hstop _).trans hlatched, fun y => ?_⟩
  rw [axState_haltBoth, latchedOn_of_spared (spared_haltBoth ..)]

/-! ### The stop of both axes (R239) -/

/-- Aster has stopped both axes for a fault that names both: the fault stands, FLT_L is driven and both axes are LATCHED, while
Peony, the sets and the host core are as they were. -/
structure BothStopped (s : State) (f : AFault) (t : State) : Prop where
  pe : t.pe = s.pe
  prm : t.prm = s.prm
  host : t.host = s.host
  flt : t.link.flt = true
  stands : f ∈ t.faults
  latched : ∀ y, t.axState y = .latched

/-- A fault that names both axes is latched on each. -/
theorem latchedOn_of_both {f : AFault} {t : State} (h : f ∈ t.faults) (hboth : f.axes = 3) (y : Axis) : t.latchedOn y = true :=
  List.any_eq_true.2 ⟨f, h, by rw [hboth]; cases y <;> decide⟩

/-- A fault that Aster decides with both axes named stops them. -/
theorem bothStopped_oneFault {kind : Nat} (hkind : kind < 0x100) (a b info : Nat) (s : State) :
    ∃ tick, BothStopped s (ownFault kind 3 tick info) (oneFault kind 3 a b info s) := by
  obtain ⟨tick, l, hflt, hspared, hstate⟩ := oneFault_acts hkind 3 a b info s
  generalize oneFault kind 3 a b info s = t at hspared hstate
  have hlink : t.link = l := congrArg Spared.link hspared
  have hfaults : t.faults = s.faults ++ [ownFault kind 3 tick info] := congrArg Spared.faults hspared
  have hstands : ownFault kind 3 tick info ∈ t.faults := by simp [hfaults]
  exact ⟨tick, congrArg Spared.pe hspared, congrArg Spared.prm hspared, congrArg Spared.host hspared, hlink ▸ hflt, hstands,
    fun y => by rw [hstate, latchedOn_of_both hstands rfl, if_pos rfl]⟩

/-- A further fault leaves both axes stopped. -/
theorem bothStopped_again {s t : State} {f : AFault} (h : BothStopped s f t) (hboth : f.axes = 3) {kind : Nat} (hkind : kind < 0x100)
    (axes : BitVec 2) (a b info : Nat) : BothStopped s f (oneFault kind axes a b info t) := by
  obtain ⟨tick, l, hflt, hspared, hstate⟩ := oneFault_acts hkind axes a b info t
  generalize oneFault kind axes a b info t = u at hspared hstate
  have hlink : u.link = l := congrArg Spared.link hspared
  have hfaults : u.faults = t.faults ++ [ownFault kind axes tick info] := congrArg Spared.faults hspared
  have hstands : f ∈ u.faults := by simp [hfaults, h.stands]
  have hpe : u.pe = t.pe := congrArg Spared.pe hspared
  have hprm : u.prm = t.prm := congrArg Spared.prm hspared
  have hhost : u.host = t.host := congrArg Spared.host hspared
  exact ⟨hpe.trans h.pe, hprm.trans h.prm, hhost.trans h.host, hlink ▸ hflt, hstands,
    fun y => by rw [hstate, latchedOn_of_both hstands hboth, if_pos rfl]⟩

theorem degradedFault_kind {d : Degraded} {f : Nat × Nat} (h : degradedFault d = some f) : f.1 < 0x100 := by
  cases d with
  | none => cases h
  | recon p => cases h; show 0x0A < 0x100; decide
  | limp p => cases h; show 0x09 < 0x100; decide

/-- The fault of an axis that stops at a hold point (R398). -/
def heldFault (x : Axis) (s : State) : State := match degradedFault (s.loop.get x).holdDue with
  | some f => oneFault f.1 (axBit x) f.2 (posArg s x) 0 (s.modLoop x fun l => { l with holdDue := .none })
  | none => s

theorem heldFaults_eq (s : State) : heldFaults s = heldFault .b (heldFault .a s) := rfl

theorem bothStopped_heldFault {s t : State} {f : AFault} (h : BothStopped s f t) (hboth : f.axes = 3) (x : Axis) :
    BothStopped s f (heldFault x t) := by
  unfold heldFault
  split
  · rename_i g hg
    have hmet : BothStopped s f (t.modLoop x fun l => { l with holdDue := .none }) :=
      ⟨h.pe, h.prm, h.host, h.flt, h.stands, fun y => (axState_modLoop (by simp) x y t).trans (h.latched y)⟩
    exact bothStopped_again hmet hboth (degradedFault_kind hg) _ _ _ _
  · exact h

/-- A fault that Aster decides with both axes named stops them, also at the hold points of degraded axes. -/
theorem bothStopped_asterFault {kind : Nat} (hkind : kind < 0x100) (a b info : Nat) (s : State) :
    ∃ tick, BothStopped s (ownFault kind 3 tick info) (asterFault kind 3 a b info s) := by
  obtain ⟨tick, h⟩ := bothStopped_oneFault hkind a b info s
  refine ⟨tick, ?_⟩
  unfold asterFault
  rw [heldFaults_eq]
  exact bothStopped_heldFault (bothStopped_heldFault h rfl .a) rfl .b

/-! ### The limit of a restart (R239) -/

theorem restartTimeout_runs {c : RestartCause} {a : W48} {s : State} (hrestart : s.host.restart = some (c, a))
    (hstopped : s.host.stopped = false) (htime : 50000 ≤ s.since a) : exec .restartTimeout s =
      .next (asterFault restartFault 3 Config.restartArg.toNat 0 0 (s.modHost fun h => { h with stopped := true })) := by
  show execRestartTimeout s = _
  simp only [execRestartTimeout, hrestart, hstopped, Bool.false_eq_true, if_false]
  exact congrArg _ (timeUp_passed htime _)

theorem restartFault_kind : restartFault < 0x100 := by
  have h : Config.restartKind % 8 < 8 := Nat.mod_lt _ (by decide)
  unfold restartFault
  omega

/-- 50 ms after its trigger a restart has stopped both axes with a latched fault of Aster (R239). -/
theorem restart_timeout {c : RestartCause} {a : W48} {s : State} (hrestart : s.host.restart = some (c, a))
    (hstopped : s.host.stopped = false) (htime : 50000 ≤ s.since a) :
    ∃ t, exec .restartTimeout s = .next t ∧ t.host.stopped = true ∧ t.link.flt = true ∧
      (∃ f ∈ t.faults, f.axes = 3 ∧ f.die = .aster ∧ f.kind = restartFault) ∧ (∀ y, (t.loop.get y).st = .latched) ∧
      t.pe = s.pe ∧ t.prm = s.prm := by
  obtain ⟨tick, h⟩ := bothStopped_asterFault restartFault_kind Config.restartArg.toNat 0 0
    (s.modHost fun h => { h with stopped := true })
  refine ⟨_, restartTimeout_runs hrestart hstopped htime, ?_, h.flt, ⟨_, h.stands, rfl, rfl, rfl⟩, h.latched, h.pe, h.prm⟩
  rw [h.host]
  rfl

end Sys2Proof.Machine
end

section
/-! SUPPORT. The end of a host-core restart (R161, R199, R233, R234): the lines that end, the commit and the notices change neither the host
core nor the trust of a session; then every open session loses its level, its challenge and its bundle. -/

namespace Sys2Proof.Machine

open Sys2Proof.Safety

/-! ### The trust of a session and the restart of the host core -/

/-- What a restart takes from a session: its level and its trust, beside whether it is open (R234). -/
structure Trust where
  isOpen : Bool
  level : Level
  chal : Option Challenge
  bundle : Option (List Byte)

/-- The trust of a session. -/
def Session.trust (se : Session) : Trust := { isOpen := se.isOpen, level := se.level, chal := se.chal, bundle := se.bundle }

/-- An open session at USER, without a challenge or a bundle. -/
def Trust.revoked : Trust := { isOpen := true, level := .user, chal := none, bundle := none }

/-- The restart of the host core and the trust of the sessions. -/
structure Posture where
  restart : Option (RestartCause × W48)
  stopped : Bool
  trust : Sess → Trust

/-- These of a state. -/
def State.posture (s : State) : Posture :=
  { restart := s.host.restart, stopped := s.host.stopped, trust := fun x => (s.ses x).trust }

theorem trust_of_lineOnly {a b : Session} (h : LineOnly a b) : b.trust = a.trust := by
  unfold LineOnly at h
  rw [h]
  rfl

/-- What changes one session and leaves its trust leaves the posture. -/
theorem posture_of_onlySession {x : Sess} {s t : State} (h : OnlySession x s t) (hx : (t.ses x).trust = (s.ses x).trust) :
    t.posture = s.posture := by
  obtain ⟨hsess, hothers⟩ := h
  have htrust : (fun y => (t.ses y).trust) = fun y => (s.ses y).trust := by
    funext y
    by_cases hy : y = x
    · subst hy; exact hx
    · exact congrArg Session.trust (hothers y hy)
  have hhost : t.host = s.host := by rw [hsess]
  unfold State.posture
  rw [hhost, htrust]

theorem posture_modSes {x : Sess} {s : State} {f : Session → Session} (h : (f (s.ses x)).trust = (s.ses x).trust) :
    (s.modSes x f).posture = s.posture :=
  posture_of_onlySession (modSes_only x f s) (by rw [State.ses_modSes, h])

section
variable (s : State)

@[simp] theorem posture_modLink (f : ALink → ALink) : (s.modLink f).posture = s.posture := rfl
@[simp] theorem posture_modLoop (x : Axis) (f : AxLoop → AxLoop) : (s.modLoop x f).posture = s.posture := rfl
@[simp] theorem posture_modMot (x : Axis) (f : AxMot → AxMot) : (s.modMot x f).posture = s.posture := rfl
@[simp] theorem posture_modFram (f : Fram → Fram) : (s.modFram f).posture = s.posture := rfl
@[simp] theorem posture_modLog (f : LogState → LogState) : (s.modLog f).posture = s.posture := rfl
@[simp] theorem posture_modOtp (f : Otp → Otp) : (s.modOtp f).posture = s.posture := rfl
@[simp] theorem posture_modBus (f : Bus → Bus) : (s.modBus f).posture = s.posture := rfl
@[simp] theorem posture_modPwr (f : Power → Power) : (s.modPwr f).posture = s.posture := rfl
@[simp] theorem posture_commit (c : Option Commit) : ({ s with commit := c } : State).posture = s.posture := rfl
@[simp] theorem posture_bundleTick (t : Option W32) : ({ s with bundleTick := t } : State).posture = s.posture := rfl
@[simp] theorem posture_bump (id : Nat) : (bump id s).posture = s.posture := rfl

@[simp] theorem posture_ite (c : Prop) [Decidable c] (a b : State) :
    (if c then a else b).posture = if c then a.posture else b.posture := apply_ite State.posture c a b

@[simp] theorem posture_when (c : Bool) (f : State → State) : (when_ c f s).posture = if c then (f s).posture else s.posture :=
  posture_ite _ (f s) s

theorem posture_forAll {α : Type} {f : α → State → State} (h : ∀ a s, (f a s).posture = s.posture) (l : List α) :
    (forAll l f s).posture = s.posture := keeps_forAll h l s

@[simp] theorem posture_framAsk (p : Nat) (op : FramOp) (n : Nat) : (framAsk p op n s).posture = s.posture := by
  rw [framAsk_only]; rfl

@[simp] theorem posture_releaseHold : (releaseHold s).posture = s.posture := by rw [releaseHold_only]; rfl

@[simp] theorem posture_logAster (k : Nat) (axes : BitVec 2) (a b : Nat) : (logAster k axes a b s).posture = s.posture := by
  rw [logAster_only]; rfl

@[simp] theorem posture_syncRts : (syncRts s).posture = s.posture := rfl
@[simp] theorem posture_syncBias : (syncBias s).posture = s.posture := rfl
@[simp] theorem posture_dropRequests (p : FramOp → Bool) : (dropRequests p s).posture = s.posture := rfl

/-! ### Replies and notices -/

theorem trust_answer (k : Call) (t : Text) : ((answer k t s).ses k.x).trust = (s.ses k.x).trust := by
  have hemit := trust_of_lineOnly (emit_line k.x k.line.tick (frameReply k.line.frame t) s)
  unfold answer
  dsimp only
  split
  · rw [State.ses_modSes]; rfl
  · rw [State.ses_modSes, ← hemit]
    split <;> rfl

@[simp] theorem posture_answer (k : Call) (t : Text) : (answer k t s).posture = s.posture :=
  posture_of_onlySession (answer_only k t s) (trust_answer s k t)

theorem trust_flushNotices (n : Nat) : ∀ se : Session, (flushNotices n se).trust = se.trust := by
  induction n with
  | zero => exact fun _ => rfl
  | succ n ih =>
    intro se
    unfold flushNotices
    split
    · rfl
    · split
      · rfl
      · rw [ih]; rfl

theorem trust_queueNotice (n : Notice) (se : Session) : (queueNotice n se).1.trust = se.trust := by
  unfold queueNotice
  split
  · rfl
  · split <;> rfl

@[simp] theorem posture_noticeTo (x : Sess) (c : Nat) (t : Text) : (noticeTo x c t s).posture = s.posture := by
  unfold noticeTo
  split
  · have hqueued := trust_queueNotice { cls := c, text := t } (s.ses x)
    rw [posture_when, posture_bump, ite_self]
    refine posture_modSes ?_
    split
    · exact hqueued
    · rw [trust_flushNotices, hqueued]
  · rfl

@[simp] theorem posture_notice (c : Nat) (t : Text) : (notice c t s).posture = s.posture :=
  posture_forAll s (by simp) _

@[simp] theorem posture_faultNotice (w : String) (n : Text) (m : BitVec 2) (t : W32) : (faultNotice w n m t s).posture = s.posture := by
  have horder : ∀ (u : State) (text : Text), (latchOrder text t u).posture = u.posture := fun u text => posture_modSes rfl
  simp [faultNotice, horder]

@[simp] theorem posture_sayMissing : (sayMissing s).posture = s.posture :=
  (posture_modLog _ _).trans (posture_forAll s (by simp [sayAwait]) _)

@[simp] theorem posture_releaseHeld : (releaseHeld s).posture = s.posture := by
  refine posture_forAll s (fun x u => ?_) _
  split
  · rfl
  · split
    · rfl
    · refine posture_modSes ?_
      split
      · exact trust_flushNotices 16 _
      · exact trust_of_lineOnly (lineOnly_trans (drain_only _) rfl)

/-! ### The commit and the operation of OTP that end -/

@[simp] theorem posture_commitReply (c : Commit) (t : Text) : (commitReply c t s).posture = s.posture :=
  posture_forAll s (by simp) _

theorem posture_unlearn (l : List Axis) : (forAll l (fun y s => s.modMot y fun m => { m with learn := none }) s).posture = s.posture :=
  posture_forAll s (by simp) l

@[simp] theorem posture_txWrite (ents : Store) : (txWrite ents s).posture = s.posture :=
  posture_forAll s (by simp [txPut]) _

@[simp] theorem posture_unstage (x : Sess) : (s.modSes x fun se => { se with staging := [] }).posture = s.posture := posture_modSes rfl

@[simp] theorem posture_finishCommit : (finishCommit s).posture = s.posture := by
  unfold finishCommit
  split
  · rfl
  · split
    · rfl
    · rw [posture_commitReply]
      split <;> simp [posture_unlearn]

@[simp] theorem posture_markDone : (markDone s).posture = s.posture := by
  unfold markDone
  split <;> simp

@[simp] theorem posture_leaveRecord : (leaveRecord s).posture = s.posture := by
  unfold leaveRecord
  split <;> rfl

@[simp] theorem posture_abortCommit (code : Nat) : (abortCommit code s).posture = s.posture := by
  unfold abortCommit
  dsimp only
  split
  · simp
  · rw [posture_commitReply]
    split <;> simp [posture_unlearn]

@[simp] theorem posture_endCommit : (endCommit s).posture = s.posture := by
  unfold endCommit
  split
  · rfl
  · simp

@[simp] theorem posture_otpFinish (t : Text) : (otpFinish t s).posture = s.posture :=
  posture_forAll _ (by simp) _

@[simp] theorem posture_otpNext : (otpNext s).posture = s.posture := by
  unfold otpNext
  split
  · rfl
  · split <;> simp

@[simp] theorem posture_otpGo : (otpGo s).posture = s.posture := by
  unfold otpGo
  split
  · rfl
  · split
    · rfl
    · split
      · rfl
      · split <;> simp

/-! ### The lines that end -/

@[simp] theorem posture_withdraw (w : Wait) : (withdraw w s).posture = s.posture := by
  unfold withdraw
  split
  · exact posture_forAll s (by simp) _
  · simp
  · simp
  · rfl

@[simp] theorem posture_endRunning (x : Sess) : (endRunning x s).posture = s.posture := by
  unfold endRunning
  split <;> simp

@[simp] theorem posture_sayRestart (x : Sess) : (sayRestart x s).posture = s.posture := by
  have hsaid : (s.modSes x fun se => { se with restartDue := none }).posture = s.posture := posture_modSes rfl
  unfold sayRestart
  dsimp only
  split
  · rfl
  · simp [hsaid]

@[simp] theorem posture_endWaiting (x : Sess) : (endWaiting x s).posture = s.posture :=
  (posture_forAll _ (by simp) _).trans (posture_modSes rfl)

end

/-! ### The end of the sessions (R234) -/

/-- A session at the end of a restart: its level and its trust go, and its waiting lines keep their places. -/
def Session.revoke (se : Session) (lvl : Bool) : Session :=
  { se with level := .user, chal := none, bundle := none, restartDue := some lvl,
            waiting := se.waiting.map fun l => { l with cut := true } }

section
variable (x : Sess) (s : State)

theorem endSession_closed (h : (s.ses x).isOpen = false) : endSession x s = s := by
  simp [endSession, h]

theorem endSession_open (h : (s.ses x).isOpen = true) : ∃ lvl, (endSession x s).posture = (s.modSes x (·.revoke lvl)).posture := by
  refine ⟨(s.ses x).level != .user || (s.ses x).restartDue == some true, ?_⟩
  have hopen : (!(s.ses x).isOpen) = false := by rw [h]; rfl
  simp only [endSession, hopen, Bool.false_eq_true, if_false, posture_sayRestart, posture_ite, posture_endWaiting, ite_self]
  rfl

end

theorem trust_revoke {se : Session} (h : se.isOpen = true) (lvl : Bool) : (se.revoke lvl).trust = .revoked := by
  show ({ isOpen := se.isOpen, level := .user, chal := none, bundle := none } : Trust) = _
  rw [h]
  rfl

section
variable {x : Sess} {s : State}

/-- An open session is left at USER without a challenge or a bundle. -/
theorem endSession_revokes (h : (s.ses x).isOpen = true) : ((endSession x s).ses x).trust = .revoked := by
  obtain ⟨lvl, hposture⟩ := endSession_open x s h
  refine (congrArg (fun q : Posture => q.trust x) hposture).trans ?_
  show ((s.modSes x (·.revoke lvl)).ses x).trust = _
  rw [State.ses_modSes]
  exact trust_revoke h lvl

/-- The end of one session leaves the trust of another. -/
theorem endSession_other {y : Sess} (hy : y ≠ x) : ((endSession x s).ses y).trust = (s.ses y).trust := by
  cases h : (s.ses x).isOpen with
  | false => rw [endSession_closed x s h]
  | true =>
    obtain ⟨lvl, hposture⟩ := endSession_open x s h
    refine (congrArg (fun q : Posture => q.trust y) hposture).trans ?_
    exact congrArg Session.trust (State.ses_modSes_other s _ hy)

theorem endSession_keeps {y : Sess} (h : (s.ses y).trust = .revoked) : ((endSession x s).ses y).trust = .revoked := by
  by_cases hy : y = x
  · subst hy
    exact endSession_revokes (congrArg Trust.isOpen h)
  · rw [endSession_other hy, h]

end

theorem endSessions_keep (l : List Sess) {y : Sess} :
    ∀ s : State, (s.ses y).trust = .revoked → ((forAll l endSession s).ses y).trust = .revoked := by
  induction l with
  | nil => exact fun _ h => h
  | cons a l ih => exact fun s h => ih _ (endSession_keeps h)

/-- Every open session of a list is left at USER. -/
theorem endSessions_revoke {x : Sess} (l : List Sess) :
    ∀ s : State, x ∈ l → (s.ses x).isOpen = true → ((forAll l endSession s).ses x).trust = .revoked := by
  induction l with
  | nil => exact fun _ hx => absurd hx (by simp)
  | cons a l ih =>
    intro s hx hopen
    rw [forAll_cons]
    by_cases ha : x = a
    · subst ha
      exact endSessions_keep l _ (endSession_revokes hopen)
    · refine ih _ ((List.mem_cons.1 hx).resolve_left ha) ?_
      exact (congrArg Trust.isOpen (endSession_other ha)).trans hopen

theorem spared_endSession (x : Sess) (s : State) : (endSession x s).spared = s.spared := by
  have hsaid : ∀ u : State, (sayRestart x u).spared = u.spared := by
    intro u
    unfold sayRestart
    dsimp only
    split <;> simp
  have hwaiting : ∀ u : State, (endWaiting x u).spared = u.spared := fun u =>
    (spared_forAll _ (by simp) _).trans (spared_modSes u x _)
  simp [endSession, hsaid, hwaiting]

/-! ### The row (R234) -/

/-- The state in which the host core runs again, with the notices and the replies that the restart has held. -/
def State.resumed (s : State) : State :=
  releaseHeld ((sayMissing s).modHost fun h => { h with restart := none, stopped := false })

/-- The state in which the commit, the operation of OTP and the running lines have ended. -/
def State.linesEnded (u : State) : State :=
  forAll sessions endRunning (when_ (!framBusy u .otpState) otpGo (endCommit u))

theorem restartComplete_runs {s : State} (h : s.host.restart.isSome = true) : exec .restartComplete s =
    .next (syncRts (releaseHold (forAll sessions endSession s.resumed.linesEnded))) :=
  congrArg Host.Outcome.next (if_neg (by simp [Option.isSome_iff_ne_none.1 h]))

theorem posture_resumed (s : State) : s.resumed.posture = { s.posture with restart := none, stopped := false } := by
  have hmissing := posture_sayMissing s
  rw [State.resumed, posture_releaseHeld]
  generalize sayMissing s = u at hmissing
  exact congrArg (fun q : Posture => ({ q with restart := none, stopped := false } : Posture)) hmissing

theorem posture_linesEnded (u : State) : u.linesEnded.posture = u.posture :=
  (posture_forAll _ (by simp) _).trans (by simp)

/-- At its end a restart leaves every open session at USER without a challenge or a bundle (R234). -/
theorem restart_complete {s : State} (h : s.host.restart.isSome = true) : ∃ t, exec .restartComplete s = .next t ∧
    t.host.restart = none ∧ t.host.stopped = false ∧
    ∀ x, (s.ses x).isOpen = true → (t.ses x).level = .user ∧ (t.ses x).chal = none ∧ (t.ses x).bundle = none := by
  refine ⟨_, restartComplete_runs h, ?_⟩
  have hended := (posture_linesEnded s.resumed).trans (posture_resumed s)
  generalize s.resumed.linesEnded = u at hended
  have hlast : (syncRts (releaseHold (forAll sessions endSession u))).posture = (forAll sessions endSession u).posture := by simp
  have hhost : (forAll sessions endSession u).host = u.host :=
    congrArg Spared.host (spared_forAll u (fun x v => spared_endSession x v) sessions)
  have hrevoked : ∀ x, (s.ses x).isOpen = true → ((forAll sessions endSession u).ses x).trust = .revoked := fun x hopen =>
    endSessions_revoke sessions u (by cases x <;> decide) ((congrArg (fun q : Posture => (q.trust x).isOpen) hended).trans hopen)
  generalize forAll sessions endSession u = v at hlast hhost hrevoked
  generalize syncRts (releaseHold v) = t at hlast
  have hrestart : t.host.restart = v.host.restart := congrArg Posture.restart hlast
  have hstopped : t.host.stopped = v.host.stopped := congrArg Posture.stopped hlast
  refine ⟨?_, ?_, fun x hopen => ?_⟩
  · rw [hrestart, hhost]; exact congrArg Posture.restart hended
  · rw [hstopped, hhost]; exact congrArg Posture.stopped hended
  · have htrust : (t.ses x).trust = .revoked := (congrArg (fun q : Posture => q.trust x) hlast).trans (hrevoked x hopen)
    exact ⟨congrArg Trust.level htrust, congrArg Trust.chal htrust, congrArg Trust.bundle htrust⟩

/-! ### The statement -/

/-- Settles O22: the trigger, the end and the limit of a restart. -/
theorem restartActs : Obligations.RestartActs := by
  unfold Obligations.RestartActs
  exact ⟨fun c _ hruns => restart_trigger c hruns, fun _ hrestart => restart_complete hrestart,
    fun _ _ _ hrestart hstopped htime => restart_timeout hrestart hstopped htime⟩

end Sys2Proof.Machine
end

section
/-! SUPPORT. The base slots that lines ask for: `save` and `defaults` (R197, R203, R204, R584). -/

namespace Sys2Proof.Machine

open Sys2Proof.Safety

/-- A line that starts now and waits for the write of a base slot: its request is at the port. -/
theorem direct_asksBase {x : Sess} {s : State} (hready : Ready x s) (w : String) {f : Call → State → State} {u : BaseUse} {vals : Store}
    (hf : ∀ k : Call, k.x = x → f k (lineHeard x s) = askBase u vals (waitFor k (.base u) (lineHeard x s))) :
    ∃ t, direct x w f s = .next t ∧ framBusy t (.base u vals) = true ∧ AsksFram x (.base u) s t := by
  obtain ⟨l, -, -, hrun⟩ := direct_ready hready w f
  refine ⟨_, hrun, ?_⟩
  rw [hf _ rfl]
  generalize hk : ({ x := x, line := l, word := txt w, tick := s.tick } : Call) = k
  have hx : k.x = x := by rw [← hk]
  obtain ⟨hwait, hline, honly⟩ := waitFor_spec k (.base u) (lineHeard x s)
  rw [hx] at hwait hline honly
  obtain ⟨hsess, hothers⟩ := onlySession_trans (lineHeard_only x s) honly
  refine ⟨framAsk_busy .., ?_⟩
  have hport : PortOnly (waitFor k (.base u) (lineHeard x s)) (askBase u vals (waitFor k (.base u) (lineHeard x s))) :=
    portOnly_framAsk ..
  generalize waitFor k (.base u) (lineHeard x s) = v at hwait hline hsess hothers hport
  generalize askBase u vals v = t at hport
  unfold PortOnly at hport
  have hses : ∀ y, t.ses y = v.ses y := fun y => by rw [hport]; rfl
  unfold OnlySessions at hsess
  refine ⟨by rw [hses]; exact hwait, by rw [hses]; exact lineOnly_trans (lineHeard_line x s) hline,
    fun y hy => (hses y).trans (hothers y hy), ?_⟩
  rw [hport, hsess]

/-- `save` above USER, while no commit runs and FRAM answers, asks for a slot with the set in force (R203). -/
theorem cmdSave_asks {k : Call} {s : State} (hlevel : (s.ses k.x).level ≠ .user) (hfree : s.commit = none)
    (hfram : s.fram.present = true) : cmdSave k s = askBase .save (fullSet s.prm.now) (waitFor k (.base .save) s) := by
  simp [cmdSave, needs, reaches_installer hlevel, hfree, hfram]

/-- `defaults` where AUTH_REQUIRED does not refuse it asks for a slot with the defaults and the present `sec.bundle.seq` (R204). -/
theorem cmdDefaults_asks {k : Call} {s : State} (hlevel : (s.ses k.x).level ≠ .user) (hauth : s.otp.wrow.getLsbD 10 = false)
    (hfree : s.commit = none) (hfram : s.fram.present = true) : cmdDefaults k s =
      askBase .defaults (fullSet (storePut (genDefaults s) 0x6410 (s.par 0x6410))) (waitFor k (.base .defaults) s) := by
  simp only [cmdDefaults, needs, reaches_installer hlevel, hauth, hfree, hfram, Option.isSome_none, Bool.not_true,
    Bool.false_eq_true, if_false, if_true]

/-- Settles O8: both lines reach `askBase`, and their receipt changes none of the values that the slot takes. -/
theorem saveAsksForBaseSlot : Obligations.SaveAsksForBaseSlot := by
  unfold Obligations.SaveAsksForBaseSlot
  intro x s hready hlevel hfree hfram
  have hheard : ((lineHeard x s).ses x).level ≠ .user := by rwa [level_lineHeard]
  refine ⟨direct_asksBase hready "save" ?_, fun hauth => direct_asksBase hready "defaults" ?_⟩
  · rintro k rfl
    exact cmdSave_asks hheard hfree hfram
  · rintro k rfl
    exact cmdDefaults_asks (s := lineHeard k.x s) hheard hauth hfree hfram

end Sys2Proof.Machine
end

section
/-! SUPPORT. The image of a commit that is complete (R190, R191) and the fold of the journal (R202). -/

namespace Sys2Proof.Machine

/-! ### BUILD is complete (R190, R191) -/

/-- Changed addresses need a block. -/
theorem packBlocks_ne_nil (m : Memory) (n k : Nat) {ch : List Nat} (h : ch ≠ []) : packBlocks m (n + 1) k ch ≠ [] := by
  cases ch with
  | nil => exact absurd rfl h
  | cons a r => exact List.cons_ne_nil _ _

/-- The blocks of a commit that switches both dies: one empty block when no byte of Peony changes (log 48). -/
def peonyBlocks (s : State) (ents : Store) : List Block :=
  if (peonySide s ents).isEmpty then [{ isRun := false, bytes := List.replicate 32 0 }]
  else packBlocks (image s (s.setWith ents)) 256 0 (peonySide s ents)

theorem peonyBlocks_ne_nil (s : State) (ents : Store) : peonyBlocks s ents ≠ [] := by
  unfold peonyBlocks
  split
  · exact List.cons_ne_nil _ _
  · rename_i h
    exact packBlocks_ne_nil _ 255 0 (by simpa using h)

/-- A commit that names the tick after this one. -/
def State.naming (s : State) (c : Commit) : State := { s with commit := some { c with sw := some (s.tick + 1) } }

section
variable {s : State} {c : Commit}

/-- A complete image of a commit that takes part on Peony goes to STREAM (R190). -/
theorem buildComplete_streams (hcommit : s.commit = some c) (hload : c.load = false) (hphase : c.phase = .build)
    (hrestart : s.host.restart = none) (hswitch : needsSwitch s c.ents = true) :
    exec (.commitBuildComplete ()) s =
      .next { s with commit := some { c with phase := .stream, blocks := peonyBlocks s c.ents } } := by
  show execCommitBuildComplete () s = _
  simp [execCommitBuildComplete, hcommit, hload, hphase, hrestart, hswitch, peonyBlocks]

/-- A complete image of a commit of Aster alone leaves the commit to wait for its record (R191). -/
theorem buildComplete_waits (hcommit : s.commit = some c) (hload : c.load = false) (hphase : c.phase = .build)
    (hrestart : s.host.restart = none) (hswitch : needsSwitch s c.ents = false) :
    exec (.commitBuildComplete ()) s = .next (buildReady { s with commit := some { c with phase := .applyWait } }) := by
  show execCommitBuildComplete () s = _
  simp [execCommitBuildComplete, hcommit, hload, hphase, hrestart, hswitch]

/-- A commit that waits for what is not yet in FRAM goes on waiting. -/
theorem buildReady_of_not_ready (h : s.recReady = false) : buildReady s = s := by
  unfold buildReady
  split
  · rfl
  · simp [h]

/-- A commit of Aster alone whose record stands names the next tick (R191). -/
theorem buildReady_names (hcommit : s.commit = some c) (hphase : c.phase = .applyWait) (hrestart : s.host.restart = none)
    (hready : s.recReady = true) (hticks : s.ticking = true) (happlied : c.applied = none) (hsw : c.sw = none) :
    buildReady s = s.naming c := by
  simp [buildReady, hcommit, hphase, hrestart, hready, hticks, happlied, hsw, State.naming]

theorem recReady_phase (hcommit : s.commit = some c) (p : CommitPhase) :
    ({ s with commit := some { c with phase := p } } : State).recReady = s.recReady := by
  simp [State.recReady, hcommit]

end

/-! ### The fold (R202) -/

/-- A fold that is due asks for the set that a boot would load. -/
theorem journalFold_due {s : State} (h : foldDue s = true) :
    exec (.journalFold ()) s = .next (askBase .fold (fullSet (loadSet s).1) s) :=
  congrArg Host.Outcome.next (if_pos h)

theorem journalFold_not_due {s : State} (h : foldDue s = false) : exec (.journalFold ()) s = .next s :=
  congrArg Host.Outcome.next (if_neg (by simp [h]))

end Sys2Proof.Machine
end

section
/-! SUPPORT. The end of a commit (R196, R198, R199): what a commit decides is Peony, the sets, the journal, the staging sets and the counts of
commits. Replies, log entries and requests to FRAM leave these as they are; ABORT and the end of a commit in force change them by what
stands in their equations. -/

namespace Sys2Proof.Machine

open Sys2Proof.Safety

/-! ### What a commit decides -/

/-- The parts of a state that a commit decides, with `stat.cfg.commits` and `stat.cfg.busy_stage`. -/
structure Decided where
  pe : Peony
  prm : Params
  commit : Option Commit
  journal : List JRec
  staging : Sess → Store
  commits : Nat
  busyStage : Nat

/-- These of a state. -/
def State.decided (s : State) : Decided :=
  { pe := s.pe, prm := s.prm, commit := s.commit, journal := s.fram.journal, staging := fun x => (s.ses x).staging,
    commits := s.count 0x7843, busyStage := s.count 0x7844 }

/-- What changes one session and leaves its staging set leaves what a commit decides. -/
theorem decided_of_onlySession {x : Sess} {s t : State} (h : OnlySession x s t) (hx : (t.ses x).staging = (s.ses x).staging) :
    t.decided = s.decided := by
  obtain ⟨hsess, hothers⟩ := h
  have hstaging : (fun y => (t.ses y).staging) = fun y => (s.ses y).staging := by
    funext y
    by_cases hy : y = x
    · subst hy; exact hx
    · exact congrArg Session.staging (hothers y hy)
  unfold State.decided
  rw [hstaging, hsess]
  rfl

section
variable (s : State)

@[simp] theorem decided_modLink (f : ALink → ALink) : (s.modLink f).decided = s.decided := rfl
@[simp] theorem decided_modMot (x : Axis) (f : AxMot → AxMot) : (s.modMot x f).decided = s.decided := rfl
@[simp] theorem decided_modLog (f : LogState → LogState) : (s.modLog f).decided = s.decided := rfl
@[simp] theorem decided_modBus (f : Bus → Bus) : (s.modBus f).decided = s.decided := rfl
@[simp] theorem decided_syncBias : (syncBias s).decided = s.decided := rfl

theorem decided_modFram {f : Fram → Fram} (h : (f s.fram).journal = s.fram.journal) : (s.modFram f).decided = s.decided :=
  congrArg (fun j => { s.decided with journal := j }) h

@[simp] theorem decided_ite (c : Prop) [Decidable c] (a b : State) :
    (if c then a else b).decided = if c then a.decided else b.decided := apply_ite State.decided c a b

@[simp] theorem decided_when (c : Bool) (f : State → State) : (when_ c f s).decided = if c then (f s).decided else s.decided :=
  decided_ite _ (f s) s

theorem decided_forAll {α : Type} {f : α → State → State} (h : ∀ a s, (f a s).decided = s.decided) (l : List α) :
    (forAll l f s).decided = s.decided := keeps_forAll h l s

/-! ### Counters and the FRAM port -/

@[simp] theorem decided_bumpBy {id : Nat} (hc : 0x7843 ≠ id) (hb : 0x7844 ≠ id) (n : Nat) : (bumpBy id n s).decided = s.decided := by
  unfold State.decided
  rw [count_bumpBy_other hc, count_bumpBy_other hb]
  rfl

@[simp] theorem decided_bump {id : Nat} (hc : 0x7843 ≠ id) (hb : 0x7844 ≠ id) : (bump id s).decided = s.decided :=
  decided_bumpBy s hc hb 1

@[simp] theorem decided_peak {id : Nat} (hc : 0x7843 ≠ id) (hb : 0x7844 ≠ id) (n : Nat) : (peak id n s).decided = s.decided := by
  unfold State.decided
  rw [count_peak_other hc, count_peak_other hb, peak_only]
  rfl

/-- A commit in force that ends counts in `stat.cfg.commits` (R214). -/
theorem decided_bump_commits : (bump 0x7843 s).decided = { s.decided with commits := min 0xFFFFFFFF (s.count 0x7843 + 1) } := by
  have htop : cntTop 0x7843 = 0xFFFFFFFF := by decide
  have hbusy : (bump 0x7843 s).count 0x7844 = s.count 0x7844 := count_bumpBy_other (by decide) 1 s
  unfold State.decided
  rw [count_bump_same, htop, hbusy, Nat.min_comm]
  rfl

/-- A commit that ends with `err 31` counts in `stat.cfg.busy_stage` (R196). -/
theorem decided_bump_busyStage : (bump 0x7844 s).decided = { s.decided with busyStage := min 0xFFFF (s.count 0x7844 + 1) } := by
  have htop : cntTop 0x7844 = 0xFFFF := by decide
  have hcommits : (bump 0x7844 s).count 0x7843 = s.count 0x7843 := count_bumpBy_other (by decide) 1 s
  unfold State.decided
  rw [count_bump_same, htop, hcommits, Nat.min_comm]
  rfl

@[simp] theorem decided_framPick : (framPick s).decided = s.decided := by
  unfold framPick
  split
  · rfl
  · split
    · rfl
    · rw [decided_ite, decided_peak _ (by decide) (by decide), ite_self]
      exact decided_modFram s rfl

@[simp] theorem decided_framAsk (p : Nat) (op : FramOp) (n : Nat) : (framAsk p op n s).decided = s.decided :=
  (decided_framPick _).trans (decided_modFram s rfl)

/-! ### The log -/

@[simp] theorem decided_bumpKind {k : Nat} (h : k < 0x100) (axes : BitVec 2) : (bumpKind k axes s).decided = s.decided := by
  have hout : ∀ b, b = 0x7A00 ∨ b = 0x1F00 ∨ b = 0x2F00 → 0x7843 ≠ b + k ∧ 0x7844 ≠ b + k := by omega
  obtain ⟨hdc, hdb⟩ := hout 0x7A00 (by simp)
  obtain ⟨hac, hab⟩ := hout 0x1F00 (by simp)
  obtain ⟨hbc, hbb⟩ := hout 0x2F00 (by simp)
  simp [bumpKind, hdc, hdb, hac, hab, hbc, hbb]

@[simp] theorem decided_syncLogReq : (syncLogReq s).decided = s.decided := by
  have hqueue : ∀ f : List FramReq → List FramReq, (s.modFram fun r => { r with queue := f r.queue }).decided = s.decided :=
    fun _ => decided_modFram s rfl
  simp [syncLogReq, hqueue]

@[simp] theorem decided_logEnter (e : LogEntry) : (logEnter e s).decided = s.decided := by
  unfold logEnter
  split
  · simp
  · dsimp only
    split
    · simp
    · split
      · simp
      · split
        · simp
        · split
          · simp
          · split <;> simp

@[simp] theorem decided_releaseHold : (releaseHold s).decided = s.decided := by
  unfold releaseHold
  exact (decided_forAll _ (fun (e : LogEntry × W48) t => decided_logEnter t e.1) _).trans (decided_modLog _ _)

@[simp] theorem decided_logAster {k : Nat} (h : k < 0x100) (axes : BitVec 2) (a b : Nat) :
    (logAster k axes a b s).decided = s.decided := by
  simp [logAster, logStamped, h]

/-! ### Replies -/

/-- An answer leaves the staging set of its session. -/
theorem staging_answer (k : Call) (t : Text) : ((answer k t s).ses k.x).staging = (s.ses k.x).staging := by
  have hemit : ((emit k.x k.line.tick (frameReply k.line.frame t) s).ses k.x).staging = (s.ses k.x).staging := by
    rw [emit_line k.x k.line.tick (frameReply k.line.frame t) s]
  unfold answer
  dsimp only
  split
  · rw [State.ses_modSes]
  · rw [State.ses_modSes, ← hemit]
    split <;> rfl

@[simp] theorem decided_answer (k : Call) (t : Text) : (answer k t s).decided = s.decided :=
  decided_of_onlySession (answer_only k t s) (staging_answer s k t)

@[simp] theorem decided_commitReply (c : Commit) (t : Text) : (commitReply c t s).decided = s.decided :=
  decided_forAll s (by simp) _

@[simp] theorem decided_txWrite (ents : Store) : (txWrite ents s).decided = s.decided :=
  decided_forAll s (by simp [txPut]) _

theorem decided_unlearn (l : List Axis) : (forAll l (fun y s => s.modMot y fun m => { m with learn := none }) s).decided = s.decided :=
  decided_forAll s (by simp) l

/-- The reply of a commit leaves FRAM. -/
theorem fram_commitReply (c : Commit) (t : Text) : (commitReply c t s).fram = s.fram :=
  keeps_forAll (g := State.fram) (fun (k : Call × Wait) u => by
    have h : answer k.1 t u = { u with sess := (answer k.1 t u).sess } := (answer_only k.1 t u).1
    rw [h]) _ s

end

end Sys2Proof.Machine
end

section
/-! SUPPORT. ABORT, the record of a commit at the FRAM port, and the end of a commit in force (Table 6-4, R193, R196, R198, R199). -/

namespace Sys2Proof.Machine

open Sys2Proof.Safety

/-! ### ABORT (Table 6-4, R198) -/

/-- What an ABORT asks of Peony and of FRAM: ABORT goes out while staging stands open, the requests of the commit end, and a record that
stands is to be marked VOID. -/
def Commit.withdrawn (c : Commit) (s : State) : State :=
  let s := if c.opened then s.modLink fun l => { l with abort := true } else s
  let s := s.modFram fun f =>
    { f with queue := f.queue.filter fun r => !r.ofCommit,
             cur := f.cur.map fun r => if r.ofCommit then { r with op := .hostRead, left := 1 } else r }
  if c.recOk && !(recEntries c.ents).isEmpty then framAsk 3 (.mark 0x00 c.gen) 1 s else s

/-- A commit that has ended with an error, before its line is answered. -/
def Commit.dropped (c : Commit) (code : Nat) (s : State) : State :=
  let s := syncBias (when_ (code = 31) (bump 0x7844) { s with commit := none })
  match c.by_ with
  | .cal _ x => forAll (learnAxes s x) (fun y s => s.modMot y fun m => { m with learn := none }) s
  | _ => s

/-- A commit whose record has been written, whole or in part. -/
def Commit.recorded (c : Commit) (s : State) : Commit := { c with recOk := true, gen := nextGen s }

/-- The record of a commit stands in the journal as PENDING, and its CRC fails unless it is whole (R198). -/
def State.withRecord (s : State) (c : Commit) (whole : Bool) : State :=
  { s.modFram fun f => { f with journal := f.journal ++ [JRec.make (nextGen s) (recEntries c.ents) whole] } with
    commit := some (c.recorded s) }

section
variable {s : State} {c : Commit}

theorem leaveRecord_eq (h : s.commit = some c) : leaveRecord s = s.withRecord c false := by
  simp only [leaveRecord, h]
  rfl

theorem recordDone_eq (h : s.commit = some c) (hrec : c.recOk = false) : recordDone s = s.withRecord c true := by
  simp only [recordDone, h, hrec]
  rfl

theorem decided_withRecord (s : State) (c : Commit) (whole : Bool) : (s.withRecord c whole).decided =
    { s.decided with commit := some (c.recorded s)
                     journal := s.fram.journal ++ [JRec.make (nextGen s) (recEntries c.ents) whole] } := rfl

theorem recBegun_of_recOk (s : State) {c : Commit} (h : c.recOk = true) : recBegun s c = false := by
  simp [recBegun, h]

/-- An ABORT of a commit without a record, or with a whole one. -/
theorem abortCommit_of_not_begun (h : s.commit = some c) (hbegun : recBegun s c = false) (code : Nat) :
    abortCommit code s = commitReply c (errText code none) (c.dropped code (c.withdrawn s)) := by
  simp only [abortCommit, h, Option.any_some, hbegun, Bool.false_eq_true, if_false]
  rfl

/-- An ABORT leaves the record that it cuts as it stands, and then marks it. -/
theorem abortCommit_of_begun (h : s.commit = some c) (hbegun : recBegun s c = true) (code : Nat) :
    abortCommit code s = abortCommit code (leaveRecord s) := by
  have hleft : (leaveRecord s).commit.any (recBegun (leaveRecord s)) = false := by
    rw [leaveRecord_eq h]
    exact recBegun_of_recOk (s.withRecord c false) (c := c.recorded s) rfl
  have hcut : s.commit.any (recBegun s) = true := by rw [h]; exact hbegun
  unfold abortCommit
  rw [hleft, hcut]
  rfl

theorem decided_withdrawn (c : Commit) (s : State) : (c.withdrawn s).decided = s.decided := by
  have hport : ∀ u : State, (u.modFram fun f => { f with
      queue := f.queue.filter fun r => !r.ofCommit,
      cur := f.cur.map fun r => if r.ofCommit then { r with op := .hostRead, left := 1 } else r }).decided = u.decided :=
    fun u => decided_modFram u rfl
  simp [Commit.withdrawn, hport]

/-- What an ABORT decides beside the journal: no commit runs, and `err 31` counts (R196). -/
def Decided.aborted (code : Nat) (d : Decided) : Decided :=
  { d with commit := none, busyStage := if code = 31 then min 0xFFFF (d.busyStage + 1) else d.busyStage }

theorem decided_dropped (c : Commit) (code : Nat) (s : State) : (c.dropped code s).decided = s.decided.aborted code := by
  have hcount : (when_ (code = 31) (bump 0x7844) { s with commit := none }).decided = s.decided.aborted code := by
    rw [decided_when, decided_bump_busyStage]
    by_cases h : code = 31
    · simp only [h, if_true, decide_true]
      rfl
    · simp only [Decided.aborted, h, decide_false, Bool.false_eq_true, if_false]
      rfl
  rw [← hcount]
  unfold Commit.dropped
  dsimp only
  split
  · rw [decided_unlearn, decided_syncBias]
  · rw [decided_syncBias]

theorem decided_abortCommit_of_not_begun (h : s.commit = some c) (hbegun : recBegun s c = false) (code : Nat) :
    (abortCommit code s).decided = s.decided.aborted code := by
  rw [abortCommit_of_not_begun h hbegun, decided_commitReply, decided_dropped, decided_withdrawn]

/-- ABORT keeps Peony, the sets and every staging set; a record that was begun stands with a failing CRC. -/
theorem decided_abortCommit (h : s.commit = some c) (code : Nat) : (abortCommit code s).decided =
    { s.decided.aborted code with
      journal := s.fram.journal ++ if recBegun s c then [JRec.make (nextGen s) (recEntries c.ents) false] else [] } := by
  cases hbegun : recBegun s c with
  | false =>
    rw [decided_abortCommit_of_not_begun h hbegun]
    simp [Decided.aborted, State.decided]
  | true =>
    rw [abortCommit_of_begun h hbegun, leaveRecord_eq h,
      decided_abortCommit_of_not_begun (c := c.recorded s) rfl (recBegun_of_recOk (s.withRecord c false) rfl), decided_withRecord]
    rfl

theorem fram_dropped (c : Commit) (code : Nat) (s : State) : (c.dropped code s).fram = s.fram := by
  have hunlearn : ∀ (l : List Axis) (u : State), (forAll l (fun y s => s.modMot y fun m => { m with learn := none }) u).fram = u.fram :=
    keeps_forAll fun _ _ => rfl
  have hcount : (when_ (code = 31) (bump 0x7844) { s with commit := none }).fram = s.fram := by
    unfold when_
    split <;> rfl
  unfold Commit.dropped
  dsimp only
  split
  · rw [hunlearn]; exact hcount
  · exact hcount

/-- An ABORT of a commit whose record stands asks for its VOID mark. -/
theorem abortCommit_marks (h : s.commit = some c) (hrec : c.recOk = true) (hents : recEntries c.ents ≠ []) (code : Nat) :
    framBusy (abortCommit code s) (.mark 0x00 c.gen) = true := by
  have hfram : (abortCommit code s).fram = (c.withdrawn s).fram := by
    rw [abortCommit_of_not_begun h (recBegun_of_recOk s hrec), fram_commitReply, fram_dropped]
  have hasked : framBusy (c.withdrawn s) (.mark 0x00 c.gen) = true := by
    have hmark : (c.recOk && !(recEntries c.ents).isEmpty) = true := by simp [hrec, hents]
    simp only [Commit.withdrawn, hmark, if_true]
    exact framAsk_busy ..
  unfold framBusy at hasked ⊢
  rwa [hfram]

end

/-! ### The close of the window (R193, R196) -/

section
variable {s : State} {c : Commit}

/-- A window that closes before a tick is named ends the commit with `err 31`. -/
theorem windowClose_aborts (hcommit : s.commit = some c) (hload : c.load = false) (hrestart : s.host.restart = none)
    (hclosed : c.window ≤ (s.mtick - c.start).toNat) (hphase : c.phase = .stream ∨ (c.phase = .arm ∧ c.sw = none)) :
    exec .commitWindowClose s = .next (abortCommit 31 s) := by
  show execCommitWindowClose s = _
  have hopen : ¬ (s.mtick - c.start).toNat < c.window := Nat.not_lt.2 hclosed
  rcases hphase with hphase | ⟨hphase, hsw⟩
  · simp only [execCommitWindowClose, hcommit, hload, hrestart, hopen, hphase]
    rfl
  · simp only [execCommitWindowClose, hcommit, hload, hrestart, hopen, hphase, hsw]
    rfl

/-- A window that closes after a tick is named waits for what Peony reports. -/
theorem windowClose_waits {w : W32} (hcommit : s.commit = some c) (hload : c.load = false) (hrestart : s.host.restart = none)
    (hclosed : c.window ≤ (s.mtick - c.start).toNat) (hphase : c.phase = .arm) (hsw : c.sw = some w) (herr : c.err = 0) :
    exec .commitWindowClose s = .next { s with commit := some { c with err := 31 } } := by
  show execCommitWindowClose s = _
  have hopen : ¬ (s.mtick - c.start).toNat < c.window := Nat.not_lt.2 hclosed
  simp only [execCommitWindowClose, hcommit, hload, hrestart, hopen, hphase, hsw, herr]
  rfl

end

/-! ### The end of a transaction (R103) -/

/-- The port is free. -/
def State.portFree (s : State) : State := s.modFram fun f => { f with cur := none }

section
variable {s : State} {r : FramReq}

theorem framPick_idle (hcur : s.fram.cur = none) (hqueue : s.fram.queue = []) : framPick s = s := by
  simp [framPick, hcur, hqueue, framBest]

/-- The last transaction of a request completes it. -/
theorem transactionDone_completes (hcur : s.fram.cur = some r) (hleft : r.left ≤ 1) (hfram : s.fram.present = true) :
    exec (.framTransactionDone true) s = .next (framPick (framDone r.op s.portFree)) := by
  show execFramTransactionDone true s = _
  simp [execFramTransactionDone, hcur, hfram, framEnd, Nat.not_lt.2 hleft, State.portFree]

/-- A transaction that fails for the last time fails its request. -/
theorem transactionDone_fails {n : Nat} (hcur : s.fram.cur = some r) (htries : framTries r.op = some n) (hlast : n ≤ r.tries + 1) :
    exec (.framTransactionDone false) s = .next (framPick (framFailed r.op s.portFree)) := by
  show execFramTransactionDone false s = _
  simp [execFramTransactionDone, hcur, framEnd, htries, Nat.not_lt.2 hlast, State.portFree]

end

/-! ### The record (R198) -/

section
variable {s : State} {c : Commit}

theorem withRecord_portFree (s : State) (c : Commit) (whole : Bool) : s.portFree.withRecord c whole =
    { s with commit := some { c with recOk := true, gen := nextGen s }
             fram := { s.fram with cur := none, journal := s.fram.journal ++ [JRec.make (nextGen s) (recEntries c.ents) whole] } } := by
  have hgen : nextGen s.portFree = nextGen s := rfl
  simp only [State.withRecord, Commit.recorded, hgen]
  rfl

/-- A commit in BUILD goes on with its image when its record stands. -/
theorem record_in_build (h : s.commit = some c) (hphase : c.phase = .build) : armReady (buildReady s) = s := by
  have hbuild : buildReady s = s := by simp [buildReady, h, hphase]
  rw [hbuild]
  simp [armReady, h, hphase]

/-- A commit of Aster alone names its tick when its record, the last of its requests, stands. -/
theorem record_names (h : s.commit = some c) (hphase : c.phase = .applyWait) (hrec : c.recOk = true) (hcur : s.fram.cur = none)
    (hqueue : s.fram.queue = []) (hrestart : s.host.restart = none) (hticks : s.ticking = true) (happlied : c.applied = none)
    (hsw : c.sw = none) : armReady (buildReady s) = s.naming c := by
  have hready : s.recReady = true := by simp [State.recReady, h, hrec, hcur, hqueue]
  rw [buildReady_names h hphase hrestart hready hticks happlied hsw]
  simp [armReady, State.naming, hphase]

end

/-! ### The end of a commit in force (R199, R214) -/

theorem waiters_eq (s : State) (p : Wait → Bool) :
    waiters s p = sessions.flatMap fun x => ((runningCall s x).filter fun r => p r.2).toList := by
  rw [List.flatMap_def]
  refine congrArg List.flatten (List.map_congr_left fun x _ => ?_)
  cases runningCall s x with
  | none => rfl
  | some r => cases hp : p r.2 <;> simp [Option.filter, hp]

/-- The lines that wait are that of one session, when no other waits. -/
theorem waiters_single {s : State} {p : Wait → Bool} {y : Sess} {q : Call × Wait} (hq : runningCall s y = some q) (hp : p q.2 = true)
    (hothers : ∀ z, z ≠ y → ∀ r, runningCall s z = some r → p r.2 = false) : waiters s p = [q] := by
  have hat : ∀ z, ((runningCall s z).filter fun r => p r.2).toList = if z = y then [q] else [] := by
    intro z
    split
    · rename_i hz
      simp [hz, hq, Option.filter, hp]
    · rename_i hz
      cases hr : runningCall s z with
      | none => rfl
      | some r => simp [Option.filter, hothers z hz r hr]
  simp only [waiters_eq, hat]
  cases y <;> rfl

theorem commitWait_line {c : Commit} {y : Sess} (h : c.by_ = .line y) (w : Wait) : commitWait c w = (w == .commit) := by
  cases w <;> simp [commitWait, h]

/-- The commit of `commit` in force has ended, before its line is answered: the staging set is empty. -/
def Commit.finished (c : Commit) (y : Sess) (s : State) : State :=
  (txWrite c.ents (bump 0x7843 (syncBias { s with commit := none }))).modSes y fun se => { se with staging := [] }

theorem ses_txWrite (ents : Store) (s : State) (x : Sess) : (txWrite ents s).ses x = s.ses x :=
  keeps_forAll (g := fun u => u.ses x) (fun k u => by unfold txPut; split <;> rfl) _ s

theorem ses_finished (c : Commit) (y : Sess) (s : State) (x : Sess) :
    (c.finished y s).ses x = if x = y then { s.ses y with staging := [] } else s.ses x := by
  unfold Commit.finished
  split
  · rename_i h
    rw [h, State.ses_modSes, ses_txWrite]
    rfl
  · rename_i h
    rw [State.ses_modSes_other _ _ h, ses_txWrite]
    rfl

theorem decided_finished (c : Commit) (y : Sess) (s : State) : (c.finished y s).decided =
    { s.decided with commit := none, staging := fun x => if x = y then [] else s.decided.staging x
                     commits := min 0xFFFFFFFF (s.decided.commits + 1) } := by
  have hparts : (txWrite c.ents (bump 0x7843 (syncBias { s with commit := none }))).decided =
      { s.decided with commit := none, commits := min 0xFFFFFFFF (s.decided.commits + 1) } := by
    rw [decided_txWrite, decided_bump_commits]
    rfl
  have hstaging : (fun x => ((c.finished y s).ses x).staging) = fun x => if x = y then [] else s.decided.staging x := by
    funext x
    rw [ses_finished]
    split <;> rfl
  rw [← hstaging]
  exact congrArg (fun d : Decided => { d with staging := fun x => ((c.finished y s).ses x).staging }) hparts

section
variable {s : State} {c : Commit} {w : W32} {y : Sess} {q : Running}

/-- The line of a session waits for a commit, and no other line does. -/
def AwaitsCommit (y : Sess) (q : Running) (s : State) : Prop :=
  (s.ses y).isOpen = true ∧ (s.ses y).running = some q ∧ q.wait = .commit ∧
    ∀ z, z ≠ y → (s.ses z).running.map (·.wait) ≠ some .commit

theorem awaitsCommit_of_ses {u : State} (hses : ∀ x, u.ses x = s.ses x) (h : AwaitsCommit y q s) : AwaitsCommit y q u := by
  simpa only [AwaitsCommit, hses] using h

theorem runningCall_finished (x : Sess) : runningCall (c.finished y s) x = runningCall s x := by
  unfold runningCall
  rw [ses_finished]
  split
  · rename_i h
    rw [h]
  · rfl

theorem wait_of_runningCall {x : Sess} {r : Call × Wait} (h : runningCall s x = some r) :
    (s.ses x).running.map (·.wait) = some r.2 := by
  obtain ⟨o, ho, rfl⟩ := Option.map_eq_some_iff.1 h
  rw [ho]
  rfl

/-- A commit of `commit` in force that ends is one answer to its line. -/
theorem finishCommit_answers (hcommit : s.commit = some c) (happlied : c.applied = some w) (hby : c.by_ = .line y)
    (hawaits : AwaitsCommit y q s) :
    ∃ k : Call, k.x = y ∧ k.line = q.line ∧
      finishCommit s = answer k (txt "ok commit @" ++ dec w.toNat) (c.finished y s) := by
  obtain ⟨-, hq, hwait, hothers⟩ := hawaits
  let k : Call := { x := y, line := q.line, word := (tokens q.line.body).headD [], tick := q.tick }
  have hk : runningCall s y = some (k, .commit) := by
    rw [runningCall, hq, ← hwait]
    rfl
  have hwaiters : waiters (c.finished y s) (commitWait c) = [(k, .commit)] := by
    refine waiters_single ((runningCall_finished y).trans hk) (by simp [commitWait_line hby]) fun z hz r hr => ?_
    rw [runningCall_finished] at hr
    rw [commitWait_line hby]
    exact beq_eq_false_iff_ne.2 fun h => hothers z hz (h ▸ wait_of_runningCall hr)
  have hreply : finishCommit s = commitReply c (txt "ok commit @" ++ dec w.toNat) (c.finished y s) := by
    simp only [finishCommit, hcommit, happlied, hby, commitOk]
    rfl
  refine ⟨k, rfl, rfl, ?_⟩
  rw [hreply, commitReply, hwaiters]
  rfl

/-- The end of a commit in force, with what it decides, and the reply of its line. -/
theorem finishCommit_ends (hcommit : s.commit = some c) (happlied : c.applied = some w) (hby : c.by_ = .line y)
    (hawaits : AwaitsCommit y q s) :
    (finishCommit s).decided = (c.finished y s).decided ∧ ((finishCommit s).ses y).running = none ∧
      lastLine ((finishCommit s).ses y) = some (frameReply q.line.frame (txt "ok commit @" ++ dec w.toNat) ++ crlf) := by
  have hopen : (s.ses y).isOpen = true := hawaits.1
  obtain ⟨k, rfl, hline, hanswer⟩ := finishCommit_answers hcommit happlied hby hawaits
  have hspec := answer_spec k (txt "ok commit @" ++ dec w.toNat) (c.finished k.x s) (by rw [ses_finished, if_pos rfl]; exact hopen)
  rw [hanswer, ← hline]
  exact ⟨decided_answer .., hspec⟩

end

theorem ses_framPick (s : State) (x : Sess) : (framPick s).ses x = s.ses x := by
  rw [framPick_only]; rfl

end Sys2Proof.Machine
end

section
/-! SUPPORT. The phases of a commit (Table 6-4): the rows that go on or end it, each by what the layers before say of its parts. -/

namespace Sys2Proof.Machine

open Sys2Proof.Safety

section
variable {s : State} {c : Commit} {r : FramReq}

/-- A complete image without a Peony side waits, and names the next tick where its record stands (R191). -/
theorem buildComplete_applyWait (hcommit : s.commit = some c) (hload : c.load = false) (hphase : c.phase = .build)
    (hrestart : s.host.restart = none) (hswitch : needsSwitch s c.ents = false)
    (hcan : s.recReady = false ∨ (s.ticking = true ∧ c.applied = none ∧ c.sw = none)) :
    exec (.commitBuildComplete ()) s = .next
      { s with commit := some { c with phase := .applyWait, sw := if s.recReady then some (s.tick + 1) else c.sw } } := by
  rw [buildComplete_waits hcommit hload hphase hrestart hswitch]
  have hrec := recReady_phase hcommit .applyWait
  cases hready : s.recReady with
  | false =>
    rw [buildReady_of_not_ready (hrec.trans hready)]
    rfl
  | true =>
    obtain ⟨hticks, happlied, hsw⟩ := hcan.resolve_left (by simp [hready])
    rw [buildReady_names (s := { s with commit := some { c with phase := .applyWait } }) rfl rfl hrestart (hrec.trans hready) hticks
      happlied hsw]
    rfl

/-- A record whose last transaction has been written stands whole (R190, R191, R198). -/
theorem record_stands (hcommit : s.commit = some c) (hrec : c.recOk = false) (hcur : s.fram.cur = some r) (hop : r.op = .record)
    (hleft : r.left ≤ 1) (hqueue : s.fram.queue = []) (hfram : s.fram.present = true)
    (hphase : c.phase = .build ∨
      (c.phase = .applyWait ∧ s.ticking = true ∧ s.host.restart = none ∧ c.applied = none ∧ c.sw = none)) :
    exec (.framTransactionDone true) s = .next { s with
      commit := some { c with recOk := true, gen := nextGen s, sw := if c.phase = .build then c.sw else some (s.tick + 1) },
      fram := { s.fram with cur := none, journal := s.fram.journal ++ [JRec.make (nextGen s) (recEntries c.ents) true] } } := by
  have hstands := recordDone_eq (s := s.portFree) hcommit hrec
  rw [transactionDone_completes hcur hleft hfram, hop, framDone, hstands]
  rcases hphase with hbuild | ⟨hwaits, hticks, hrestart, happlied, hsw⟩
  · have hidle := record_in_build (s := s.portFree.withRecord c true) (c := c.recorded s.portFree) rfl hbuild
    rw [hidle, framPick_idle (s := s.portFree.withRecord c true) rfl hqueue, if_pos hbuild, withRecord_portFree]
  · have hnames := record_names (s := s.portFree.withRecord c true) (c := c.recorded s.portFree) rfl hwaits rfl rfl hqueue hrestart
      hticks happlied hsw
    have hwaiting : c.phase ≠ .build := by rw [hwaits]; decide
    rw [hnames, framPick_idle (s := (s.portFree.withRecord c true).naming (c.recorded s.portFree)) rfl hqueue, if_neg hwaiting,
      withRecord_portFree]
    rfl

/-- A record whose write fails ends its commit, stands with a failing CRC, and is to be marked VOID (R198). -/
theorem record_fails (hcommit : s.commit = some c) (hcur : s.fram.cur = some r) (hop : r.op = .record)
    (hents : recEntries c.ents ≠ []) : ∃ t, exec (.framTransactionDone false) s = .next t ∧
      t.decided = { s.decided with
        commit := none, journal := s.fram.journal ++ [JRec.make (nextGen s) (recEntries c.ents) false] } ∧
      framBusy t (.mark 0x00 (nextGen s)) = true := by
  have habort : framFailed r.op s.portFree = abortCommit 45 (s.portFree.withRecord c false) := by
    rw [hop, ← leaveRecord_eq (s := s.portFree) hcommit]
    rfl
  have hwhole := recBegun_of_recOk (s.portFree.withRecord c false) (c := c.recorded s.portFree) rfl
  have htries : framTries r.op = some 1 := by rw [hop]; rfl
  have hrun := transactionDone_fails hcur htries (Nat.le_add_left 1 r.tries)
  rw [habort] at hrun
  refine ⟨_, hrun, ?_, ?_⟩
  · rw [decided_framPick, decided_abortCommit_of_not_begun rfl hwhole, decided_withRecord]
    rfl
  · exact framBusy_framPick (abortCommit_marks (c := c.recorded s.portFree) rfl rfl hents 45)

theorem ses_markRecord (st : Byte) (g : W32) (u : State) (x : Sess) : (markRecord st g u).ses x = u.ses x := by
  unfold markRecord
  split <;> rfl

theorem commit_markRecord (st : Byte) (g : W32) (u : State) : (markRecord st g u).commit = u.commit := by
  unfold markRecord
  split <;> rfl

/-- A DONE mark brings its generation into `stat.cfg.gen` and marks the PENDING record of that generation (R200). -/
theorem decided_markRecord_done (g : W32) (u : State) : (markRecord 0x33 g u).decided = { u.decided with
    prm := { u.prm with gen := g }
    journal := u.fram.journal.map fun j => if j.state = 0x11 ∧ j.gen = g then { j with state := 0x33 } else j } := by
  simp [markRecord, State.decided, State.count, State.ses]

/-- A DONE mark that is written ends a commit in force (R199, R200). -/
theorem mark_ends {w : W32} {y : Sess} {q : Running} (hcommit : s.commit = some c) (happlied : c.applied = some w)
    (hby : c.by_ = .line y) (hcur : s.fram.cur = some r) (hleft : r.left ≤ 1) (hop : r.op = .mark 0x33 c.gen)
    (hrestart : s.host.restart = none) (hawaits : AwaitsCommit y q s) (hfram : s.fram.present = true) :
    ∃ t, exec (.framTransactionDone true) s = .next t ∧
      t.decided = (c.finished y (markRecord 0x33 c.gen s)).decided ∧ (t.ses y).running = none ∧
      lastLine (t.ses y) = some (frameReply q.line.frame (txt "ok commit @" ++ dec w.toNat) ++ crlf) := by
  have hdone : framDone r.op s.portFree = finishCommit (markRecord 0x33 c.gen s.portFree) := by
    rw [hop]
    exact if_pos (by simp [markRecord, State.portFree, hrestart])
  have hmark : (markRecord 0x33 c.gen s.portFree).decided = (markRecord 0x33 c.gen s).decided := by
    rw [decided_markRecord_done, decided_markRecord_done]
    rfl
  have hses : ∀ x, (markRecord 0x33 c.gen s.portFree).ses x = s.ses x := ses_markRecord _ _ s.portFree
  have hu : (markRecord 0x33 c.gen s.portFree).commit = some c := (commit_markRecord ..).trans hcommit
  obtain ⟨hdecided, hrunning, hlast⟩ := finishCommit_ends hu happlied hby (awaitsCommit_of_ses hses hawaits)
  refine ⟨_, transactionDone_completes hcur hleft hfram, ?_, ?_, ?_⟩
  · rw [decided_framPick, hdone, hdecided, decided_finished, decided_finished, hmark]
  · rw [ses_framPick, hdone]; exact hrunning
  · rw [ses_framPick, hdone]; exact hlast

/-- A DONE mark that fails for the third time leaves a commit in force unsaved, and ends it all the same (R199). -/
theorem mark_fails {w : W32} {y : Sess} {q : Running} (hcommit : s.commit = some c) (happlied : c.applied = some w)
    (hby : c.by_ = .line y) (hcur : s.fram.cur = some r) (hop : r.op = .mark 0x33 c.gen) (hrestart : s.host.restart = none)
    (hawaits : AwaitsCommit y q s) (htries : r.tries = 2) :
    ∃ t, exec (.framTransactionDone false) s = .next t ∧
      t.decided = (c.finished y { s with prm := { s.prm with unsaved := true } }).decided ∧ (t.ses y).running = none := by
  have htries' : framTries r.op = some 3 := by rw [hop]; rfl
  have hlast : 3 ≤ r.tries + 1 := by omega
  have hfailed : framFailed r.op s.portFree =
      finishCommit (logAster 0x54 0 0 c.gen.toNat { s.portFree with prm := { s.prm with unsaved := true } }) := by
    rw [hop]
    exact if_pos (by simp [State.portFree, hrestart])
  have hrun := transactionDone_fails hcur htries' hlast
  rw [hfailed] at hrun
  generalize hv : ({ s.portFree with prm := { s.prm with unsaved := true } } : State) = v at hrun
  have hlog := logAster_only 0x54 0 0 c.gen.toNat v
  have hkept := decided_logAster v (k := 0x54) (by decide) 0 0 c.gen.toNat
  generalize logAster 0x54 0 0 c.gen.toNat v = u at hlog hkept hrun
  rw [← hv] at hlog hkept
  have hses : ∀ x, u.ses x = s.ses x := fun x => by rw [hlog]; rfl
  have hu : u.commit = some c := (congrArg Decided.commit hkept).trans hcommit
  obtain ⟨hdecided, hrunning, -⟩ := finishCommit_ends hu happlied hby (awaitsCommit_of_ses hses hawaits)
  refine ⟨_, hrun, ?_, ?_⟩
  · rw [decided_framPick, hdecided, decided_finished, decided_finished, hkept]
    rfl
  · rw [ses_framPick]; exact hrunning

end

/-- Settles O53: a clause for each phase and its end, over what the end of a commit decides. -/
theorem commitPhasesGoOn : Obligations.CommitPhasesGoOn := by
  unfold Obligations.CommitPhasesGoOn
  intro s
  refine ⟨fun c => buildComplete_applyWait, ?_, ?_, ?_, ?_, ?_, ?_, ?_, journalFold_not_due⟩
  · exact fun c hcommit hload hphase hrestart hswitch =>
      ⟨_, peonyBlocks_ne_nil s c.ents, buildComplete_streams hcommit hload hphase hrestart hswitch⟩
  · exact fun c r hcommit _ => record_stands hcommit
  · intro c r hcommit _ _ hcur hop _ hents
    obtain ⟨t, hrun, hdecided, hmark⟩ := record_fails hcommit hcur hop hents
    exact ⟨t, hrun, congrArg Decided.commit hdecided, congrArg Decided.prm hdecided, congrArg Decided.pe hdecided,
      congrArg Decided.journal hdecided, hmark, congrFun (congrArg Decided.staging hdecided)⟩
  · intro c hcommit hload hrestart hclosed hphase
    have hdecided := decided_abortCommit hcommit 31
    exact ⟨_, windowClose_aborts hcommit hload hrestart hclosed hphase, congrArg Decided.commit hdecided,
      congrArg Decided.prm hdecided, congrArg Decided.pe hdecided, congrArg Decided.journal hdecided,
      congrFun (congrArg Decided.staging hdecided), congrArg Decided.busyStage hdecided⟩
  · exact fun c w => windowClose_waits
  · intro c r w y q hcommit happlied hby hcur hleft _ hop hrestart hopen hq hwait hothers
    have hawaits : AwaitsCommit y q s := ⟨hopen, hq, hwait, hothers⟩
    constructor
    · intro hfram
      obtain ⟨t, hrun, hdecided, hrunning, hlast⟩ :=
        mark_ends hcommit happlied hby hcur hleft hop hrestart hawaits hfram
      rw [decided_finished, decided_markRecord_done] at hdecided
      have hstaging := (congrFun (congrArg Decided.staging hdecided) y).trans (if_pos rfl)
      exact ⟨t, hrun, congrArg Decided.commit hdecided, hstaging, hrunning, hlast, congrArg Decided.prm hdecided,
        congrArg Decided.commits hdecided, congrArg Decided.pe hdecided, congrArg Decided.journal hdecided⟩
    · intro htries
      obtain ⟨t, hrun, hdecided, hrunning⟩ := mark_fails hcommit happlied hby hcur hop hrestart hawaits htries
      rw [decided_finished] at hdecided
      have hstaging := (congrFun (congrArg Decided.staging hdecided) y).trans (if_pos rfl)
      exact ⟨t, hrun, congrArg Decided.commit hdecided, hstaging, hrunning, congrArg Decided.prm hdecided,
        congrArg Decided.journal hdecided, congrArg Decided.pe hdecided⟩
  · exact fun hdue => ⟨_, journalFold_due hdue, framAsk_busy .., portOnly_framAsk ..⟩

end Sys2Proof.Machine
end

section
/-! SUPPORT. What `pos.load`, `lat.arm` and `chg.retry` cause (R322, R339, R353, R466, R474, Table 12-5): the load of a position and the
motion that it aborts, the latch that is armed, and the charger that leaves ERROR when it qualifies. -/

namespace Sys2Proof.Machine

open Sys2Proof.Safety

/-! ### The load of a position (R322, R353) -/

section
variable (x : Axis) (s : State)

/-- Two states differ in positions, in the loop engine and in the motions at most. -/
def MotionOnly (s u : State) : Prop := u = { s with pos := u.pos, loop := u.loop, mot := u.mot }

theorem motionOnly_trans {s t u : State} (h : MotionOnly s t) (g : MotionOnly t u) : MotionOnly s u := by
  unfold MotionOnly at *
  rw [g, h]

theorem motionOnly_posLoad : MotionOnly s (posLoad x s) := rfl

theorem mot_posLoad : (posLoad x s).mot = s.mot := rfl

/-- The load sets the counter, clears the wrap counter and makes the position valid; events that wait keep their frame (R322, R343). -/
theorem pos_posLoad : (posLoad x s).pos.get x = { s.pos.get x with
    pos := BitVec.ofInt 32 (s.axp x 0x0B2), wrap := 0, valid := true, latWait := ((posLoad x s).pos.get x).latWait } := by
  cases x <;> rfl

/-- The load makes the run-time commutation offset invalid (R353). -/
theorem offRt_posLoad : ((posLoad x s).loop.get x).offRt = none := by
  simp [posLoad]

theorem posLoad_other {y : Axis} (h : y ≠ x) : (posLoad x s).pos.get y = s.pos.get y ∧ (posLoad x s).loop.get y = s.loop.get y := by
  simp [posLoad, reframe, Pair.get_mod_other _ _ h]

theorem motAbort_only : motAbort x s = { s with mot := (motAbort x s).mot } := by
  unfold motAbort
  split <;> rfl

theorem pos_motAbort : (motAbort x s).pos = s.pos := by rw [motAbort_only]

theorem loop_motAbort : (motAbort x s).loop = s.loop := by rw [motAbort_only]

theorem motAbort_other {y : Axis} (h : y ≠ x) : (motAbort x s).mot.get y = s.mot.get y := by
  unfold motAbort
  split
  · exact Pair.get_mod_other _ _ h
  · rfl

/-- A motion that aborts is STOPPING (Table 12-5). -/
theorem mot_motAbort (h : s.moving x = true) :
    ((motAbort x s).mot.get x).st = .stopping ∧ ((motAbort x s).mot.get x).aborting = true := by
  simp [motAbort, h, AxMot.toStop]

/-- The references of a motion move with a position that is loaded (log 30). -/
def AxMot.shifted (d : Int) (m : AxMot) : AxMot :=
  { m with ref := m.ref + (d : Rat), target := m.target + d, start := m.start + d, revTo := m.revTo + d }

/-- The load of a position with the references that move with it. -/
def State.posLoaded (s : State) (x : Axis) : State :=
  (posLoad x s).modMot x (AxMot.shifted (((posLoad x s).pos.get x).ext - (s.pos.get x).ext))

theorem posLoadAxis_eq : posLoadAxis x s = motAbort x (s.posLoaded x) := rfl

theorem motionOnly_posLoadAxis : MotionOnly s (posLoadAxis x s) := by
  have hshifted : MotionOnly (posLoad x s) (s.posLoaded x) := rfl
  have haborted : MotionOnly (s.posLoaded x) (posLoadAxis x s) := by
    rw [posLoadAxis_eq, motAbort_only]
    rfl
  exact motionOnly_trans (motionOnly_posLoad x s) (motionOnly_trans hshifted haborted)

theorem moving_posLoaded : (s.posLoaded x).moving x = s.moving x := by
  simp [State.moving, State.posLoaded, AxMot.shifted, mot_posLoad]

theorem posLoaded_other {y : Axis} (h : y ≠ x) : (s.posLoaded x).mot.get y = s.mot.get y := Pair.get_mod_other _ _ h

/-- What a load causes (R322, R353, Table 12-5). -/
theorem posLoad_acts : ∃ t, exec (.posLoad x) s = .next t ∧
    t.pos.get x = { s.pos.get x with
      pos := BitVec.ofInt 32 (s.axp x 0x0B2), wrap := 0, valid := true, latWait := (t.pos.get x).latWait } ∧
    t.pos.get (otherAxis x) = s.pos.get (otherAxis x) ∧ (t.loop.get x).offRt = none ∧
    t.loop.get (otherAxis x) = s.loop.get (otherAxis x) ∧ t.mot.get (otherAxis x) = s.mot.get (otherAxis x) ∧
    (s.moving x = true → (t.mot.get x).st = .stopping ∧ (t.mot.get x).aborting = true) ∧
    t = { s with pos := t.pos, loop := t.loop, mot := t.mot } := by
  have hne := otherAxis_ne x
  obtain ⟨hpos, hloop⟩ := posLoad_other x s hne
  have hposed : (posLoadAxis x s).pos = (posLoad x s).pos := pos_motAbort x (s.posLoaded x)
  have hlooped : (posLoadAxis x s).loop = (posLoad x s).loop := loop_motAbort x (s.posLoaded x)
  refine ⟨posLoadAxis x s, rfl, ?_, ?_, ?_, ?_, ?_, fun hmoving => ?_, motionOnly_posLoadAxis x s⟩
  · rw [hposed]; exact pos_posLoad x s
  · rw [hposed]; exact hpos
  · rw [hlooped]; exact offRt_posLoad x s
  · rw [hlooped]; exact hloop
  · exact (motAbort_other x _ hne).trans (posLoaded_other x s hne)
  · exact mot_motAbort x _ ((moving_posLoaded x s).trans hmoving)

end

/-! ### The arming of a latch (R339) -/

/-- A latch as an arming leaves it: its record stands, without its count and its `full` (R339). -/
def Latch.armedAnew (l : Latch) : Latch := { rcd := { l.rcd with count := 0, full := false }, armed := true }

/-- The latches of an axis after one of them is armed. -/
theorem lat_armLatch (ax : Axis) (n : Nat) (s : State) : ((armLatch ax n s).pos.get ax).lat =
    if n = 0 then ((s.pos.get ax).lat.1.armedAnew, (s.pos.get ax).lat.2)
    else ((s.pos.get ax).lat.1, (s.pos.get ax).lat.2.armedAnew) := by
  cases ax <;> rfl

theorem latch_armLatch_same (ax : Axis) (n : Nat) (s : State) :
    ((armLatch ax n s).pos.get ax).latch n = ((s.pos.get ax).latch n).armedAnew := by
  unfold AxPos.latch
  rw [lat_armLatch]
  split <;> rfl

theorem latch_armLatch_other (ax : Axis) (n : Fin 2) (s : State) :
    ((armLatch ax n.val s).pos.get ax).latch (1 - n.val) = (s.pos.get ax).latch (1 - n.val) := by
  unfold AxPos.latch
  rw [lat_armLatch]
  match n with
  | 0 => rfl
  | 1 => rfl

/-- The other latch of an axis keeps its record, and the latch that is armed keeps its record without its count and its `full` (R339). -/
theorem latchArm_acts (ax : Axis) (n : Fin 2) (s : State) : ∃ t, exec (.latchArm ax n) s = .next t ∧
    (t.pos.get ax).latch n.val = { rcd := { ((s.pos.get ax).latch n.val).rcd with count := 0, full := false }, armed := true } ∧
    (t.pos.get ax).latch (1 - n.val) = (s.pos.get ax).latch (1 - n.val) ∧
    t = s.modPos ax fun p => { p with lat := (t.pos.get ax).lat, latWait := p.latWait.filter fun w => w.n != n.val } := by
  refine ⟨armLatch ax n.val s, rfl, latch_armLatch_same .., latch_armLatch_other .., ?_⟩
  cases ax <;> rfl

/-! ### `chg.retry` (R466, log 15) -/

/-- The charger, and the parts that its changes of state leave. -/
structure Charging where
  chg : Charger
  pe : Peony
  prm : Params

/-- These of a state. -/
def State.charging (s : State) : Charging := { chg := s.chg, pe := s.pe, prm := s.prm }

section
variable {s : State}

theorem charging_when (c : Bool) {f : State → State} (h : ∀ s, (f s).charging = s.charging) (s : State) :
    (when_ c f s).charging = s.charging := by
  unfold when_
  split
  · exact h s
  · rfl

theorem charging_noticeTo (x : Sess) (c : Nat) (w : Text) (s : State) : (noticeTo x c w s).charging = s.charging := by
  unfold noticeTo
  split
  · exact charging_when _ (f := bump 0x783C) (fun _ => rfl) _
  · rfl

theorem charging_notice (c : Nat) (w : Text) (s : State) : (notice c w s).charging = s.charging := by
  refine keeps_forAll (fun x s => ?_) _ s
  split
  · exact charging_noticeTo x c w s
  · rfl

/-- A change of state is one of state and reason alone (R466). -/
theorem charging_chgGo (st : ChgState) (r : ChgReason) (s : State) :
    (chgGo st r s).charging = { s.charging with chg := { s.chg with st := st, reason := r } } := by
  unfold chgGo
  split
  · rename_i hsame
    simp only [Bool.and_eq_true, beq_iff_eq] at hsame
    obtain ⟨hst, hr⟩ := hsame
    rw [← hst, ← hr]
    rfl
  · dsimp only
    rw [charging_notice, logAster_only]
    rfl

/-- A charging state is entered with its timers at 0. -/
theorem charging_chgEnter (st : ChgState) (s : State) : (chgEnter st s).charging = { s.charging with chg := { s.chg with
    st := st, reason := .none, kept := st, tPre := 0, tAbsorb := 0, tRestart := 0, tLimit := 0, tBulk := 0, temps := [],
    slopes := 0 } } := by
  rw [chgEnter, charging_chgGo]
  rfl

/-- The charging state that a battery voltage qualifies for (R466). -/
def State.firstCharge (s : State) (v : Int) : ChgState :=
  if v < cellsOf s.set * s.chem.pre then .pre
  else if v < cellsOf s.set * s.chem.restart then .bulk
  else if s.par 0x4400 == 1 then .float else if s.par 0x4400 == 2 then .trickle else .done

theorem charging_firstCharge (s : State) (v : Int) : (s.firstCharge v).charging = true := by
  unfold State.firstCharge
  repeat' split
  all_goals rfl

theorem qualify_waits (h : vbat s = none) : qualify s = s := by
  unfold qualify
  rw [h]

theorem qualify_enters {v : Int} (h : vbat s = some v) : qualify s =
    chgEnter (s.firstCharge v) (s.modChg fun c => { c with qualify := false, tSafety := 0, clampMs := [] }) := by
  unfold qualify
  rw [h]
  rfl

/-- In ERROR nothing pauses. -/
theorem chgPause_of_error (h : s.chg.st = .error) : chgPause s = s := by
  unfold chgPause
  rw [h]
  rfl

/-- A charging state goes on, or it is paused and kept (R477). -/
theorem charging_chgPause (h : s.chg.st.charging = true) : (chgPause s).charging = s.charging ∨
    ∃ r, (chgPause s).charging = { s.charging with chg := { s.chg with kept := s.chg.st, st := .pause, reason := r } } := by
  unfold chgPause
  dsimp only
  split
  · rename_i hst; rw [hst] at h; cases h
  · rename_i hst; rw [hst] at h; cases h
  · split
    · exact .inr ⟨_, charging_chgGo ..⟩
    · exact .inl rfl

/-- A charger that has qualified: it is in no ERROR, and its safety timer begins (R466). -/
def Qualified (s t : State) : Prop :=
  t.chg.qualify = false ∧ t.chg.st ≠ .error ∧ t.chg.tSafety = 0 ∧ t.pe = s.pe ∧ t.prm = s.prm

theorem qualified_qualify {v : Int} (h : vbat s = some v) : (qualify s).chg.st.charging = true ∧ Qualified s (qualify s) := by
  rw [qualify_enters h]
  have henter := charging_chgEnter (s.firstCharge v) (s.modChg fun c => { c with qualify := false, tSafety := 0, clampMs := [] })
  have hchg := congrArg Charging.chg henter
  have hst := (congrArg (fun c => c.st.charging) hchg).trans (charging_firstCharge s v)
  refine ⟨hst, congrArg Charger.qualify hchg, fun herror => ?_, congrArg Charger.tSafety hchg, congrArg Charging.pe henter,
    congrArg Charging.prm henter⟩
  exact absurd (hst.symm.trans (congrArg ChgState.charging herror)) (by decide)

theorem qualified_chgPause {t : State} (hst : t.chg.st.charging = true) (h : Qualified s t) : Qualified s (chgPause t) := by
  obtain ⟨hqualify, herror, hsafety, hpe, hprm⟩ := h
  rcases charging_chgPause hst with hgoes | ⟨r, hpauses⟩
  · have hchg : (chgPause t).chg = t.chg := congrArg Charging.chg hgoes
    rw [← hchg] at hqualify herror hsafety
    exact ⟨hqualify, herror, hsafety, (congrArg Charging.pe hgoes).trans hpe, (congrArg Charging.prm hgoes).trans hprm⟩
  · have hchg : (chgPause t).chg = { t.chg with kept := t.chg.st, st := .pause, reason := r } := congrArg Charging.chg hpauses
    refine ⟨?_, ?_, ?_, (congrArg Charging.pe hpauses).trans hpe, (congrArg Charging.prm hpauses).trans hprm⟩
    · rw [hchg]; exact hqualify
    · rw [hchg]; nofun
    · rw [hchg]; exact hsafety

end

/-- `chg.retry` acts in ERROR alone (R466, log 15). -/
theorem chargerRetry_idle {s : State} (h : s.chg.st ≠ .error) : exec .chargerRetry s = .next s := by
  simp [exec, execChargerRetry, chgRetry, h]

/-- The charger is due to qualify (R466). -/
def State.toQualify (s : State) : State := s.modChg fun c => { c with qualify := true }

theorem requalify_eq (s : State) : requalify s =
    if s.host.restart.isSome || s.par 0x4400 == 0 || s.par 0x440F == 0 then s.toQualify else chgPause (qualify s.toQualify) := rfl

section
variable {s : State} (h : s.chg.st = .error)
include h

theorem chargerRetry_error : exec .chargerRetry s = .next (requalify s) := by
  simp [exec, execChargerRetry, chgRetry, h]

/-- In ERROR the charger waits to qualify where no battery voltage is reported, or its state machine does not run (R466, R474). -/
theorem requalify_waits (hwaits : vbat s = none ∨ s.host.restart.isSome = true ∨ s.par 0x4400 = 0 ∨ s.par 0x440F = 0) :
    requalify s = s.toQualify := by
  rw [requalify_eq]
  split
  · rfl
  · rename_i hruns
    have hvbat : vbat s.toQualify = none :=
      hwaits.resolve_right fun hstops => hruns (by simpa [or_assoc] using hstops)
    rw [qualify_waits hvbat]
    exact chgPause_of_error h

end

/-- With a battery voltage the charger qualifies at once, and pauses at once where a reason holds (R466, R468). -/
theorem requalify_qualifies {s : State} (hvbat : (vbat s).isSome = true) (hrestart : s.host.restart = none) (hchem : s.par 0x4400 ≠ 0)
    (hset : s.par 0x440F ≠ 0) : Qualified s (requalify s) := by
  obtain ⟨v, hv⟩ := Option.isSome_iff_exists.1 hvbat
  obtain ⟨hst, hqualified⟩ := qualified_qualify (s := s.toQualify) hv
  rw [requalify_eq, if_neg (by simp [hrestart, hchem, hset])]
  exact qualified_chgPause hst hqualified

end Sys2Proof.Machine
end

section
/-! SUPPORT. What `log.pin.release` and a written transmit buffer cause (R225, R531, R650), and what a snapshot read copies (R340,
R534, R731). -/

namespace Sys2Proof.Machine

open Sys2Proof.Safety

/-! ### `log.pin.release` (R650) -/

/-- A slot up to an LSEQ without its PIN (R650). -/
def unpinSlot (n : Nat) (r : Nat × RingSlot) : Nat × RingSlot :=
  if r.2.e.lseq ≤ n then (r.1, { r.2 with e := { r.2.e with pin := false } }) else r

/-- A slot that an LSEQ releases: it is pinned (R650). -/
abbrev Releases (n : Nat) (r : Nat × RingSlot) : Prop := r.2.e.pin = true ∧ r.2.e.lseq ≤ n

section
variable {n : Nat} {s : State}

theorem unpinSlot_of_not_releases {r : Nat × RingSlot} (h : ¬ Releases n r) : unpinSlot n r = r := by
  unfold unpinSlot
  split
  · rename_i hle
    have hpin : r.2.e.pin = false := Bool.eq_false_iff.2 fun hpin => h ⟨hpin, hle⟩
    rw [← hpin]
  · rfl

theorem pinsReleased_only : pinsReleased n s = { s with
    fram := { s.fram with ring := s.fram.ring.map (unpinSlot n) }
    log := { s.log with pinFull := (pinsReleased n s).log.pinFull } } := rfl

/-- Without a slot that it releases, the release asks nothing of FRAM; whether the pins are full is judged again. -/
theorem pinRelease_of_none (h : ∀ r ∈ s.fram.ring, ¬ Releases n r) :
    pinRelease n s = { s with log := { s.log with pinFull := (pinRelease n s).log.pinFull } } := by
  have hcount : (s.fram.ring.filter fun r => r.2.e.pin && r.2.e.lseq ≤ n).length = 0 := by
    simpa [List.filter_eq_nil_iff] using h
  have hrun : pinRelease n s = pinsReleased n s := if_pos hcount
  have hring : s.fram.ring.map (unpinSlot n) = s.fram.ring :=
    (List.map_congr_left fun r hr => unpinSlot_of_not_releases (h r hr)).trans (List.map_id _)
  rw [hrun, pinsReleased_only, hring]

/-- With a slot that it releases, the release asks FRAM for its writes (R103). -/
theorem pinRelease_of_some {r : Nat × RingSlot} (hr : r ∈ s.fram.ring) (h : Releases n r) :
    ∃ k, pinRelease n s = framAsk 2 (.pins n) k s := by
  have hcount : (s.fram.ring.filter fun r => r.2.e.pin && r.2.e.lseq ≤ n).length ≠ 0 :=
    Nat.ne_of_gt (List.length_pos_of_mem (List.mem_filter.2 ⟨hr, by simpa using h⟩))
  exact ⟨_, if_neg hcount⟩

end

/-- The write of `log.pin.release` (R650). -/
def State.releaseWritten (s : State) (n : W32) : State := { s with prm := { s.prm with now := storePut s.prm.now 0x6801 n.toNat } }

theorem par_releaseWritten (n : W32) {i : Nat} (h : i ≠ 0x6801) (s : State) : (s.releaseWritten n).par i = s.par i := by
  simp only [State.par, State.releaseWritten, storeGet_storePut_other h]

/-- What the release causes: the writes of the slots that it releases, if there are any (R650). -/
theorem logPinRelease_acts (n : W32) (s : State) : ∃ t, exec (.logPinRelease n) s = .next t ∧ t.fram.ring = s.fram.ring ∧
    (∀ i, i ≠ 0x6801 → t.par i = s.par i) ∧
    ((∃ r ∈ s.fram.ring, Releases n.toNat r) → framBusy t (.pins n.toNat) = true ∧ t.log = s.log) ∧
    t = { s with prm := t.prm, cnt := t.cnt, fram := { s.fram with queue := t.fram.queue, cur := t.fram.cur },
                 log := { s.log with pinFull := t.log.pinFull } } := by
  refine ⟨pinRelease n.toNat (s.releaseWritten n), rfl, ?_⟩
  by_cases hany : ∃ r ∈ s.fram.ring, Releases n.toNat r
  · obtain ⟨r, hr, hreleases⟩ := hany
    obtain ⟨k, hask⟩ := pinRelease_of_some (s := s.releaseWritten n) hr hreleases
    have hport := portOnly_framAsk 2 (.pins n.toNat) k (s.releaseWritten n)
    have hbusy := framAsk_busy 2 (.pins n.toNat) k (s.releaseWritten n)
    rw [hask]
    generalize framAsk 2 (.pins n.toNat) k (s.releaseWritten n) = t at hport hbusy
    unfold PortOnly at hport
    refine ⟨by rw [hport]; rfl, fun i hi => ?_, fun _ => ⟨hbusy, by rw [hport]; rfl⟩, by rw [hport]; rfl⟩
    rw [← par_releaseWritten n hi s, hport]
    rfl
  · have hnone := pinRelease_of_none (n := n.toNat) (s := s.releaseWritten n) fun r hr hreleases => hany ⟨r, hr, hreleases⟩
    generalize pinRelease n.toNat (s.releaseWritten n) = t at hnone
    refine ⟨by rw [hnone]; rfl, fun i hi => ?_, fun h => absurd h hany, by rw [hnone]; rfl⟩
    rw [← par_releaseWritten n hi s, hnone]
    rfl

/-! ### Transmit buffers (R225, R531) -/

/-- Written words reach the back copy of their transmit buffer and no other buffer. -/
theorem txBufferWrite_acts (k : Fin 4) {words : List (Fin 8 × W32)} {b : TxBuf} {s : State} (hwords : words ≠ [])
    (hb : s.bus.tx[k.val]? = some b) : ∃ t, exec (.txBufferWrite k words) s = .next t ∧
      t.bus.tx[k.val]? = some { b with back := words.foldl (fun l w => l.set w.1.val w.2) b.back, fresh := true } ∧
      (∀ i, i ≠ k.val → t.bus.tx[i]? = s.bus.tx[i]?) ∧ t = { s with bus := { s.bus with tx := t.bus.tx } } := by
  have hput : exec (.txBufferWrite k words) s = .next (s.modBus fun b => { b with tx := b.tx.modify k.val fun t =>
      { t with back := (words.map fun w => (w.1.val, w.2)).foldl (fun l w => l.set w.1 w.2) t.back, fresh := true } }) :=
    congrArg Host.Outcome.next (if_neg (by simpa using hwords))
  refine ⟨_, hput, ?_, fun i hi => ?_, rfl⟩
  · simp [hb, List.foldl_map]
  · simp [hi.symm]

/-! ### Snapshots (R340, R534, R731) -/

section
variable {x : Sess} {s : State}

theorem latchSnapshotRead_acts (hopen : (s.ses x).isOpen = true) (ax : Axis) (n : Fin 2) :
    ∃ t, exec (.latchSnapshotRead x ax n) s = .next t ∧ OnlySession x s t ∧
      t.ses x = { s.ses x with latSnap := (t.ses x).latSnap } ∧
      (if n.val = 0 then ((t.ses x).latSnap.get ax).1 else ((t.ses x).latSnap.get ax).2) = some ((s.pos.get ax).latch n.val).rcd ∧
      (t.ses x).latSnap.get (otherAxis ax) = (s.ses x).latSnap.get (otherAxis ax) := by
  refine ⟨latSnapshot x ax n.val s, congrArg Host.Outcome.next (if_pos hopen), modSes_only .., ?_⟩
  rw [latSnapshot, State.ses_modSes]
  refine ⟨rfl, ?_, Pair.get_mod_other _ _ (otherAxis_ne ax)⟩
  rw [Pair.get_mod_same]
  split <;> rfl

theorem motionRecordSnapshot_acts (hopen : (s.ses x).isOpen = true) (ax : Axis) :
    ∃ t, exec (.motionRecordSnapshot x ax) s = .next t ∧ OnlySession x s t ∧
      t.ses x = { s.ses x with recSnap := (t.ses x).recSnap } ∧ (t.ses x).recSnap.get ax = some (s.mot.get ax).recs ∧
      (t.ses x).recSnap.get (otherAxis ax) = (s.ses x).recSnap.get (otherAxis ax) := by
  refine ⟨recSnapshot x ax s, congrArg Host.Outcome.next (if_pos hopen), modSes_only .., ?_⟩
  rw [recSnapshot, State.ses_modSes]
  exact ⟨rfl, Pair.get_mod_same .., Pair.get_mod_other _ _ (otherAxis_ne ax)⟩

/-- A read of a receive buffer takes its view into the place of the session's snapshot of it, and no other snapshot (R534). -/
theorem rxBufferSnapshot_acts (hopen : (s.ses x).isOpen = true) {k : Fin 8} {b : RxBuf} (hb : s.bus.rx[k.val]? = some b) :
    ∃ t, exec (.rxBufferSnapshot x k) s = .next t ∧ OnlySession x s t ∧
      t.ses x = { s.ses x with rxSnap := (t.ses x).rxSnap } ∧
      ((t.ses x).rxSnap.find? fun p => p.1 == k.val) = some (k.val, b.view) ∧
      ∀ j, j ≠ k.val → ((t.ses x).rxSnap.find? fun p => p.1 == j) = (s.ses x).rxSnap.find? fun p => p.1 == j := by
  have hread : rxSnapshot x k.val s = s.modSes x fun se =>
      { se with rxSnap := (se.rxSnap.filter fun p => p.1 != k.val) ++ [(k.val, b.view)] } := by
    unfold rxSnapshot
    rw [hb]
  refine ⟨rxSnapshot x k.val s, congrArg Host.Outcome.next (if_pos hopen), ?_⟩
  rw [hread]
  refine ⟨modSes_only .., ?_⟩
  rw [State.ses_modSes]
  refine ⟨rfl, ?_, fun j hj => ?_⟩
  · have hgone : ((s.ses x).rxSnap.filter fun p => p.1 != k.val).find? (fun p => p.1 == k.val) = none :=
      List.find?_eq_none.2 (by simp)
    simp [List.find?_append, hgone]
  · have htest : (fun p : Nat × RxView => decide ((p.1 != k.val) = true ∧ (p.1 == j) = true)) = fun p => p.1 == j := by
      funext p
      by_cases hp : p.1 = j <;> simp [hp, hj]
    rw [List.find?_append, List.find?_filter, htest]
    simp [hj.symm]

end

/-! ### The statement -/

/-- Settles O18: a clause for each parameter write, and one for each snapshot. -/
theorem writtenEffectsAndSnapshotsAct : Obligations.WrittenEffectsAndSnapshotsAct := by
  unfold Obligations.WrittenEffectsAndSnapshotsAct
  refine ⟨fun s => ⟨fun ax => posLoad_acts ax s, fun ax n => latchArm_acts ax n s, chargerRetry_idle, fun herror => ?_,
    fun n => ?_, fun k words b => txBufferWrite_acts k⟩, fun x s hopen =>
    ⟨latchSnapshotRead_acts hopen, fun k b => rxBufferSnapshot_acts hopen, motionRecordSnapshot_acts hopen⟩⟩
  · exact ⟨_, chargerRetry_error herror, requalify_waits herror, requalify_qualifies⟩
  · exact logPinRelease_acts n s

end Sys2Proof.Machine
end

section
/-! SUPPORT. The tunnels of the bus (R235, R236, R545-R548): what a change of a tunnel leaves, the frame that is the next one of its node,
and the state that each kind of frame leads to. -/

namespace Sys2Proof.Machine

open Sys2Proof.Safety

/-! ### The tunnel with a node -/

/-- Two states differ in the tunnels of the bus at most. -/
def TunOnly (s u : State) : Prop := u = { s with bus := { s.bus with tun := u.bus.tun } }

section
variable {s t u : State} {p : Nat}

theorem tunOnly_trans (h : TunOnly s t) (g : TunOnly t u) : TunOnly s u := by
  unfold TunOnly at *
  rw [g, h]

theorem ses_of_tunOnly (h : TunOnly s u) (x : Sess) : u.ses x = s.ses x := by rw [h]; rfl

theorem remoteFor_of_tunOnly (h : TunOnly s u) (p : Nat) : remoteFor p u = remoteFor p s := by rw [h]; rfl

theorem restart_of_tunOnly (h : TunOnly s u) : u.host.restart = s.host.restart := by rw [h]

theorem freeSession_of_tunOnly (h : TunOnly s u) : freeSession u = freeSession s := by rw [h]; rfl

theorem standing_of_tunOnly (h : TunOnly s u) : u.standing = s.standing := by rw [h]; rfl

/-- A change of a tunnel that stands changes it where it stands. -/
theorem modTunnel_of_some {q : Tunnel} (h : s.tunnel p = some q) (f : Tunnel → Tunnel) : modTunnel p f s =
    s.modBus fun b => { b with tun := b.tun.map fun t => if t.peer == p then f t else t } := by
  have hstands : s.bus.tun.any (fun t => t.peer == p) = true :=
    List.any_eq_true.2 (List.find?_isSome.1 (Option.isSome_of_eq_some h))
  exact congrArg (fun b => ({ s with bus := b } : State)) (if_pos hstands)

/-- A change of a tunnel that does not stand makes it (R547). -/
theorem modTunnel_of_none (h : s.tunnel p = none) (f : Tunnel → Tunnel) : modTunnel p f s =
    s.modBus fun b => { b with tun := b.tun ++ [f (Tunnel.fresh p)] } := by
  have hmissing : ¬ s.bus.tun.any (fun t => t.peer == p) = true := fun hany =>
    Option.not_isSome_iff_eq_none.2 h (List.find?_isSome.2 (List.any_eq_true.1 hany))
  exact congrArg (fun b => ({ s with bus := b } : State)) (if_neg hmissing)

theorem tunOnly_modTunnel (p : Nat) (f : Tunnel → Tunnel) (s : State) : TunOnly s (modTunnel p f s) := by
  cases h : s.tunnel p with
  | none => rw [modTunnel_of_none h]; rfl
  | some q => rw [modTunnel_of_some h]; rfl

/-- The tunnel with a node is as its change makes it, from a fresh one where there was none. -/
theorem tunnel_modTunnel {f : Tunnel → Tunnel} (hpeer : ∀ q, (f q).peer = q.peer) (s : State) :
    (modTunnel p f s).tunnel p = some (f ((s.tunnel p).getD (Tunnel.fresh p))) := by
  cases h : s.tunnel p with
  | none =>
    have hfresh : (f (Tunnel.fresh p)).peer = p := hpeer _
    have hfind : s.bus.tun.find? (fun t => t.peer == p) = none := h
    rw [modTunnel_of_none h]
    simp [State.tunnel, hfind, hfresh]
  | some q =>
    have hfind : s.bus.tun.find? (fun t => t.peer == p) = some q := h
    have hq : q.peer = p := by simpa using List.find?_some hfind
    have htest : ((fun t : Tunnel => t.peer == p) ∘ fun t => if t.peer == p then f t else t) = fun t => t.peer == p := by
      funext t
      simp only [Function.comp_apply]
      split
      · rw [hpeer]
      · rfl
    rw [modTunnel_of_some h]
    simp only [State.tunnel, State.modBus_bus, List.find?_map, htest, hfind]
    simp [hq]

/-- What changes of the tunnels around a change of one session leave. -/
theorem kept_around_modSes {x : Sess} {f : Session → Session} (h : TunOnly s t) (g : TunOnly (t.modSes x f) u) :
    u.ses x = f (s.ses x) ∧ OthersKept x s u ∧ u = { s with sess := u.sess, bus := { s.bus with tun := u.bus.tun } } := by
  refine ⟨?_, fun y hy => ?_, ?_⟩
  · rw [ses_of_tunOnly g, State.ses_modSes, ses_of_tunOnly h]
  · rw [ses_of_tunOnly g, State.ses_modSes_other t f hy, ses_of_tunOnly h]
  · unfold TunOnly at *
    rw [g, h]
    rfl

/-! ### Frames -/

/-- Without a frame in flight an acknowledgement changes nothing (R547). -/
theorem tunAck_idle (h : ∀ q, s.tunnel p = some q → q.unack = none) (tack : Byte) : tunAck p tack s = s := by
  unfold tunAck
  split
  · rfl
  · rename_i q hq
    rw [h q hq]

/-- The acknowledgement of a frame other than CLOSE ends its flight (R547). -/
theorem tunAck_covers {q : Tunnel} {f : Nat × Nat × Bool × List Byte} (hq : s.tunnel p = some q) (hf : q.unack = some f)
    (hkind : f.1 ≠ 4) : tunAck p q.txSeq s =
      modTunnel p (fun t => { t with unack := none, at_ := s.etime }) s := by
  simp [tunAck, hq, hf, hkind]

/-- A frame with the next TSEQ has been taken: its acknowledgement is due (R547). -/
def State.tunTook (s : State) (p : Nat) (tseq : Byte) : State := modTunnel p (fun t => { t with rxSeq := tseq, due := true }) s

theorem tunOnly_tunTook (s : State) (p : Nat) (tseq : Byte) : TunOnly s (s.tunTook p tseq) := tunOnly_modTunnel ..

theorem tunnel_tunTook {q : Tunnel} (hq : s.tunnel p = some q) (tseq : Byte) :
    (s.tunTook p tseq).tunnel p = some { q with rxSeq := tseq, due := true } := by
  simp [State.tunTook, tunnel_modTunnel, hq]

theorem etime_tunTook (s : State) (p : Nat) (tseq : Byte) : (s.tunTook p tseq).etime = s.etime := rfl

section
variable {q : Tunnel} (hlive : s.busLive = true) (hon : s.bus.st ≠ .off) (hq : s.tunnel p = some q) (hidle : q.unack = none)
  {tseq : Byte} (hnext : tseq = q.rxSeq + 1)
include hlive hon hq hidle hnext

/-- The next frame of a node is taken (R547). -/
theorem tunFrame_next (tack : Byte) (take : State → State) :
    tunFrame p tseq tack take s = take (s.tunTook p tseq) := by
  have hack : tunAck p tack s = s := tunAck_idle (fun r hr => by rw [Option.some.inj (hr.symm.trans hq)]; exact hidle) tack
  simp [tunFrame, hlive, hon, hack, hq, hnext, State.tunTook]

end

/-! ### LINE (R545, R547, R548) -/

/-- The first LINE of a node has been taken (R548, log 68). -/
def State.lineTook (s : State) (p : Nat) (tseq : Byte) : State :=
  modTunnel p (fun t => { t with rxSeq := tseq, due := true, acc := [] }) s

/-- A free session has been opened for the node whose first LINE has been taken (R548). -/
def State.tunOpened (s : State) (p : Nat) (x : Sess) (tseq : Byte) : State :=
  modTunnel p (fun t => { t with sess := some x }) (openSession x p (s.lineTook p tseq))

theorem tunnel_tunOpened (hnew : s.tunnel p = none) (x : Sess) (tseq : Byte) :
    (s.tunOpened p x tseq).tunnel p = some { Tunnel.fresh p with rxSeq := tseq, due := true, sess := some x } := by
  have htook : (s.lineTook p tseq).tunnel p = some { Tunnel.fresh p with rxSeq := tseq, due := true } := by
    simp [State.lineTook, tunnel_modTunnel, hnew, Tunnel.fresh]
  have hopened : (openSession x p (s.lineTook p tseq)).tunnel p = _ := htook
  simp [State.tunOpened, tunnel_modTunnel, hopened]

/-- A fragment that is not the last one of its line joins the text of its session (R548). -/
theorem lineFragment_joins {q : Tunnel} {x : Sess} (hq : s.tunnel p = some q) (hx : q.sess = some x) (hreceives : s.receives = true)
    (bs : List Byte) : TunOnly s (lineFragment p false bs s) ∧
      (lineFragment p false bs s).tunnel p = some { q with acc := q.acc ++ unpad bs } := by
  have hjoins : lineFragment p false bs s = modTunnel p (fun t => { t with acc := q.acc ++ unpad bs }) s := by
    simp [lineFragment, hq, hx, hreceives]
  rw [hjoins]
  exact ⟨tunOnly_modTunnel .., by simp [tunnel_modTunnel, hq]⟩

section
variable {n : Fin 32} (hlive : s.busLive = true) (hon : s.bus.st ≠ .off)
include hlive hon

/-- The first LINE of a node opens the free session and is the first text of it (R548). -/
theorem tunnelLine_opens {x : Sess} (hnew : s.tunnel n.val = none) (hfree : freeSession s = some x) (tseq tack : Byte) (bs : List Byte) :
    exec (.tunnelLine n 0 false tseq tack bs) s = .next (lineFragment n.val false bs (s.tunOpened n.val x tseq)) := by
  have hack : tunAck n.val tack s = s := tunAck_idle (by simp [hnew]) tack
  have hfree' : freeSession (s.lineTook n.val tseq) = some x := (freeSession_of_tunOnly (tunOnly_modTunnel ..)).trans hfree
  simp only [State.tunOpened, State.lineTook] at hfree' ⊢
  simp [exec, execTunnelLine, hlive, hon, hnew, hack, hfree']

/-- The first LINE of a node for which no session is free is refused (R548). -/
theorem tunnelLine_refuses (hnew : s.tunnel n.val = none) (hfull : freeSession s = none) (tseq tack : Byte) (bs : List Byte) :
    exec (.tunnelLine n 0 false tseq tack bs) s = .next
      (modTunnel n.val (fun t => { t with sess := none, queue := t.queue ++ [(5, 0, true, [])] }) (s.lineTook n.val tseq)) := by
  have hack : tunAck n.val tack s = s := tunAck_idle (by simp [hnew]) tack
  have hfull' : freeSession (s.lineTook n.val tseq) = none := (freeSession_of_tunOnly (tunOnly_modTunnel ..)).trans hfull
  simp only [State.lineTook] at hfull' ⊢
  simp [exec, execTunnelLine, hlive, hon, hnew, hack, hfull']

/-- The next LINE of a node whose session is open is a fragment of it (R548). -/
theorem tunnelLine_goesOn {q : Tunnel} {x : Sess} (hq : s.tunnel n.val = some q) (hx : q.sess = some x)
    (hopen : (s.ses x).isOpen = true) (hpeer : (s.ses x).peer = some n.val) (hidle : q.unack = none) (idx : BitVec 4) (tack : Byte)
    (bs : List Byte) : exec (.tunnelLine n idx false (q.rxSeq + 1) tack bs) s =
      .next (lineFragment n.val false bs (s.tunTook n.val (q.rxSeq + 1))) := by
  rw [← tunFrame_next hlive hon hq hidle rfl tack (lineFragment n.val false bs)]
  simp [exec, execTunnelLine, hlive, hon, hq, hx, hopen, hpeer]

end

/-! ### Replies of the remote node (R236, R548) -/

/-- The line that waits for a remote node is one of session H. -/
theorem remoteFor_host {k : Call} (h : remoteFor p s = some k) : k.x = .h := by
  unfold remoteFor at h
  split at h
  · rename_i c hcall
    split at h
    · obtain ⟨r, hr, rfl⟩ := Option.map_eq_some_iff.1 hcall
      have hmem := List.mem_of_mem_head? hr
      rw [← Option.some.inj h]
      simpa using (List.mem_filter.1 hmem).2
    · cases h
  · cases h

/-- A reply of the remote node is whole: the text of the tunnel begins anew (R548). -/
def State.replyTook (s : State) (p : Nat) (tseq : Byte) : State :=
  modTunnel p (fun t => { t with acc := [], at_ := s.etime }) (s.tunTook p tseq)

theorem tunOnly_replyTook (s : State) (p : Nat) (tseq : Byte) : TunOnly s (s.replyTook p tseq) :=
  tunOnly_trans (tunOnly_tunTook s p tseq) (tunOnly_modTunnel ..)

section
variable {q : Tunnel} (hlive : s.busLive = true) (hon : s.bus.st ≠ .off) (hq : s.tunnel p = some q) (hidle : q.unack = none)
  {tseq : Byte} (hnext : tseq = q.rxSeq + 1)
include hlive hon hq hidle hnext

/-- The last fragment of the reply that a line waits for answers it, or is a data line of it (R548). -/
theorem replyFragment_answers {k : Call} {body : Text} {bs : List Byte} (hk : remoteFor p s = some k) (hroom : 164 ≤ (s.ses .h).free)
    (hrestart : s.host.restart = none) (hbody : remoteText q.want (bytesText (q.acc ++ unpad bs)) = some body) (fin : Bool) (tack : Byte) :
    replyFragment p fin true tseq tack bs s =
      if fin then answer k body (s.replyTook p tseq) else dataText k body (s.replyTook p tseq) := by
  have htook := tunnel_tunTook hq tseq
  have hcalm : (s.tunTook p tseq).host.restart = none := (restart_of_tunOnly (tunOnly_tunTook ..)).trans hrestart
  have hwaits : remoteFor p (s.replyTook p tseq) = some k := (remoteFor_of_tunOnly (tunOnly_replyTook ..) p).trans hk
  unfold replyFragment
  rw [tunFrame_next hlive hon hq hidle hnext]
  simp only [State.replyTook] at hwaits ⊢
  simp [htook, hcalm, hwaits, hbody, hroom, etime_tunTook]

/-- The last fragment of a final reply that no line waits for is counted (R236, log 70). -/
theorem replyFragment_late {bs : List Byte} (hk : remoteFor p s = none) (hrestart : s.host.restart = none) (tack : Byte) :
    replyFragment p true true tseq tack bs s = bump 0x7856 (s.replyTook p tseq) := by
  have htook := tunnel_tunTook hq tseq
  have hcalm : (s.tunTook p tseq).host.restart = none := (restart_of_tunOnly (tunOnly_tunTook ..)).trans hrestart
  have hnobody : remoteFor p (s.replyTook p tseq) = none := (remoteFor_of_tunOnly (tunOnly_replyTook ..) p).trans hk
  unfold replyFragment
  rw [tunFrame_next hlive hon hq hidle hnext]
  simp only [State.replyTook] at hnobody ⊢
  simp [htook, hcalm, hnobody, hk, etime_tunTook]

end

/-- A data line goes into the output of its session, and its line runs on. -/
theorem running_emit (x : Sess) (w : W32) (r : Text) (s : State) : ((emit x w r s).ses x).running = (s.ses x).running := by
  have hplaced : ∀ (ns : List Notice) (se : Session), (ns.foldl placeNotice se).running = se.running := by
    intro ns
    induction ns with
    | nil => exact fun _ => rfl
    | cons n ns ih => exact fun se => ih (placeNotice se n)
  unfold emit
  split
  · rw [State.ses_modSes]
  · rw [State.ses_modSes]
    exact hplaced ..

/-- A data line of a line in progress stands last in the output of its session, and the line runs on (R149). -/
theorem dataText_spec (k : Call) (r : Text) (s : State) : OnlySession k.x s (dataText k r s) ∧
    lastLine ((dataText k r s).ses k.x) = some (frameReply k.line.frame r ++ crlf) ∧
    ((dataText k r s).ses k.x).running = (s.ses k.x).running :=
  ⟨onlySession_trans (modSes_only k.x _ s) (emit_only ..), emit_last .., by rw [dataText, running_emit, State.ses_modSes]⟩

theorem standing_of_onlySession {x : Sess} (h : OnlySession x s t) : t.standing = s.standing := by
  have hsess : t = { s with sess := t.sess } := h.1
  rw [hsess]
  rfl

theorem tunnel_of_onlySession {x : Sess} (h : OnlySession x s t) (p : Nat) : t.tunnel p = s.tunnel p := by
  have hsess : t = { s with sess := t.sess } := h.1
  rw [hsess]
  rfl

/-- What a change of the tunnels and then of one session leaves. -/
theorem kept_of_tunOnly_onlySession {x : Sess} (h : TunOnly s t) (g : OnlySession x t u) :
    OthersKept x s u ∧ u.pe = s.pe ∧ u.prm = s.prm := by
  have hstands : u.standing = s.standing := (standing_of_onlySession g).trans (standing_of_tunOnly h)
  exact ⟨fun y hy => (g.2 y hy).trans (ses_of_tunOnly h y), congrArg Standing.pe hstands, congrArg Standing.prm hstands⟩

/-- The answer of the line that waits for a remote node ends it, after changes of the tunnels (R548). -/
theorem answer_remote {k : Call} (hk : remoteFor p s = some k) (hopen : (s.ses .h).isOpen = true) (h : TunOnly s u) (r : Text) :
    ((answer k r u).ses .h).running = none ∧ lastLine ((answer k r u).ses .h) = some (frameReply k.line.frame r ++ crlf) ∧
      OthersKept .h s (answer k r u) ∧ (answer k r u).pe = s.pe ∧ (answer k r u).prm = s.prm := by
  have hhost := remoteFor_host hk
  have honly := answer_only k r u
  obtain ⟨hrunning, hlast⟩ := answer_spec k r u (by rw [hhost, ses_of_tunOnly h]; exact hopen)
  rw [hhost] at honly hrunning hlast
  exact ⟨hrunning, hlast, kept_of_tunOnly_onlySession h honly⟩

/-! ### CLOSE and REFUSE (R235, R545, R547, R548) -/

/-- A tunnel session that closes is closed; without a line whose turn has ended before its work, its staging set goes (R171, R235). -/
theorem closeSession_closes (x : Sess) (s : State) : ((closeSession x s).ses x).isOpen = false ∧
    ((∀ r, (s.ses x).running = some r → r.wait ≠ .turn) → ((closeSession x s).ses x).staging = []) ∧
    OthersKept x s (closeSession x s) ∧ (closeSession x s).standing = s.standing := by
  refine ⟨?_, fun hturn => ?_, fun y hy => State.ses_modSes_other _ _ hy, rfl⟩
  · unfold closeSession
    rw [State.ses_modSes]
    dsimp only
    split <;> rfl
  · unfold closeSession
    rw [State.ses_modSes]
    dsimp only
    split
    · rename_i hlate
      obtain ⟨r, hr, hwait⟩ := (Option.any_eq_true _ _).1 hlate
      have hrun : (s.ses x).running = some r := (Option.filter_eq_some_iff.1 hr).1
      split at hwait
      · rename_i hw
        exact absurd hw (hturn r hrun)
      · cases hwait
    · rfl

/-- The tunnel serves no session any more (R235). -/
def State.tunLeft (s : State) (p : Nat) : State := modTunnel p (fun t => { t with sess := none, queue := [], acc := [] }) s

theorem tunnel_tunLeft (s : State) (p : Nat) : ∃ u, (s.tunLeft p).tunnel p = some u ∧ u.sess = none := by
  simp [State.tunLeft, tunnel_modTunnel]

section
variable {n : Fin 32} (hlive : s.busLive = true) (hon : s.bus.st ≠ .off)
include hlive hon

/-- CLOSE of the node that has opened a tunnel closes its session (R235, R545). -/
theorem tunnelClose_closes {q : Tunnel} {x : Sess} (hq : s.tunnel n.val = some q) (hx : q.sess = some x) (hidle : q.unack = none)
    {tseq : Byte} (hnext : tseq = q.rxSeq + 1) (tack : Byte) :
    exec (.tunnelClose n tseq tack) s = .next ((closeSession x (s.tunTook n.val tseq)).tunLeft n.val) := by
  have htook := tunnel_tunTook hq tseq
  simp only [exec, execTunnelClose]
  rw [tunFrame_next hlive hon hq hidle hnext]
  simp [hq, htook, hx, State.tunLeft]

/-- CLOSE without a tunnel is acknowledged all the same (R547). -/
theorem tunnelClose_acknowledged (hnew : s.tunnel n.val = none) (tseq tack : Byte) :
    exec (.tunnelClose n tseq tack) s = .next (s.tunTook n.val tseq) := by
  simp [exec, execTunnelClose, hlive, hon, hnew, State.tunTook]

/-- A REFUSE has been taken: the tunnel is not open (R548). -/
def State.refused (s : State) (p : Nat) : State := modTunnel p (fun t => { t with opened := false, queue := [], seq := 0 }) s

/-- REFUSE answers the line that waits for its node (R548). -/
theorem tunnelRefuse_fails {q : Tunnel} {k : Call} (hq : s.tunnel n.val = some q) (hidle : q.unack = none)
    (hk : remoteFor n.val s = some k) (hrestart : s.host.restart = none) {tseq : Byte} (hnext : tseq = q.rxSeq + 1) (tack : Byte) :
    exec (.tunnelRefuse n tseq tack) s = .next (answer k (errText 63 none) ((s.tunTook n.val tseq).refused n.val)) := by
  have honly : TunOnly s ((s.tunTook n.val tseq).refused n.val) := tunOnly_trans (tunOnly_tunTook ..) (tunOnly_modTunnel ..)
  have hwaits : remoteFor n.val ((s.tunTook n.val tseq).refused n.val) = some k := (remoteFor_of_tunOnly honly _).trans hk
  have hcalm : ((s.tunTook n.val tseq).refused n.val).host.restart = none := (restart_of_tunOnly honly).trans hrestart
  simp only [exec, execTunnelRefuse]
  rw [tunFrame_next hlive hon hq hidle hnext]
  simp only [State.refused] at hwaits hcalm ⊢
  simp [hwaits, hcalm, fail]

end

end

end Sys2Proof.Machine
end

section
/-! SUPPORT. What each frame of a tunnel leaves (R235, R236, R545-R548): the session that it opens, joins or closes, and the line of
session H that it answers. -/

namespace Sys2Proof.Machine

open Sys2Proof.Safety

/-! ### What the rows leave -/

section
variable {s : State} {n : Fin 32} (hlive : s.busLive = true) (hon : s.bus.st ≠ .off)
include hlive hon

/-- The first LINE of a node opens a session at USER with its text (R545, R548). -/
theorem firstLine_opens {x : Sess} (hnew : s.tunnel n.val = none) (hfree : freeSession s = some x) (hreceives : s.receives = true)
    (tseq tack : Byte) (bs : List Byte) : ∃ t, exec (.tunnelLine n 0 false tseq tack bs) s = .next t ∧
      (t.ses x).isOpen = true ∧ (t.ses x).peer = some n.val ∧ (t.ses x).level = .user ∧
      (∃ u, t.tunnel n.val = some u ∧ u.sess = some x ∧ u.acc = unpad bs ∧ u.rxSeq = tseq ∧ u.due = true) ∧
      OthersKept x s t ∧ t = { s with sess := t.sess, bus := { s.bus with tun := t.bus.tun } } := by
  have hreceives' : (s.tunOpened n.val x tseq).receives = true := hreceives
  obtain ⟨hjoins, htunnel⟩ := lineFragment_joins (tunnel_tunOpened hnew x tseq) rfl hreceives' bs
  obtain ⟨hses, hothers, honly⟩ := kept_around_modSes (s := s) (t := s.lineTook n.val tseq) (x := x)
    (tunOnly_modTunnel ..) (tunOnly_trans (tunOnly_modTunnel ..) hjoins)
  exact ⟨_, tunnelLine_opens hlive hon hnew hfree tseq tack bs, congrArg Session.isOpen hses, congrArg Session.peer hses,
    congrArg Session.level hses, ⟨_, htunnel, rfl, rfl, rfl, rfl⟩, hothers, honly⟩

/-- A further fragment of a LINE joins the text of its session (R548). -/
theorem nextLine_joins {q : Tunnel} {x : Sess} (hq : s.tunnel n.val = some q) (hx : q.sess = some x) (hopen : (s.ses x).isOpen = true)
    (hpeer : (s.ses x).peer = some n.val) (hidle : q.unack = none) (hreceives : s.receives = true) (idx : BitVec 4) (tack : Byte)
    (bs : List Byte) : ∃ t, exec (.tunnelLine n idx false (q.rxSeq + 1) tack bs) s = .next t ∧
      ∃ u, t.tunnel n.val = some u ∧ u.acc = q.acc ++ unpad bs ∧ u.rxSeq = q.rxSeq + 1 ∧ u.due = true ∧ TunOnly s t := by
  have hreceives' : (s.tunTook n.val (q.rxSeq + 1)).receives = true := hreceives
  obtain ⟨hjoins, htunnel⟩ := lineFragment_joins (tunnel_tunTook hq (q.rxSeq + 1)) hx hreceives' bs
  exact ⟨_, tunnelLine_goesOn hlive hon hq hx hopen hpeer hidle idx tack bs, _, htunnel, rfl, rfl, rfl,
    tunOnly_trans (tunOnly_tunTook ..) hjoins⟩

section
variable {q : Tunnel} (hq : s.tunnel n.val = some q) (hidle : q.unack = none) (hrestart : s.host.restart = none)
include hq hidle hrestart

section
variable {k : Call} {body : Text} {bs : List Byte} (hk : remoteFor n.val s = some k) (hopen : (s.ses .h).isOpen = true)
  (hroom : 164 ≤ (s.ses .h).free) (hbody : remoteText q.want (bytesText (q.acc ++ unpad bs)) = some body)
include hk hroom hbody

/-- A data line of the remote node becomes one of the line that waits for it, which runs on (R548). -/
theorem tunnelData_sent (idx : BitVec 4) (tack : Byte) : ∃ t, exec (.tunnelData n idx true (q.rxSeq + 1) tack bs) s = .next t ∧
    lastLine (t.ses .h) = some (frameReply k.line.frame body ++ crlf) ∧ (t.ses .h).running = (s.ses .h).running ∧
    OthersKept .h s t ∧ t.pe = s.pe ∧ t.prm = s.prm := by
  have hreply : exec (.tunnelData n idx true (q.rxSeq + 1) tack bs) s = .next (dataText k body (s.replyTook n.val (q.rxSeq + 1))) :=
    congrArg Host.Outcome.next (replyFragment_answers hlive hon hq hidle rfl hk hroom hrestart hbody false tack)
  have honly := tunOnly_replyTook s n.val (q.rxSeq + 1)
  obtain ⟨hdata, hlast, hrunning⟩ := dataText_spec k body (s.replyTook n.val (q.rxSeq + 1))
  rw [remoteFor_host hk] at hdata hlast hrunning
  exact ⟨_, hreply, hlast, hrunning.trans (congrArg Session.running (ses_of_tunOnly honly .h)), kept_of_tunOnly_onlySession honly hdata⟩

include hopen

/-- The final reply of the remote node ends the line that waits for it (R548). -/
theorem tunnelFinal_answers (idx : BitVec 4) (tack : Byte) : ∃ t, exec (.tunnelFinal n idx true (q.rxSeq + 1) tack bs) s = .next t ∧
    lastLine (t.ses .h) = some (frameReply k.line.frame body ++ crlf) ∧ (t.ses .h).running = none ∧
    OthersKept .h s t ∧ t.pe = s.pe ∧ t.prm = s.prm := by
  have hreply : exec (.tunnelFinal n idx true (q.rxSeq + 1) tack bs) s = .next (answer k body (s.replyTook n.val (q.rxSeq + 1))) :=
    congrArg Host.Outcome.next (replyFragment_answers hlive hon hq hidle rfl hk hroom hrestart hbody true tack)
  obtain ⟨hrunning, hlast, hkept⟩ := answer_remote hk hopen (tunOnly_replyTook s n.val (q.rxSeq + 1)) body
  exact ⟨_, hreply, hlast, hrunning, hkept⟩

end

/-- The final reply of a remote node that no line waits for is discarded and counted (R236). -/
theorem tunnelFinal_counted (hk : remoteFor n.val s = none) (idx : BitVec 4) (tack : Byte) (bs : List Byte) :
    ∃ t, exec (.tunnelFinal n idx true (q.rxSeq + 1) tack bs) s = .next t ∧ t.count 0x7856 = min 65535 (s.count 0x7856 + 1) ∧
      t = { s with cnt := t.cnt, bus := { s.bus with tun := t.bus.tun } } := by
  have hlate : exec (.tunnelFinal n idx true (q.rxSeq + 1) tack bs) s = .next (bump 0x7856 (s.replyTook n.val (q.rxSeq + 1))) :=
    congrArg Host.Outcome.next (replyFragment_late hlive hon hq hidle rfl hk hrestart tack)
  refine ⟨_, hlate, ?_, ?_⟩
  · rw [count_bump_same, show cntTop 0x7856 = 65535 by decide, Nat.min_comm, tunOnly_replyTook s n.val (q.rxSeq + 1)]
    rfl
  · have honly := tunOnly_replyTook s n.val (q.rxSeq + 1)
    generalize s.replyTook n.val (q.rxSeq + 1) = u at honly
    unfold TunOnly at honly
    rw [honly]
    rfl

/-- REFUSE answers `err 63` to the line that waits for its node (R548). -/
theorem tunnelRefuse_answers {k : Call} (hk : remoteFor n.val s = some k) (hopen : (s.ses .h).isOpen = true) (tack : Byte) :
    ∃ t, exec (.tunnelRefuse n (q.rxSeq + 1) tack) s = .next t ∧ (t.ses .h).running = none ∧
      lastLine (t.ses .h) = some (frameReply k.line.frame (errText 63 none) ++ crlf) ∧
      (∃ u, t.tunnel n.val = some u ∧ u.opened = false) ∧ OthersKept .h s t ∧ t.pe = s.pe ∧ t.prm = s.prm := by
  have honly : TunOnly s ((s.tunTook n.val (q.rxSeq + 1)).refused n.val) := tunOnly_trans (tunOnly_tunTook ..) (tunOnly_modTunnel ..)
  obtain ⟨hrunning, hlast, hkept⟩ := answer_remote hk hopen honly (errText 63 none)
  refine ⟨_, tunnelRefuse_fails hlive hon hq hidle hk hrestart rfl tack, hrunning, hlast, ?_, hkept⟩
  rw [tunnel_of_onlySession (answer_only ..)]
  simp [State.refused, tunnel_modTunnel]

end

/-- CLOSE closes the session that the tunnel serves (R235, R545). -/
theorem tunnelClose_leaves {q : Tunnel} {x : Sess} (hq : s.tunnel n.val = some q) (hx : q.sess = some x) (hidle : q.unack = none)
    (tack : Byte) : ∃ t, exec (.tunnelClose n (q.rxSeq + 1) tack) s = .next t ∧ (t.ses x).isOpen = false ∧
      ((∀ r, (s.ses x).running = some r → r.wait ≠ .turn) → (t.ses x).staging = []) ∧
      (∃ u, t.tunnel n.val = some u ∧ u.sess = none) ∧ OthersKept x s t ∧ t.pe = s.pe ∧ t.prm = s.prm := by
  have honly := tunOnly_tunTook s n.val (q.rxSeq + 1)
  have hrun := tunnelClose_closes hlive hon hq hx hidle rfl tack
  generalize s.tunTook n.val (q.rxSeq + 1) = u at honly hrun
  obtain ⟨hclosed, hstaging, hothers, hstands⟩ := closeSession_closes x u
  have hleft : TunOnly (closeSession x u) ((closeSession x u).tunLeft n.val) := tunOnly_modTunnel ..
  have hkept := (standing_of_tunOnly hleft).trans (hstands.trans (standing_of_tunOnly honly))
  rw [ses_of_tunOnly honly] at hstaging
  rw [← ses_of_tunOnly hleft] at hclosed hstaging
  exact ⟨_, hrun, hclosed, hstaging, tunnel_tunLeft ..,
    fun y hy => (ses_of_tunOnly hleft y).trans ((hothers y hy).trans (ses_of_tunOnly honly y)),
    congrArg Standing.pe hkept, congrArg Standing.prm hkept⟩

end

/-! ### The statement -/

/-- Settles O52: a clause for each kind of frame, over what the change of a tunnel and the end of a line leave. -/
theorem tunnelsAct : Obligations.TunnelsAct := by
  unfold Obligations.TunnelsAct
  intro s n tack hlive hon
  refine ⟨?_, ?_, ?_, ?_, ?_, ?_, ?_, ?_, ?_⟩
  · intro q f hq hf htack hkind hopened
    subst htack
    have hrun : exec (.tunnelNone n q.txSeq) s = .next (tunAck n.val q.txSeq s) := by simp [exec, execTunnelNone, hlive, hon]
    rw [tunAck_covers hq hf hkind] at hrun
    exact ⟨_, hrun, by simp [tunnel_modTunnel, hq, hopened], tunOnly_modTunnel ..⟩
  · exact fun tseq bs x hnew hfree hreceives => firstLine_opens hlive hon hnew hfree hreceives tseq tack bs
  · intro tseq bs hnew hfull
    refine ⟨_, tunnelLine_refuses hlive hon hnew hfull tseq tack bs, ?_, ?_⟩
    · simp [tunnel_modTunnel, State.lineTook, hnew, Tunnel.fresh]
    · exact tunOnly_trans (tunOnly_modTunnel ..) (tunOnly_modTunnel ..)
  · exact fun idx bs q x hq hx hopen hpeer hidle hreceives => nextLine_joins hlive hon hq hx hopen hpeer hidle hreceives idx tack bs
  · exact fun idx bs q k body hq hidle hk hopen hrestart hroom hbody =>
      ⟨tunnelData_sent hlive hon hq hidle hrestart hk hroom hbody idx tack,
        tunnelFinal_answers hlive hon hq hidle hrestart hk hopen hroom hbody idx tack⟩
  · exact fun idx bs q hq hidle hk hrestart => tunnelFinal_counted hlive hon hq hidle hrestart hk idx tack bs
  · exact fun q x hq hx hidle => tunnelClose_leaves hlive hon hq hx hidle tack
  · intro tseq hnew
    refine ⟨_, tunnelClose_acknowledged hlive hon hnew tseq tack, ?_, tunOnly_tunTook ..⟩
    simp [State.tunTook, tunnel_modTunnel, hnew, Tunnel.fresh]
  · exact fun q k hq hidle hk hopen hrestart => tunnelRefuse_answers hlive hon hq hidle hrestart hk hopen tack

end Sys2Proof.Machine
end

section
/-! SUPPORT. What a stop decides of an axis (R22, R294, R397, R398): its state, its gate word, its degradation and its motion. Messages leave
these as they are, and a stop of one axis leaves those of the other. -/

namespace Sys2Proof.Machine

/-! ### What a stop decides -/

/-- What a stop decides in the loop engine of an axis. -/
structure Poise where
  st : AxState
  word : GateWord
  degr : Degraded
  holdDue : Degraded

/-- These of the loop engine's state. -/
def AxLoop.poise (l : AxLoop) : Poise := { st := l.st, word := l.word, degr := l.degr, holdDue := l.holdDue }

/-- What a stop decides of an axis, and the tick in which it does. -/
structure Drive where
  tick : W32
  poise : Poise
  mot : MotState

/-- These of a state. -/
def State.drive (s : State) (y : Axis) : Drive := { tick := s.tick, poise := (s.loop.get y).poise, mot := (s.mot.get y).st }

/-- An axis that has left DISARMED and is not LATCHED. -/
def Drive.armed (d : Drive) : Bool := !(d.poise.st == .disarmed || d.poise.st == .latched)

theorem armed_eq_drive (s : State) (y : Axis) : s.armed y = (s.drive y).armed := rfl

theorem moving_eq_drive (s : State) (y : Axis) : s.moving y = (s.drive y).mot.moving := rfl

/-- An armed axis whose motion has a hold point to meet (R398). -/
def Drive.ran (d : Drive) : Bool := d.armed && (d.mot == .run || d.mot == .stopping || d.mot == .reversing)

/-- An axis that has stopped: LATCHED or disarmed with the command in its word, its motion ended, and a degradation that the stop
has taken out of a motion due at its hold point unless the axis is LATCHED (R294, R373, R374, R397, R398). -/
def Drive.stopped (latched : Bool) (cmd : BitVec 4) (d : Drive) : Drive :=
  { tick := d.tick
    poise := { st := if latched then .latched else .disarmed
               word := { GateWord.off with cmd := cmd }
               degr := if latched then .none else d.poise.degr
               holdDue := if d.ran && !latched then d.poise.degr else d.poise.holdDue }
    mot := if d.armed then .idle else d.mot }

section
variable (y : Axis) (s : State)

/-! ### Messages -/

@[simp] theorem drive_modSes (x : Sess) (f : Session → Session) : (s.modSes x f).drive y = s.drive y := rfl
@[simp] theorem drive_bump (id : Nat) : (bump id s).drive y = s.drive y := rfl
@[simp] theorem drive_closeWindows (m : BitVec 2) : (closeWindows m s).drive y = s.drive y := rfl
@[simp] theorem drive_asterFlt : (asterFlt s).drive y = s.drive y := rfl

@[simp] theorem drive_ite (c : Prop) [Decidable c] (a b : State) :
    (if c then a else b).drive y = if c then a.drive y else b.drive y := apply_ite (State.drive · y) c a b

@[simp] theorem drive_when (c : Bool) (f : State → State) : (when_ c f s).drive y = if c then (f s).drive y else s.drive y :=
  drive_ite y _ (f s) s

theorem drive_forAll {α : Type} {f : α → State → State} (h : ∀ a s, (f a s).drive y = s.drive y) (l : List α) :
    (forAll l f s).drive y = s.drive y := keeps_forAll (g := (State.drive · y)) h l s

@[simp] theorem drive_answer (k : Call) (t : Text) : (answer k t s).drive y = s.drive y := by
  have h : answer k t s = { s with sess := (answer k t s).sess } := (answer_only k t s).1
  rw [h]; rfl

@[simp] theorem drive_notice (c : Nat) (t : Text) : (notice c t s).drive y = s.drive y :=
  drive_forAll y s (by simp [noticeTo]) _

@[simp] theorem drive_faultNotice (w : String) (n : Text) (m : BitVec 2) (t : W32) : (faultNotice w n m t s).drive y = s.drive y := by
  simp [faultNotice, latchOrder]

@[simp] theorem drive_logAster (k : Nat) (axes : BitVec 2) (a b : Nat) : (logAster k axes a b s).drive y = s.drive y := by
  rw [logAster_only]; rfl

@[simp] theorem drive_endAxisWait (x : Axis) (p : AxCmd → Bool) (t : Text) : (endAxisWait x p t s).drive y = s.drive y :=
  drive_forAll y s (by simp) _

/-! ### The loop engine and the motion of an axis -/

/-- A change of an axis that leaves what a stop decides. -/
theorem drive_modLoop {f : AxLoop → AxLoop} (hf : ∀ l, (f l).poise = l.poise) (x : Axis) : (s.modLoop x f).drive y = s.drive y := by
  unfold State.drive
  by_cases h : y = x
  · subst h
    rw [State.modLoop_loop, Pair.get_mod_same, hf]
    rfl
  · rw [State.modLoop_loop, Pair.get_mod_other _ _ h]
    rfl

theorem drive_modMot {f : AxMot → AxMot} (hf : ∀ m, (f m).st = m.st) (x : Axis) : (s.modMot x f).drive y = s.drive y := by
  unfold State.drive
  by_cases h : y = x
  · subst h
    rw [State.modMot_mot, Pair.get_mod_same, hf]
    rfl
  · rw [State.modMot_mot, Pair.get_mod_other _ _ h]
    rfl

/-- A change of one axis leaves the other. -/
theorem drive_modLoop_other {x y : Axis} (h : y ≠ x) (f : AxLoop → AxLoop) : (s.modLoop x f).drive y = s.drive y := by
  unfold State.drive
  rw [State.modLoop_loop, Pair.get_mod_other _ _ h]
  rfl

theorem drive_modLoop_same (f : AxLoop → AxLoop) :
    (s.modLoop y f).drive y = { s.drive y with poise := (f (s.loop.get y)).poise } := by
  unfold State.drive
  rw [State.modLoop_loop, Pair.get_mod_same]
  rfl

theorem drive_toIdle {f : AxMot → AxMot} (hf : ∀ m, (f m).st = .idle) (x : Axis) :
    (s.modMot x f).drive y = if y = x then { s.drive y with mot := .idle } else s.drive y := by
  unfold State.drive
  by_cases h : y = x
  · subst h
    rw [State.modMot_mot, Pair.get_mod_same, hf, if_pos rfl]
    rfl
  · rw [State.modMot_mot, Pair.get_mod_other _ _ h, if_neg h]
    rfl

/-- The motion that ends leaves its axis in IDLE (R397). -/
theorem drive_leaveMotion (x : Axis) (r : MotResult) :
    (leaveMotion x r s).drive y = if y = x then { s.drive y with mot := .idle } else s.drive y := by
  unfold leaveMotion endMotion
  split <;> exact drive_toIdle y s (by intro; rfl) x

@[simp] theorem drive_ungroup (x : Axis) : (ungroup x s).drive y = s.drive y := by
  unfold ungroup
  split
  · rfl
  · rw [grpFail, drive_bump, drive_logAster, drive_modLoop y s (by intro; rfl)]

@[simp] theorem drive_endCal (x : Axis) (t : Text) : (endCal x t s).drive y = s.drive y := by
  unfold endCal
  rw [drive_modMot y _ (by intro; rfl), drive_modLoop y _ (by intro; rfl)]
  exact drive_forAll y s (by simp) _

/-! ### The stop (R294, R397) -/

/-- A stop of an axis leaves the other axis. -/
theorem drive_stopAxis_other {x y : Axis} (h : y ≠ x) (c : BitVec 4) : (stopAxis x c s).drive y = s.drive y := by
  simp [stopAxis, drive_modLoop_other _ h, drive_leaveMotion, h]

/-- The axis that stops. -/
theorem drive_stopAxis_same (c : BitVec 4) : (stopAxis y c s).drive y = (s.drive y).stopped (s.latchedOn y) c := by
  unfold stopAxis
  rw [drive_endCal, drive_endAxisWait, drive_endAxisWait, drive_modLoop y _ (by intro; rfl)]
  generalize hleft : when_ (s.armed y) _ s = u
  have hidle : u.drive y = { s.drive y with mot := if (s.drive y).armed then .idle else (s.drive y).mot } := by
    rw [← hleft, drive_when, armed_eq_drive, drive_leaveMotion, if_pos rfl]
    split <;> rfl
  have hkept : u.spared = s.spared := by
    rw [← hleft]
    simp
  generalize hgroup : when_ ((u.loop.get y).hand != some .stop) (ungroup y) u = v
  have hdrive : v.drive y = u.drive y := by
    rw [← hgroup]
    simp
  have hspared : v.spared = u.spared := by
    rw [← hgroup]
    simp
  rw [hidle] at hdrive
  have hdegr : (v.loop.get y).degr = (s.drive y).poise.degr := congrArg (·.poise.degr) hdrive
  have hdue : (v.loop.get y).holdDue = (s.drive y).poise.holdDue := congrArg (·.poise.holdDue) hdrive
  have hmot : (s.mot.get y).st = (s.drive y).mot := rfl
  rw [drive_modLoop_same, drive_modLoop_same, State.modLoop_loop, Pair.get_mod_same, hdrive, latchedOn_of_spared (hspared.trans hkept)]
  cases s.latchedOn y <;> simp [stopLoop, AxLoop.poise, Drive.stopped, Drive.ran, armed_eq_drive, hdegr, hdue, hmot]

/-- Both axes stop. -/
theorem drive_haltBoth (c : BitVec 4) : (haltBoth c s).drive y = (s.drive y).stopped (s.latchedOn y) c := by
  unfold haltBoth
  cases y with
  | a => rw [drive_stopAxis_other _ (by decide), drive_stopAxis_same]
  | b => rw [drive_stopAxis_same, drive_stopAxis_other _ (by decide), latchedOn_of_spared (spared_stopAxis s .a c)]

end

end Sys2Proof.Machine
end

section
/-! SUPPORT. A fault that Aster decides with what follows from it (R22, R79, R294, R398): the stop of both axes, and the faults of the degraded
axes that the stop takes out of their motion. -/

namespace Sys2Proof.Machine

open Sys2Proof.Safety

/-! ### The latch of a fault (R22, R79) -/

section
variable (y : Axis) (s : State)

theorem low_refuseClears (m : BitVec 2) : (refuseClears m s).link.low = s.link.low :=
  congrArg (fun q : Standing => q.link.low) (standing_forAll (f := fun (k : Call × Wait) s => answer k.1 (errText 36 none) s) s (by simp) _)

theorem low_latchFault (f : AFault) : (latchFault f s).link.low = s.link.low :=
  (congrArg (fun q : Standing => q.link.low) (standing_faultNotice ..)).trans (low_refuseClears ..)

@[simp] theorem drive_refuseClears (m : BitVec 2) : (refuseClears m s).drive y = s.drive y :=
  drive_forAll y s (f := fun (k : Call × Wait) s => answer k.1 (errText 36 none) s) (by simp) _

@[simp] theorem drive_latchFault (f : AFault) : (latchFault f s).drive y = s.drive y := by
  unfold latchFault
  rw [drive_faultNotice, drive_refuseClears, drive_closeWindows]
  rfl

@[simp] theorem drive_noteRelease : (noteRelease s).drive y = s.drive y :=
  drive_forAll y s (fun x u => drive_modLoop y u (by intro; rfl) x) _

end

/-! ### One fault (R294) -/

section
variable (k : Nat) (m : BitVec 2) (a b i : Nat) (s : State)

/-- Each axis stops, and is LATCHED where a fault stands on it with the new one. -/
theorem drive_oneFault (y : Axis) :
    (oneFault k m a b i s).drive y = (s.drive y).stopped ((oneFault k m a b i s).latchedOn y) 4 := by
  rw [oneFault_eq]
  dsimp only
  rw [drive_haltBoth, latchedOn_of_spared (spared_haltBoth ..)]
  simp

/-- The fault joins the list with the tick in which Aster decides it, and FLT_L is driven and low. -/
theorem spared_oneFault (hk : k < 0x100) : ∃ l, l.flt = true ∧ l.low = true ∧
    (oneFault k m a b i s).spared = { s.spared with faults := s.faults ++ [ownFault k m s.tick i], link := l } := by
  rw [oneFault_eq]
  dsimp only
  have hlogged := spared_logAster s hk m a b
  have htick : (logAster k m a b s).tick = s.tick := congrArg Drive.tick (drive_logAster .a s k m a b)
  generalize logAster k m a b s = u at hlogged htick
  have hfaults : (asterFlt u).faults = s.faults := congrArg Spared.faults hlogged
  obtain ⟨hlatched, hflt⟩ := latchFault_spared (ownFault k m (asterFlt u).tick i) (asterFlt u)
  have hlow := low_latchFault (asterFlt u) (ownFault k m (asterFlt u).tick i)
  rw [asterFlt_spared, hlogged, hfaults] at hlatched
  refine ⟨_, hflt, hlow, ?_⟩
  rw [spared_haltBoth, spared_noteRelease, hlatched, show (asterFlt u).tick = s.tick from htick]

end

/-! ### A fault and those that follow it (R294, R398) -/

/-- Aster has latched a fault of its own and then others, and both axes have stopped with RELEASE in their words. -/
structure FaultStopped (k : Nat) (m : BitVec 2) (s t : State) (gs : List AFault) : Prop where
  faults : ∃ i, t.faults = s.faults ++ ownFault k m s.tick i :: gs
  flt : t.link.flt = true
  low : t.link.low = true
  pe : t.pe = s.pe
  prm : t.prm = s.prm
  otp : t.otp = s.otp
  tick : t.tick = s.tick
  state : ∀ y, (t.drive y).poise.st = if t.latchedOn y then .latched else .disarmed
  word : ∀ y, (t.drive y).poise.word = { GateWord.off with cmd := 4 }
  still : ∀ y, s.armed y = true → (t.drive y).mot = .idle

/-- An axis that has stopped does not move again in a further stop. -/
theorem Drive.stopped_idle {d : Drive} (h : d.mot = .idle) (latched : Bool) (c : BitVec 4) : (d.stopped latched c).mot = .idle := by
  simp [Drive.stopped, h]

section
variable {k : Nat} {m : BitVec 2} {s t : State} {gs : List AFault}

/-- One fault stops both axes. -/
theorem faultStopped_oneFault (hk : k < 0x100) (m : BitVec 2) (a b i : Nat) (s : State) :
    FaultStopped k m s (oneFault k m a b i s) [] := by
  obtain ⟨l, hflt, hlow, hspared⟩ := spared_oneFault k m a b i s hk
  have hdrive := drive_oneFault k m a b i s
  generalize oneFault k m a b i s = t at hspared hdrive
  have hlink : t.link = l := congrArg Spared.link hspared
  refine ⟨⟨i, congrArg Spared.faults hspared⟩, hlink ▸ hflt, hlink ▸ hlow, congrArg Spared.pe hspared, congrArg Spared.prm hspared,
    congrArg Spared.otp hspared, congrArg Drive.tick (hdrive .a), fun y => ?_, fun y => ?_, fun y hy => ?_⟩
  · rw [hdrive]; rfl
  · rw [hdrive]; rfl
  · rw [hdrive]
    exact if_pos hy

/-- A further fault of Aster leaves both axes stopped and joins the list. -/
theorem faultStopped_again (h : FaultStopped k m s t gs) {j : Nat} (hj : j < 0x100) (axes : BitVec 2) (a b i : Nat) :
    FaultStopped k m s (oneFault j axes a b i t) (gs ++ [ownFault j axes t.tick i]) := by
  obtain ⟨l, hflt, hlow, hspared⟩ := spared_oneFault j axes a b i t hj
  have hdrive := drive_oneFault j axes a b i t
  generalize oneFault j axes a b i t = u at hspared hdrive
  have hlink : u.link = l := congrArg Spared.link hspared
  have hfaults : u.faults = t.faults ++ [ownFault j axes t.tick i] := congrArg Spared.faults hspared
  obtain ⟨i₀, hlist⟩ := h.faults
  refine ⟨⟨i₀, by simp [hfaults, hlist]⟩, hlink ▸ hflt, hlink ▸ hlow, (congrArg Spared.pe hspared).trans h.pe,
    (congrArg Spared.prm hspared).trans h.prm, (congrArg Spared.otp hspared).trans h.otp,
    (congrArg Drive.tick (hdrive .a)).trans h.tick, fun y => ?_, fun y => ?_, fun y hy => ?_⟩
  · rw [hdrive]; rfl
  · rw [hdrive]; rfl
  · rw [hdrive, Drive.stopped_idle (h.still y hy)]

/-- A hold point that is met leaves both axes stopped. -/
theorem faultStopped_met (h : FaultStopped k m s t gs) (x : Axis) :
    FaultStopped k m s (t.modLoop x fun l => { l with holdDue := .none }) gs := by
  have hst : ∀ y, (t.modLoop x fun l => { l with holdDue := .none }).axState y = t.axState y := fun y => axState_modLoop (by simp) x y t
  have hword : ∀ y, ((t.modLoop x fun l => { l with holdDue := .none }).loop.get y).word = (t.loop.get y).word := by
    intro y
    cases x <;> cases y <;> rfl
  exact ⟨h.faults, h.flt, h.low, h.pe, h.prm, h.otp, h.tick, fun y => (hst y).trans (h.state y), fun y => (hword y).trans (h.word y), h.still⟩

/-- The fault of a degraded axis that a stop takes out of its motion (R398): Aster's, of the kind that its degradation has. -/
def Follows (g : AFault) : Prop := g.die = .aster ∧ (g.kind = 0x0A ∨ g.kind = 0x09)

theorem degradedFault_sense_or_open {d : Degraded} {f : Nat × Nat} (h : degradedFault d = some f) : f.1 = 0x0A ∨ f.1 = 0x09 := by
  cases d with
  | none => cases h
  | recon p => cases h; exact .inl rfl
  | limp p => cases h; exact .inr rfl

/-- At the hold point of an axis its fault may follow. -/
theorem faultStopped_heldFault (h : FaultStopped k m s t gs) (hgs : ∀ g ∈ gs, Follows g) (x : Axis) :
    ∃ gs', (∀ g ∈ gs', Follows g) ∧ FaultStopped k m s (heldFault x t) gs' := by
  unfold heldFault
  split
  · rename_i f hf
    refine ⟨_, ?_, faultStopped_again (faultStopped_met h x) (degradedFault_kind hf) ..⟩
    intro g hg
    rcases List.mem_append.1 hg with hold | hnew
    · exact hgs g hold
    · rw [List.mem_singleton.1 hnew]
      exact ⟨rfl, degradedFault_sense_or_open hf⟩
  · exact ⟨gs, hgs, h⟩

theorem heldFault_of_none {x : Axis} (h : (t.drive x).poise.holdDue = .none) : heldFault x t = t := by
  have hdue : (t.loop.get x).holdDue = .none := h
  simp [heldFault, hdue, degradedFault]

/-! ### No fault follows -/

/-- The stop meets no hold point where the axis owes none and is named, sound or at rest. -/
theorem Drive.holdDue_stopped {d : Drive} {latched : Bool} (hdue : d.poise.holdDue = .none)
    (h : latched = true ∨ d.poise.degr = .none ∨ d.mot.moving = false) (c : BitVec 4) : (d.stopped latched c).poise.holdDue = .none := by
  have hran : d.mot.moving = false → d.ran = false := by
    intro hm
    unfold Drive.ran
    cases hmot : d.mot <;> simp_all [MotState.moving]
  rcases h with rfl | hdegr | hm
  · simp [Drive.stopped, hdue]
  · simp [Drive.stopped, hdue, hdegr]
  · simp [Drive.stopped, hdue, hran hm]

theorem latchedOn_of_named {y : Axis} {f : AFault} (hf : f ∈ t.faults) (hy : hasAxis f.axes y = true) : t.latchedOn y = true :=
  List.any_eq_true.2 ⟨f, hf, hy⟩

/-- A fault that Aster decides where no hold point is met stands alone. -/
theorem asterFault_alone (hk : k < 0x100) (hno : NoHoldDue m s) (a b i : Nat) : asterFault k m a b i s = oneFault k m a b i s := by
  have hstop := faultStopped_oneFault hk m a b i s
  have hdrive := drive_oneFault k m a b i s
  unfold asterFault
  generalize oneFault k m a b i s = t at hstop hdrive
  obtain ⟨i₀, hfaults⟩ := hstop.faults
  have hnone : ∀ y, (t.drive y).poise.holdDue = .none := by
    intro y
    obtain ⟨hdue, hcase⟩ := hno y
    rw [hdrive]
    refine Drive.holdDue_stopped hdue (hcase.imp_left fun hy => ?_) 4
    exact latchedOn_of_named (f := ownFault k m s.tick i₀) (by simp [hfaults]) hy
  rw [heldFaults_eq, heldFault_of_none (hnone .a), heldFault_of_none (hnone .b)]

/-! ### The statement's terms -/

theorem asterStops_of_faultStopped (h : FaultStopped k m s t gs) (hgs : ∀ g ∈ gs, Follows g) (hno : NoHoldDue m s → gs = []) :
    AsterStops k m s t := by
  obtain ⟨i, hfaults⟩ := h.faults
  refine ⟨by simp [hfaults], ⟨ownFault k m s.tick i, gs, by simp [hfaults], rfl, rfl, rfl, rfl, hgs, hno⟩, h.flt, h.low, fun y => ?_,
    h.pe, h.prm, h.otp, h.tick⟩
  refine ⟨h.state y, h.word y, fun hy => ?_⟩
  rw [moving_eq_drive, h.still y hy]
  rfl

/-- A fault that Aster decides stops both axes (R294). -/
theorem asterStops_asterFault (hk : k < 0x100) (m : BitVec 2) (a b i : Nat) (s : State) : AsterStops k m s (asterFault k m a b i s) := by
  by_cases hno : NoHoldDue m s
  · rw [asterFault_alone hk hno]
    exact asterStops_of_faultStopped (faultStopped_oneFault hk m a b i s) (by simp) fun _ => rfl
  · obtain ⟨gs₁, hgs₁, h₁⟩ := faultStopped_heldFault (faultStopped_oneFault hk m a b i s) (by simp) .a
    obtain ⟨gs₂, hgs₂, h₂⟩ := faultStopped_heldFault h₁ hgs₁ .b
    unfold asterFault
    rw [heldFaults_eq]
    exact asterStops_of_faultStopped h₂ hgs₂ fun h => absurd h hno

end

/-! ### What a fault does not look at -/

/-- Two states of which a fault of Aster takes and leaves the same. -/
structure Alike (s t : State) : Prop where
  spared : t.spared = s.spared
  drive : ∀ y, t.drive y = s.drive y

theorem Alike.refl (s : State) : Alike s s := ⟨rfl, fun _ => rfl⟩

theorem noHoldDue_of_alike {s t : State} (h : Alike s t) {m : BitVec 2} (hno : NoHoldDue m s) : NoHoldDue m t := by
  intro y
  obtain ⟨hdue, hcase⟩ := hno y
  refine ⟨(congrArg (·.poise.holdDue) (h.drive y)).trans hdue, hcase.imp_right (Or.imp ?_ ?_)⟩
  · exact (congrArg (·.poise.degr) (h.drive y)).trans
  · exact (congrArg (·.mot.moving) (h.drive y)).trans

/-- A stop for a fault stays one beside what it does not look at, before it and after it. -/
theorem asterStops_of_alike {k : Nat} {m : BitVec 2} {s u t v : State} (hs : Alike s u) (h : AsterStops k m u t) (ht : Alike t v) :
    AsterStops k m s v := by
  obtain ⟨hlist, ⟨f, gs, hdrop, hkind, haxes, hdie, htick, hgs, hno⟩, hflt, hlow, haxis, hpe, hprm, hotp, hnow⟩ := h
  have hbefore : u.faults = s.faults := congrArg Spared.faults hs.spared
  have hafter : v.faults = t.faults := congrArg Spared.faults ht.spared
  have hlink : v.link = t.link := congrArg Spared.link ht.spared
  have hstart : u.tick = s.tick := congrArg Drive.tick (hs.drive .a)
  rw [hbefore] at hlist hdrop
  refine ⟨by rw [hafter, hlist], ⟨f, gs, by rw [hafter, hdrop], hkind, haxes, hdie, htick.trans hstart, hgs,
    fun h => hno (noHoldDue_of_alike hs h)⟩, hlink ▸ hflt, hlink ▸ hlow, fun y => ?_,
    (congrArg Spared.pe ht.spared).trans (hpe.trans (congrArg Spared.pe hs.spared)),
    (congrArg Spared.prm ht.spared).trans (hprm.trans (congrArg Spared.prm hs.spared)),
    (congrArg Spared.otp ht.spared).trans (hotp.trans (congrArg Spared.otp hs.spared)),
    (congrArg Drive.tick (ht.drive .a)).trans (hnow.trans hstart)⟩
  obtain ⟨hst, hword, hstill⟩ := haxis y
  refine ⟨?_, (congrArg (·.poise.word) (ht.drive y)).trans hword, fun hy => ?_⟩
  · rw [latchedOn_of_spared ht.spared]
    exact (congrArg (·.poise.st) (ht.drive y)).trans hst
  · have harmed : u.armed y = true := by rw [armed_eq_drive, hs.drive]; exact hy
    exact (congrArg (·.mot.moving) (ht.drive y)).trans (hstill harmed)

end Sys2Proof.Machine
end

section
/-! SUPPORT. The commands that come to a fault of Aster (R328, R334, R335, R369-R374, R406, R408, R437, R442), each by the condition under
which its row raises it. -/

namespace Sys2Proof.Machine

open Sys2Proof.Safety

/-- A step that comes to a fault of Aster, beside what the fault does not look at. -/
def Raises (k : Nat) (m : BitVec 2) (s t : State) : Prop := ∃ u a b i, Alike s u ∧ Alike (asterFault k m a b i u) t

theorem asterStops_of_raises {k : Nat} {m : BitVec 2} {s t : State} (hk : k < 0x100) (h : Raises k m s t) : AsterStops k m s t := by
  obtain ⟨u, a, b, i, hs, ht⟩ := h
  exact asterStops_of_alike hs (asterStops_asterFault hk m a b i u) ht

section
variable {s : State} {x : Axis}

/-- A fault raised as it stands. -/
theorem raises_asterFault (k : Nat) (m : BitVec 2) (a b i : Nat) {u : State} (h : Alike s u) : Raises k m s (asterFault k m a b i u) :=
  ⟨u, a, b, i, h, .refl _⟩

theorem alike_modLoop {f : AxLoop → AxLoop} (hf : ∀ l, (f l).poise = l.poise) (x : Axis) (s : State) : Alike s (s.modLoop x f) :=
  ⟨rfl, fun y => drive_modLoop y s hf x⟩

theorem alike_modTs (n : Nat) (f : Sensor → Sensor) (s : State) : Alike s (modTs n f s) := ⟨rfl, fun _ => rfl⟩

/-- A position that is no longer valid leaves what a fault looks at. -/
theorem alike_posInvalid (x : Axis) (s : State) : Alike s (posInvalid x s) :=
  ⟨rfl, fun y => drive_modLoop y (s.modPos x fun p => { p with valid := false }) (by intro; rfl) x⟩

theorem posInvalid_lost (x : Axis) (s : State) :
    ((posInvalid x s).pos.get x).valid = false ∧ ((posInvalid x s).loop.get x).offRt = none := by
  cases x <;> exact ⟨rfl, rfl⟩

/-! ### Position (R328, R334, R335) -/

theorem eEncIdx_raises (hrun : s.axp x 0x0A7 ≤ (s.pos.get x).idxRun)
    (hnew : (s.faults.any fun f => f.kind == 0x0B && hasAxis f.axes x) = false) :
    ∃ t, exec (.eEncIdx x) s = .next (posInvalid x t) ∧ Raises 0x0B (axBit x) s (posInvalid x t) := by
  refine ⟨_, congrArg Host.Outcome.next (if_neg ?_), _, _, _, _, .refl s, alike_posInvalid ..⟩
  rw [hnew]
  simpa using hrun

theorem eSincosAmp_raises (hax : s.scAxis = some x) (hrun : s.par 0x0055 ≤ s.sc.outRun ∨ 2 ≤ s.sc.qRun)
    (hnew : (s.faults.any fun f => f.kind == 0x0C) = false) :
    ∃ t, exec .eSincosAmp s = .next (posInvalid x t) ∧ Raises 0x0C (axBit x) s (posInvalid x t) := by
  refine ⟨asterFault 0x0C (axBit x) (min 65535 (s.sc.amp.getD 0)) (posArg s x) 0 s, ?_, _, _, _, _, .refl s, alike_posInvalid ..⟩
  have hlong : (s.sc.outRun < s.par 0x0055 && s.sc.qRun < 2) = false := by
    simp only [Bool.and_eq_false_iff, decide_eq_false_iff_not]
    omega
  show execESincosAmp s = _
  simp only [execESincosAmp, hax, hnew, hlong, Bool.or_self, Bool.false_eq_true, if_false]

/-! ### Stall, sense failure and open phase (R369-R374) -/

theorem eStall_raises (hobs : (s.mot.get x).obsTick ≠ some s.tick)
    (hcause : (∃ t0, (s.loop.get x).stallAt = some t0 ∧ s.axn x 0x04A * 1000 ≤ s.since t0) ∨
      ((s.loop.get x).openLoop.isSome = true ∧ s.axn x 0x039 * 1000 ≤ s.since (s.loop.get x).since)) :
    ∃ t, exec (.eStall x) s = .next t ∧ Raises 0x07 (axBit x) s t := by
  refine ⟨_, ?_, raises_asterFault _ _ 0 (posArg s x) 0 (.refl s)⟩
  show execEStall x s = _
  rcases hcause with ⟨t0, hat, htime⟩ | ⟨hopen, htime⟩
  · simp [execEStall, hat, htime, hobs]
  · simp [execEStall, hopen, htime, hobs]

theorem raises_raiseSense {u : State} (h : Alike s u) (x : Axis) (n : Nat) : Raises 0x0A (axBit x) s (raiseSense x n u) :=
  raises_asterFault _ _ n (posArg u x) 0 h

theorem raises_raiseOpen {u : State} (h : Alike s u) (x : Axis) (p : Phase) : Raises 0x09 (axBit x) s (raiseOpen x p u) :=
  raises_asterFault _ _ (phIdx p + 1) (posArg u x) 0 h

theorem disarmed_of_armed (h : s.armed x = true) : s.disarmed x = false := by
  simpa [State.armed] using h

theorem senseFailure_raises (harmed : s.armed x = true) (hdue : (s.loop.get x).senseDue.any (fun d => !d.1) = true) :
    ∃ t, exec (.senseFailure x) s = .next t ∧ Raises 0x0A (axBit x) s t := by
  obtain ⟨⟨keep, n⟩, hsome, hkeep⟩ := (Option.any_eq_true _ _).1 hdue
  have hends : keep = false := by simpa using hkeep
  refine ⟨_, ?_, raises_raiseSense (alike_modLoop (f := fun l => { l with senseDue := none }) (by intro; rfl) x s) x n⟩
  show execSenseFailure x s = _
  simp [execSenseFailure, hsome, disarmed_of_armed harmed, hends]

/-- A phase that is open on an axis that limps on another, that is rebuilt, or that does not limp (R372-R374). -/
theorem phaseOpen_raises {p : Phase} (hopen : openProved s x p = true) (harmed : s.armed x = true)
    (hsense : (s.loop.get x).senseTick ≠ some s.tick)
    (hdegr : (s.loop.get x).degr = .none ∧ (s.axp x 0x079 ≠ 1 ∨ s.commMode x = 4) ∨ (∃ q, (s.loop.get x).degr = .recon q) ∨
      ∃ q, q ≠ p ∧ (s.loop.get x).degr = .limp q) :
    ∃ t, exec (.phaseOpen x p) s = .next t ∧ Raises 0x09 (axBit x) s t := by
  refine ⟨_, ?_, raises_raiseOpen (alike_modLoop (f := fun l => { l with openPh := some p }) (by intro; rfl) x s) x p⟩
  show execPhaseOpen x p s = _
  simp only [execPhaseOpen, hopen, disarmed_of_armed harmed, beq_eq_false_iff_ne.2 hsense, Bool.not_true, Bool.or_self,
    Bool.false_eq_true, if_false]
  rcases hdegr with ⟨hnone, hno⟩ | ⟨q, hq⟩ | ⟨q, hqp, hq⟩
  · have hlimp : ¬(s.axp x 0x079 == 1 && s.commMode x != 4) = true := by
      rcases hno with hoff | hmode
      · simp [hoff]
      · simp [hmode]
    rw [hnone]
    exact congrArg Host.Outcome.next (if_neg hlimp)
  · rw [hq]
  · rw [hq]
    exact congrArg Host.Outcome.next (if_neg hqp)

theorem degradedTimeout_raises {k : Nat} (htime : s.axn x 0x04C * 100000 ≤ s.since (s.loop.get x).degrAt)
    (hdegr : (∃ q, (s.loop.get x).degr = .recon q ∧ k = 0x0A) ∨ ∃ q, (s.loop.get x).degr = .limp q ∧ k = 0x09) :
    ∃ t, exec (.degradedTimeout x) s = .next t ∧ Raises k (axBit x) s t := by
  have hlate : ¬s.since (s.loop.get x).degrAt < s.axn x 0x04C * 100000 := by omega
  rcases hdegr with ⟨q, hq, rfl⟩ | ⟨q, hq, rfl⟩
  · refine ⟨_, ?_, raises_asterFault _ _ (phIdx q + 1) (posArg s x) 0 (.refl s)⟩
    show execDegradedTimeout x s = _
    simp [execDegradedTimeout, hlate, hq, raiseSense]
  · refine ⟨_, ?_, raises_asterFault _ _ (phIdx q + 1) (posArg s x) 0 (.refl s)⟩
    show execDegradedTimeout x s = _
    simp [execDegradedTimeout, hlate, hq, raiseOpen]

/-! ### Obstructions and temperature (R406, R408, R437, R442) -/

theorem obstruction_raises (hdue : (s.mot.get x).obsDue = some false) (hsingle : s.coupled = false) :
    ∃ t, exec (.obstruction x) s = .next t ∧ Raises 0x08 (axBit x) s t := by
  let u := s.modMot x fun m => { m with obsDue := none }
  refine ⟨_, ?_, raises_asterFault _ _ (arg16 (mA (u.mot.get x).est)) (posArg u x) 0 (u := u)
    ⟨rfl, fun y => drive_modMot y s (by intro; rfl) x⟩⟩
  show execObstruction x s = _
  simp [execObstruction, hdue, hsingle, u]

/-- A sensor that is no longer due reads as hot as before. -/
theorem hot_modTs_due (n : Nat) (s : State) : ((modTs n (fun y => { y with due := false }) s).ts n).hot = (s.ts n).hot := by
  simp only [State.ts, modTs, nth, List.getD_eq_getElem?_getD, List.getElem?_modify_eq]
  cases s.temp.ts[n]? <;> rfl

theorem tsSuspect_raises {n : Fin 8} (hdue : (s.ts n.val).due = true) (hawake : s.asleep = false) (hhot : (s.ts n.val).hot = true) :
    ∃ t, exec (.tsSuspect n) s = .next t ∧ Raises 0x0E 3 s t := by
  let u := modTs n.val (fun y => { y with due := false }) s
  refine ⟨_, ?_, raises_asterFault _ _ n.val (ofSigned 32 ((u.ts n.val).raw.getD 0)) n.val (alike_modTs n.val _ s : Alike s u)⟩
  show execTsSuspect n s = _
  simp [execTsSuspect, hdue, hawake, hot_modTs_due, hhot, raiseSuspect, u]

theorem eOt_raises {n : Fin 8} {w : W16} (hn : 6 ≤ n.val) (hawake : s.asleep = false) (hb5 : (s.ts n.val).b5 = false)
    (hcnt : (s.ts n.val).cnt = some w) (hlow : w.toNat ≤ (s.ts n.val).nOn) :
    ∃ t, exec (.eOt n) s = .next t ∧ Raises 0x04 3 s t := by
  refine ⟨_, ?_, raises_asterFault _ _ n.val s.vmArg (zoneOf n.val) (alike_modTs n.val (fun x => { x with b5 := true }) s)⟩
  have hpeony : ¬n.val < 6 := by omega
  have hhigh : ¬(s.ts n.val).nOn < w.toNat := by omega
  show execEOt n s = _
  simp [execEOt, State.inB5, hpeony, hb5, hawake, hcnt, hhigh]

/-! ### What a row that raises a fault leaves -/

/-- A row of a fault that has nothing to do with a position. -/
theorem stops_of_raises {c : Instr} {k : Nat} {m : BitVec 2} (hk : k < 0x100) (hc : ¬(c = .eEncIdx x ∨ c = .eSincosAmp))
    (h : ∃ t, exec c s = .next t ∧ Raises k m s t) :
    ∃ t, exec c s = .next t ∧ AsterStops k m s t ∧
      (c = .eEncIdx x ∨ c = .eSincosAmp → (t.pos.get x).valid = false ∧ (t.loop.get x).offRt = none) := by
  obtain ⟨t, hrun, hraised⟩ := h
  exact ⟨t, hrun, asterStops_of_raises hk hraised, fun h => absurd h hc⟩

/-- A row of a fault with which a position is lost. -/
theorem stops_of_raises_lost {c : Instr} {k : Nat} {m : BitVec 2} (hk : k < 0x100)
    (h : ∃ t, exec c s = .next (posInvalid x t) ∧ Raises k m s (posInvalid x t)) :
    ∃ t, exec c s = .next t ∧ AsterStops k m s t ∧
      (c = .eEncIdx x ∨ c = .eSincosAmp → (t.pos.get x).valid = false ∧ (t.loop.get x).offRt = none) := by
  obtain ⟨t, hrun, hraised⟩ := h
  exact ⟨_, hrun, asterStops_of_raises hk hraised, fun _ => posInvalid_lost x t⟩

end

/-! ### The statement -/

/-- Settles O41: each row comes to a fault of Aster under its condition, and such a fault stops both axes (`asterStops_asterFault`). -/
theorem axisFaultsStop : Obligations.AxisFaultsStop := by
  unfold Obligations.AxisFaultsStop
  intro s c k m x h
  rcases h with ⟨rfl, rfl, rfl, hrun, hnew⟩ | ⟨rfl, rfl, rfl, hax, hrun, hnew⟩ | ⟨rfl, rfl, rfl, hobs, hcause⟩ |
    ⟨rfl, rfl, rfl, harmed, hdue⟩ | ⟨p, rfl, rfl, rfl, hopen, harmed, hsense, hdegr⟩ | ⟨rfl, rfl, htime, hdegr⟩ |
    ⟨rfl, rfl, rfl, hdue, hsingle⟩ | ⟨n, rfl, rfl, rfl, hdue, hawake, hhot⟩ | ⟨n, w, rfl, hn, rfl, rfl, hawake, hb5, hcnt, hlow⟩
  · exact stops_of_raises_lost (by decide) (eEncIdx_raises hrun hnew)
  · exact stops_of_raises_lost (by decide) (eSincosAmp_raises hax hrun hnew)
  · exact stops_of_raises (by decide) (by simp) (eStall_raises hobs hcause)
  · exact stops_of_raises (by decide) (by simp) (senseFailure_raises harmed hdue)
  · exact stops_of_raises (by decide) (by simp) (phaseOpen_raises hopen harmed hsense hdegr)
  · have hk : k < 0x100 := by rcases hdegr with ⟨q, -, rfl⟩ | ⟨q, -, rfl⟩ <;> decide
    exact stops_of_raises hk (by simp) (degradedTimeout_raises htime hdegr)
  · exact stops_of_raises (by decide) (by simp) (obstruction_raises hdue hsingle)
  · exact stops_of_raises (by decide) (by simp) (tsSuspect_raises hdue hawake hhot)
  · exact stops_of_raises (by decide) (by simp) (eOt_raises hn hawake hb5 hcnt hlow)

end Sys2Proof.Machine
end

section
/-! SUPPORT. The starts of `diag` and `clear` (R301-R306, R362; log 43, log 44): the checks of a `clear`, the hand-over of a command where none
waits, and the clear in SAFE, which ends at once. -/

namespace Sys2Proof.Machine

open Sys2Proof.Safety

/-! ### Lines that start and wait -/

/-- A line that starts now and waits leaves everything outside its session. -/
theorem started_of_heard (k : Call) (w : Wait) (s : State) : Started k.x w s (waitFor k w (lineHeard k.x s)) := by
  obtain ⟨hwait, hline, honly⟩ := waitFor_spec k w (lineHeard k.x s)
  exact ⟨hwait, lineOnly_trans (lineHeard_line k.x s) hline, onlySession_trans (lineHeard_only k.x s) honly⟩

section
variable {x : Sess} {s : State} (h : Ready x s) (w : String)
include h

/-- A line whose command answers at once without a violation. -/
theorem direct_answers {f : Call → State → State} {t : Text} (hf : ∀ k : Call, k.x = x → f k (lineHeard x s) = answer k t (lineHeard x s)) :
    ∃ u, direct x w f s = .next u ∧ Answered x t (s.ses x) s u := by
  obtain ⟨l, hframe, henter, hrun⟩ := direct_ready h w f
  refine ⟨_, hrun, ?_⟩
  rw [hf _ rfl]
  exact answered_of (txt w) h hframe henter t

/-- A line whose command lets it wait, with a change of the state that the line itself does not touch. -/
theorem direct_waits {f : Call → State → State} {v : Wait} {u : State}
    (hf : ∀ k : Call, k.x = x → f k (lineHeard x s) = waitFor k v (lineHeard x u)) :
    ∃ t, direct x w f s = .next t ∧ Started x v u t := by
  obtain ⟨l, hframe, henter, hrun⟩ := direct_ready h w f
  refine ⟨_, hrun, ?_⟩
  rw [hf _ rfl]
  exact started_of_heard { x := x, line := l, word := txt w, tick := s.tick } v u

end

/-! ### `diag` (R305) -/

theorem cmdDiag_starts {x : Axis} {k : Call} {s : State} (hlevel : (s.ses k.x).level ≠ .user) (hrest : s.armed x = false)
    (htick : s.ticking = true) : cmdDiag x k s = startDiag x (waitFor k (.diag x) s) := by
  have hreach : reaches (s.ses k.x).level .installer = true := by
    cases hl : (s.ses k.x).level with
    | user => exact absurd hl hlevel
    | installer => rfl
    | factory => rfl
  simp [cmdDiag, needs, hreach, hrest, htick]

/-! ### The hand-over (R362) -/

theorem handOver_of_noHand {s : State} {y : Axis} (h : NoHand s y) (c : AxCmd) :
    handOver y c s = s.modLoop y fun l => { l with hand := some c } := by
  obtain ⟨hhand, hgroup⟩ := h
  simp [handOver, ungroup, hgroup, dropHand, hhand]

/-- The axes of a line are handed a command over where none waits. -/
theorem forAll_handOver {s : State} {sel : AxisSel} (h : ∀ y ∈ selAxes sel, NoHand s y) (c : AxCmd) :
    forAll (selAxes sel) (handOver · c) s = forAll (selAxes sel) (fun y s => s.modLoop y fun l => { l with hand := some c }) s := by
  cases sel with
  | one y => exact handOver_of_noHand (h y (by simp [selAxes])) c
  | all =>
    have hb : NoHand (s.modLoop .a fun l => { l with hand := some c }) .b := h .b (by simp [selAxes])
    show handOver .b c (handOver .a c s) = _
    rw [handOver_of_noHand (h .a (by simp [selAxes])), handOver_of_noHand hb]
    rfl

/-- Commands at their hand-over change the loop engine only, and a line that waits its session only. -/
theorem handed_waitFor (sel : AxisSel) (c : AxCmd) (k : Call) (w : Wait) (x : Sess) (s : State) :
    forAll (selAxes sel) (fun y s => s.modLoop y fun l => { l with hand := some c }) (waitFor k w (lineHeard x s)) =
      waitFor k w (lineHeard x (forAll (selAxes sel) (fun y s => s.modLoop y fun l => { l with hand := some c }) s)) := by
  cases sel <;> rfl

/-! ### The checks of a `clear` (R301) -/

/-- The axes of a line in AXES form. -/
theorem foldl_axBit (sel : AxisSel) : (selAxes sel).foldl (fun a x => a ||| axBit x) 0 = selMask sel := by
  rcases sel with (_ | _) | _ <;> rfl

section
variable {s : State} {sel : AxisSel} {k : Call}

theorem cmdClear_nothing (h : clearable s (selMask sel) = false) : cmdClear sel k s = answer k (txt "ok") s := by
  simp [cmdClear, h, ok]

theorem cmdClear_blocked (h : clearable s (selMask sel) = true) (hcause : ∃ y ∈ selAxes sel, clearBlocked s y = true) :
    cmdClear sel k s = answer k (errText 36 none) s := by
  have hany : (selAxes sel).any (clearBlocked s) = true := List.any_eq_true.2 hcause
  simp [cmdClear, h, hany, fail]

section
variable (h : clearable s (selMask sel) = true) (hfree : ∀ y ∈ selAxes sel, clearBlocked s y = false)
include h hfree

theorem cmdClear_handsOver (htick : s.ticking = true) (hdev : s.dev ≠ .safe) (hno : ∀ y ∈ selAxes sel, NoHand s y) :
    cmdClear sel k s = forAll (selAxes sel) (handOver · .clear) (waitFor k (.axis sel .clear) s) := by
  have hany : (selAxes sel).any (clearBlocked s) = false := List.any_eq_false.2 fun y hy => by simp [hfree y hy]
  have htaken : ((selAxes sel).any fun x => handTaken s x .clear) = false :=
    List.any_eq_false.2 fun y hy => by simp [handTaken, (hno y hy).1]
  simp [cmdClear, h, hany, htick, hdev, htaken]

/-! ### The clear in SAFE (log 43) -/

/-- In SAFE a `clear` of axes without a class S fault goes on at once. -/
theorem cmdClear_safe (hdev : s.dev = .safe) (hclass : ∀ y ∈ selAxes sel, s.classS y = false) : cmdClear sel k s =
    clearReply k sel (clearAxes (selMask sel) (s.tick + 1) (s.modLink fun l => { l with clearN := none })) := by
  have hany : (selAxes sel).any (clearBlocked s) = false := List.any_eq_false.2 fun y hy => by simp [hfree y hy]
  have hfirst : (selAxes sel).filter (fun x => s.classS x && !windowOpen s k.x x) = [] :=
    List.filter_eq_nil_iff.2 fun y hy => by simp [hclass y hy]
  have hgo : (selAxes sel).filter (fun x => !s.classS x || windowOpen s k.x x) = selAxes sel :=
    List.filter_eq_self.2 fun y hy => by simp [hclass y hy]
  have hnamed : selMask sel ≠ 0#2 := by rcases sel with (_ | _) | _ <;> decide
  have hstart : cmdClear sel k s = clearGo k sel s := by simp [cmdClear, clearStart, h, hany, hdev, hfirst]
  rw [hstart, clearGo]
  dsimp only
  rw [hgo, foldl_axBit, h, hdev]
  simp [hnamed]

end

end

/-! ### What a clear of axes leaves (R302) -/

/-- No fault stays on an axis that is cleared. -/
theorem not_hasAxis_faultsAfter {m : BitVec 2} {y : Axis} (hy : hasAxis m y = true) {fs : List AFault} {f : AFault}
    (hf : f ∈ faultsAfter m fs) : hasAxis f.axes y = false := by
  have hbits : ∀ a m : BitVec 2, hasAxis m y = true → hasAxis (a &&& ~~~m) y = false := by cases y <;> decide
  obtain ⟨g, -, hg⟩ := List.mem_filterMap.1 hf
  dsimp only at hg
  split at hg
  · cases hg
  · cases hg
    exact hbits g.axes m hy

theorem hasAxis_selMask {sel : AxisSel} {y : Axis} (h : y ∈ selAxes sel) : hasAxis (selMask sel) y = true := by
  cases sel with
  | one x => rw [List.mem_singleton.1 h]; cases x <;> decide
  | all => cases y <;> decide

/-- A `clear` whose axes no fault of class S holds is answered `ok` (R304). -/
theorem clearReply_ok {sel : AxisSel} {k : Call} {fs : List AFault} {s : State} (h : s.faults = faultsAfter (selMask sel) fs) :
    clearReply k sel s = answer k (txt "ok") s := by
  have hnone : (selAxes sel).filter s.classS = [] := by
    refine List.filter_eq_nil_iff.2 fun y hy => ?_
    have hclass : s.classS y = false := by
      unfold State.classS
      rw [h]
      exact List.any_eq_false.2 fun f hf => by simp [not_hasAxis_faultsAfter (hasAxis_selMask hy) hf]
    simp [hclass]
  simp [clearReply, hnone, ok]

/-- OTP, the commit, and the host core with the trust of the sessions. -/
def State.unmoved (s : State) : Otp × Option Commit × Posture := (s.otp, s.commit, s.posture)

theorem unmoved_closeWindows (m : BitVec 2) (s : State) : (closeWindows m s).unmoved = s.unmoved := by
  have htrust : (fun x => ((closeWindows m s).ses x).trust) = fun x => (s.ses x).trust := by
    funext x
    cases x <;> rfl
  unfold State.unmoved State.posture
  rw [htrust]
  rfl

theorem unmoved_clearEntries (m : BitVec 2) (t : W32) (gone : List AFault) (s : State) :
    (clearEntries m t gone s).unmoved = s.unmoved := by
  have hspared : (clearEntries m t gone s).spared = s.spared := spared_forAll s (fun f u => by simp) _
  have hposture : (clearEntries m t gone s).posture = s.posture := posture_forAll s (fun f u => by simp) _
  exact Prod.ext (congrArg Spared.otp hspared) (Prod.ext (congrArg Spared.commit hspared) hposture)

theorem unmoved_clearAxis (m : BitVec 2) (gone late : List AFault) (x : Axis) (s : State) :
    (clearAxis m gone late x s).unmoved = s.unmoved := by
  unfold clearAxis when_
  split
  · dsimp only
    split <;> rfl
  · rfl

theorem unmoved_clearDrivers (left : List AFault) (s : State) : (clearDrivers left s).unmoved = s.unmoved := by
  unfold clearDrivers
  split <;> rfl

theorem unmoved_clearAxes (m : BitVec 2) (t : W32) (s : State) : (clearAxes m t s).unmoved = s.unmoved := by
  rw [clearAxes_eq]
  dsimp only
  have haxes := fun gone late u => keeps_forAll (fun x v => unmoved_clearAxis m gone late x v) axes2 u
  rw [show ∀ u : State, (fltSync u).unmoved = u.unmoved from fun _ => rfl, unmoved_clearDrivers, unmoved_closeWindows]
  refine (haxes _ _ _).trans ((unmoved_clearEntries ..).trans ?_)
  rfl

/-! ### The statement -/

/-- The lines `clear` and `clear all`. -/
theorem exec_clear {x : Sess} {sel : AxisSel} {c : Instr} (h : sel = .all ∧ c = .clearAll x ∨ ∃ ax, sel = .one ax ∧ c = .clear x ax)
    (s : State) : exec c s = direct x "clear" (cmdClear sel) s := by
  rcases h with ⟨rfl, rfl⟩ | ⟨ax, rfl, rfl⟩ <;> rfl

/-- A `clear` in SAFE of axes without a class S fault ends at once, and its faults leave the axes (log 43, log 44). -/
theorem direct_clear_safe {x : Sess} {s : State} {sel : AxisSel} (hready : Ready x s) (h : clearable s (selMask sel) = true)
    (hfree : ∀ y ∈ selAxes sel, clearBlocked s y = false) (hdev : s.dev = .safe) (hclass : ∀ y ∈ selAxes sel, s.classS y = false) :
    ∃ t, direct x "clear" (cmdClear sel) s = .next t ∧ (t.ses x).running = none ∧
      lastLine (t.ses x) = some (frameReply (directFrame (s.ses x)) (txt "ok") ++ crlf) ∧
      t.faults = faultsAfter (selMask sel) s.faults ∧ t.prm = s.prm ∧ t.pe = s.pe ∧ t.otp = s.otp ∧ t.commit = s.commit := by
  obtain ⟨l, hframe, -, hrun⟩ := direct_ready hready "clear" (cmdClear sel)
  let k : Call := { x := x, line := l, word := txt "clear", tick := s.tick }
  let v : State := (lineHeard x s).modLink fun l => { l with clearN := none }
  let u : State := clearAxes (selMask sel) ((lineHeard x s).tick + 1) v
  have hkept : u.clearKept = (faultsAfter (selMask sel) s.faults, s.link.clear, s.prm) :=
    (clearAxes_acts v (selMask sel) _ (by simp [v])).1
  have hfaults : u.faults = faultsAfter (selMask sel) s.faults := congrArg Prod.fst hkept
  have hend : cmdClear sel k (lineHeard x s) = answer k (txt "ok") u :=
    (cmdClear_safe (s := lineHeard x s) h hfree hdev hclass).trans (clearReply_ok hfaults)
  have hmoved : u.unmoved = v.unmoved := unmoved_clearAxes ..
  have hopen : (u.ses x).isOpen = true := by
    have htrust : (u.ses x).trust = ((lineHeard x s).ses x).trust := congrFun (congrArg (fun q => q.2.2.trust) hmoved) x
    exact (congrArg Trust.isOpen htrust).trans ((lineHeard_isOpen x s).trans hready.2.1)
  obtain ⟨hrunning, hlast⟩ := answer_spec k (txt "ok") u hopen
  have honly : answer k (txt "ok") u = { u with sess := (answer k (txt "ok") u).sess } := (answer_only k (txt "ok") u).1
  refine ⟨_, hrun.trans (congrArg _ hend), hrunning, hframe ▸ hlast, ?_⟩
  rw [honly]
  exact ⟨hfaults, congrArg (·.2.2) hkept, congrArg Prod.fst (received_clearAxes ..), congrArg Prod.fst hmoved,
    congrArg (·.2.1) hmoved⟩

/-- Settles O10: each line by what its checks let it do. -/
theorem diagAndClearStart : Obligations.DiagAndClearStart := by
  unfold Obligations.DiagAndClearStart
  intro x s hready
  refine ⟨fun ax htick hlevel hrest => ?diag, fun sel c hline => ?clear⟩
  case diag =>
    refine direct_waits hready "diag" fun k hk => ?_
    subst hk
    exact cmdDiag_starts (by rwa [level_lineHeard]) hrest htick
  case clear =>
    rw [exec_clear hline]
    refine ⟨fun hnone => ?_, fun hcan hcause => ?_, fun hcan hfree => ⟨fun htick hdev hno => ?_, fun hdev hclass => ?_⟩⟩
    · exact direct_answers hready "clear" fun k _ => cmdClear_nothing hnone
    · exact direct_answers hready "clear" fun k _ => cmdClear_blocked hcan hcause
    · refine direct_waits hready "clear" fun k _ => ?_
      have hwaiting : ∀ y ∈ selAxes sel, NoHand (waitFor k (.axis sel .clear) (lineHeard x s)) y := hno
      rw [cmdClear_handsOver (s := lineHeard x s) hcan hfree htick hdev hno, forAll_handOver hwaiting, handed_waitFor]
    · exact direct_clear_safe hready hcan hfree hdev hclass

end Sys2Proof.Machine
end
